-- ==== Sys2Proof/Word.lean ====
section
/-!
DEFINITION. The words of the T4096's pins and memory (spec/00_scope.md, section 5 and R2): 16-bit host words made of
two 8-bit lanes, and the 19-bit word address HA18–HA0.
-/

namespace Sys2Proof

/-- One lane of a host access, and one byte of a link frame. -/
abbrev Byte := BitVec 8

/-- One word of the subscriber memory (HD15–HD0, MD15–MD0). -/
abbrev Word := BitVec 16

/-- A word address on HA18–HA0: 0x00000 to 0x7FFFF. -/
abbrev Addr := BitVec 19

/-- A 32-bit counter of the live block (R70, R93). -/
abbrev Word32 := BitVec 32

end Sys2Proof
end

