-- ==== Sys2Proof/Syntax.lean ====
section
/-!
DEFINITION. The commands of the T4096: one constructor of `Instr` per row of spec/opcode_table.json. A row is one
whole, indivisible step (spec/95_what_each_step_holds.md): a host access, an event of a link, a clock or a pin, or one
record operation of an engine. The table gives no row any bits; the operands are those the row's rule names.
-/

namespace Sys2Proof

/-- The lane strobes of a host access, HUL and HLL (R1, R9). -/
structure Lanes where
  upper : Bool
  lower : Bool
  deriving DecidableEq, Repr

/-- The six clock words of the live block, 0x0000B to 0x00010 (12.2). -/
inductive ClockField where
  | seconds | minutes | hours | day | month | year
  deriving DecidableEq, Repr

/-- The MASKED words: the notice words of element and subscriber records (R10). -/
inductive NoticeWord where
  | element (i : Fin 256)
  | subscriber (i : Fin 4096)
  deriving DecidableEq, Repr

/-- The two words of a subscriber record that hold its drop address (R55). -/
inductive DropWord where
  | tap
  | port
  deriving DecidableEq, Repr

/-- The two words of a subscriber record whose write submits the subscriber (R64). -/
inductive OrderWord where
  | tierSet
  | order
  deriving DecidableEq, Repr

/-- The two rings of chapter 11. -/
inductive RingName where
  | log
  | journal
  deriving DecidableEq, Repr

/-- An upstream frame as the receiver has collected it when the frame ends (R91): its bytes, at most 16 of them, and
the two conditions that make it bad. `Machine/Frames.lean` gives the frame that a stretch of the line URXD forms. -/
structure UpFrame where
  /-- The bit times for which the line had been at mark, with the receiver out of its reset, when the frame's first start bit
  came, counted no further than a rested line needs; 0 for a frame that was under way when the reset ended (R91, R95). -/
  idle : Nat
  bytes : List Byte
  /-- A stop bit was received at space. -/
  framingError : Bool
  /-- A 17th byte or more was received. -/
  overrun : Bool
  deriving DecidableEq, Repr

/-- The commands, in the order of spec/opcode_table.json. -/
inductive Instr where
  -- host accesses (chapters 1, 8 and 11)
  | hostWrite (a : Addr) (l : Lanes) (d : Word)
  | maskedWrite (n : NoticeWord) (l : Lanes) (d : Word)
  | squashReasonRead (l : Lanes)
  | pairLowRead (a : Addr) (l : Lanes)
  | pairHighRead (a : Addr) (l : Lanes)
  | clusterFlagRead (l : Lanes)
  | clockSecondsRead (l : Lanes)
  | clockYearRead (l : Lanes)
  | clockControlWrite (l : Lanes) (d : Word)
  | clockWordWrite (f : ClockField) (l : Lanes) (d : Word)
  -- plan (chapter 2)
  | planCheckWordWrite (l : Lanes) (d : Word)
  | planCheckComplete
  | warningDisableClear
  -- requests (chapters 2, 7, 9 and 10)
  | requestCodeWrite (n : Fin 8) (l : Lanes) (d : Word)
  | unknownCode
  | addElement
  | retireElement
  | setFeed
  | clearLatch
  | armEvent
  | disarmEvent
  | deskPurchase
  | cancelPurchase
  | closeNow
  | quiesce
  | resume
  -- subscriber records (chapter 4)
  | unusedWrite (i : Fin 4096) (w : DropWord) (l : Lanes) (d : Word)
  | activation (i : Fin 4096) (l : Lanes) (d : Word)
  | move (i : Fin 4096) (w : DropWord) (l : Lanes) (d : Word)
  | retire (i : Fin 4096) (l : Lanes) (d : Word)
  | rewrite (i : Fin 4096) (w : DropWord) (l : Lanes) (d : Word)
  | feedChange (i : Fin 4096) (l : Lanes) (d : Word)
  | orderWrite (i : Fin 4096) (w : OrderWord) (l : Lanes) (d : Word)
  -- line-up (chapter 3)
  | lineupWordWrite (k : Fin 384) (l : Lanes) (d : Word)
  | commitWordWrite (l : Lanes) (d : Word)
  | lineupCheckComplete
  | ringTailWrite (r : RingName) (l : Lanes) (d : Word)
  -- downstream link (chapters 5 to 7)
  | frameCompletion
  | replyGrant
  | retryGrant
  | pollGrant
  | retireGrant
  | immediateGrant
  | sweepGrant
  | refreshGrant
  | sweepVisit
  | refreshVisit
  -- return link (chapters 6, 7 and 9)
  | badUpstreamFrame (f : UpFrame)
  | ack (f : UpFrame)
  /-- `dt` is the time from the command before to the frame's arrival, in bit times of the downstream link. -/
  | status (dt : Nat) (f : UpFrame)
  | buy (f : UpFrame)
  -- deadlines (chapters 6 and 7)
  | ackTimeout
  | retryWaitEnd
  | pollDue
  | pollTimeout
  -- time, metering and close (chapters 8 and 10)
  | clockSecond
  | minuteTick
  | meterPassStart
  | meteringVisit
  | closeVisit
  -- power and reset (chapters 1, 2 and 8)
  | powerUp
  | pwrfail
  | powerFailPortIdle
  | reset
  | resetEnd
  -- start-up (R26)
  | elementCensus
  | subscriberCensusVisit
  | slotReload
  | ringControlValidation
  | closeResumption
  | start
  | requestSlotScan
  | startupEnd
  -- pins and supplies
  | pwrfailReturningHigh
  | powerLoss
  | backupIntactLatchCleared
  deriving DecidableEq, Repr

end Sys2Proof
end

