-- ==== Sys2Proof/Decode.lean ====
section
/-!
DEFINITION. Reading commands from the opcode table's bits. spec/opcode_table.json gives bits to none of its 76 rows: a
command is an access, an event or a record operation, and no word spells one. The decoder therefore answers `none` for
every word.
-/

namespace Sys2Proof

/-- The command that the word `w` of `nbits` bits spells by the table's bits: none, since no row has bits. -/
def decodeTableWord (_nbits _w : Nat) : Option Instr := none

end Sys2Proof
end

