-- ==== Sys2Proof/Machine/Bits.lean ====
section
/-!
DEFINITION. Bit fields, lanes and pairs of 16-bit words, and tables kept as sorted lists of numbered entries.
-/

namespace Sys2Proof.Machine

/-- The upper lane of a word. -/
def wordHi (w : Word) : Byte := w.extractLsb' 8 8

/-- The lower lane of a word. -/
def wordLo (w : Word) : Byte := w.extractLsb' 0 8

/-- The word whose lanes are `hi` and `lo`. -/
def wordOfBytes (hi lo : Byte) : Word := hi ++ lo

/-- The word that holds the number `n`; numbers above 65535 lose their upper bits. -/
def wordOf (n : Nat) : Word := BitVec.ofNat 16 n

/-- The number held in `len` bits of `w` from bit `lo` up (the field notation of chapter 12). -/
def field (w : Word) (lo len : Nat) : Nat := w.toNat / 2 ^ lo % 2 ^ len

/-- Low word of a pair (12, opening paragraph: low word at the lower offset). -/
def pairLowWord (n : Nat) : Word := wordOf n

/-- High word of a pair. -/
def pairHighWord (n : Nat) : Word := wordOf (n / 65536)

/-- The number a pair holds. -/
def pairValue (low high : Word) : Nat := low.toNat + 65536 * high.toNat

/-- A counter of one word that stays at its largest value (4.3, Saturation). -/
def saturate16 (n : Nat) : Nat := min n 65535

/-- No lane is strobed. -/
def noLanes (l : Lanes) : Bool := !l.upper && !l.lower

/-- R7 step 2: each strobed lane takes the byte written, each unstrobed lane keeps its old byte. -/
def mergeLanes (l : Lanes) (old new : Word) : Word :=
  wordOfBytes (if l.upper then wordHi new else wordHi old) (if l.lower then wordLo new else wordLo old)

/-- The bits of a word that lie in the strobed lanes. -/
def laneMask (l : Lanes) : Word := mergeLanes l 0x0000 0xFFFF

/-- R10: the word a MASKED word takes. The upper lane written is the mask, the lower lane the values, and an unstrobed
lane counts as zero. -/
def maskedMerge (l : Lanes) (old written : Word) : Word :=
  let m := if l.upper then wordHi written else 0
  let v := if l.lower then wordLo written else 0
  wordOfBytes (wordHi old) ((wordLo old &&& ~~~m) ||| (v &&& m))

/-- R10: the mask of a masked write. -/
def maskOf (l : Lanes) (written : Word) : Byte := if l.upper then wordHi written else 0

/-! Tables: lists of numbered entries with rising numbers, so that equal tables are equal lists. -/

/-- The entry numbered `k`. -/
def tableGet {α : Type} : List (Nat × α) → Nat → Option α
  | [], _ => none
  | (j, v) :: t, k => if k = j then some v else tableGet t k

/-- The table with `v` as its entry numbered `k`. -/
def tableSet {α : Type} : List (Nat × α) → Nat → α → List (Nat × α)
  | [], k, v => [(k, v)]
  | (j, w) :: t, k, v =>
    if k < j then (k, v) :: (j, w) :: t else if k = j then (k, v) :: t else (j, w) :: tableSet t k v

/-- The table without an entry numbered `k`. -/
def tableErase {α : Type} (t : List (Nat × α)) (k : Nat) : List (Nat × α) :=
  t.filter (fun e => e.1 != k)

/-- A count kept as a table: an unlisted number has count 0. -/
def countOf (t : List (Nat × Nat)) (k : Nat) : Nat := (tableGet t k).getD 0

/-- The count table with the count of `k` set, an entry of 0 left out. -/
def setCount (t : List (Nat × Nat)) (k n : Nat) : List (Nat × Nat) :=
  if n = 0 then tableErase t k else tableSet t k n

/-- `x` put into a rising list of numbers, once. -/
def insertNat : List Nat → Nat → List Nat
  | [], x => [x]
  | y :: t, x => if x < y then x :: y :: t else if x = y then y :: t else y :: insertNat t x

/-- The first entry of `l` with the least `f`. -/
def leastBy {α : Type} (f : α → Nat) : List α → Option α
  | [] => none
  | x :: t =>
    match leastBy f t with
    | none => some x
    | some y => if f y < f x then some y else some x

end Sys2Proof.Machine
end

