-- ==== Sys2Proof/Machine/Operands.lean ====
section
/-!
DEFINITION. The memory map (R2, 12.1): where each record stands, the class of every word, the pairs the pair latch
knows, and the address that each command's operands name.
-/

namespace Sys2Proof.Machine

/-- The word classes of R2. -/
inductive WordClass where
  | plain | watched | masked | part | live
  deriving DecidableEq, Repr

/-! Places of records (12.1). -/

/-- Word `w` of request slot `n`. -/
def requestWord (n w : Nat) : Nat := 0x00080 + 4 * n + w

/-- Word `w` of event slot record `k`. -/
def slotWord (k w : Nat) : Nat := 0x000A0 + 16 * k + w

/-- Word `w` of line-up position `c`. -/
def lineupWord (c w : Nat) : Nat := 0x00400 + 4 * c + w

/-- Word `w` of element record `i`. -/
def elementWord (i w : Nat) : Nat := 0x01000 + 16 * i + w

/-- Word `w` of event log position `i`. -/
def logWord (i w : Nat) : Nat := 0x02000 + 8 * i + w

/-- Word `w` of journal position `i`. -/
def journalWord (i w : Nat) : Nat := 0x04000 + 16 * i + w

/-- Word `w` of subscriber record `i`. -/
def subscriberWord (i w : Nat) : Nat := 0x10000 + 32 * i + w

/-- The plan's check word. -/
def planCheckWord : Nat := 0x0007F

/-- The line-up commit word. -/
def commitWord : Nat := 0x00580

/-- The first word of the ring and close control area. -/
def logHeadWord : Nat := 0x00120
def logTailWord : Nat := 0x00121
def logSequenceWord : Nat := 0x00122
def journalHeadWord : Nat := 0x00123
def journalTailWord : Nat := 0x00124
def journalSequenceWord : Nat := 0x00125
def closeStatusWord : Nat := 0x00126
def closeCursorWord : Nat := 0x00127
def closeNumberWord : Nat := 0x00128

/-- The address is in the live block. -/
def inLiveBlock (a : Nat) : Bool := decide (a < 0x40)

/-- The address is in element record 0, which R2 and R4 close to host writes whatever the class of the word. -/
def inHeadEndRecord (a : Nat) : Bool := decide (0x01000 ≤ a) && decide (a < 0x01010)

/-- The address is one of the plan words 0x00040 to 0x0007E, which a plan check reads (R20). -/
def isPlanWord (a : Nat) : Bool := decide (0x40 ≤ a) && decide (a < planCheckWord)

/-- R2 with the layouts 12.2 to 12.8: the class of every word of the map. -/
def wordClass (a : Nat) : WordClass :=
  if a < 0x00040 then .live
  else if a < 0x00080 then (if a = planCheckWord then .watched else .plain)
  else if a < 0x000A0 then (if a % 4 = 0 then .watched else .plain)
  else if a < 0x00120 then
    (if a % 16 < 6 then .watched else if a % 16 < 11 then .part else .plain)
  else if a < 0x00130 then
    (if a = logTailWord ∨ a = journalTailWord then .watched
     else if a ≤ closeNumberWord then .part else .plain)
  else if a < 0x00400 then .plain
  else if a ≤ commitWord then .watched
  else if a < 0x01000 then .plain
  else if a < 0x02000 then
    (if a % 16 = 2 ∨ a % 16 = 3 then .watched
     else if a % 16 = 8 then .masked
     else if a % 16 < 14 then .part else .plain)
  else if a < 0x03000 then .part
  else if a < 0x04000 then .plain
  else if a < 0x08000 then .part
  else if a < 0x10000 then .plain
  else if a < 0x30000 then
    (if a % 32 < 7 then .watched
     else if a % 32 = 7 then .masked
     else if a % 32 < 25 then .part else .plain)
  else .plain

/-- R12: the address is the low word of a pair held in PART or live words, as 12.2 to 12.9 mark them. The path decodes
addresses alone (R1), so the pair places of a STATEMENT record are pairs in every journal position (log entry 11). -/
def isPairLow (a : Nat) : Bool :=
  if a < 0x00040 then decide (a = 0x07) || decide (a = 0x14) || decide (a = 0x16) || decide (a = 0x18)
  else if a < 0x000A0 then false
  else if a < 0x00120 then decide (a % 16 = 9)
  else if a < 0x01000 then false
  else if a < 0x02000 then decide (a % 16 = 9)
  else if a < 0x03000 then decide (a % 8 = 2)
  else if a < 0x04000 then false
  else if a < 0x08000 then decide (a % 16 = 2) || decide (a % 16 = 10) || decide (a % 16 = 13)
  else if a < 0x10000 then false
  else if a < 0x30000 then decide (a % 32 = 22)
  else false

/-- R13: the address is the high word of such a pair. -/
def isPairHigh (a : Nat) : Bool := decide (0 < a) && isPairLow (a - 1)

/-! The addresses that operands of commands name. -/

/-- The live word of a clock field (12.2). -/
def clockFieldAddress : ClockField → Nat
  | .seconds => 0x0B
  | .minutes => 0x0C
  | .hours => 0x0D
  | .day => 0x0E
  | .month => 0x0F
  | .year => 0x10

/-- The clock field a live word holds, for the six clock words. -/
def clockFieldAt (a : Nat) : Option ClockField :=
  if a = 0x0B then some .seconds
  else if a = 0x0C then some .minutes
  else if a = 0x0D then some .hours
  else if a = 0x0E then some .day
  else if a = 0x0F then some .month
  else if a = 0x10 then some .year
  else none

/-- The notice word of a record: word 8 of an element, word 7 of a subscriber (12.7, 12.8). -/
def noticeAddress : NoticeWord → Nat
  | .element i => elementWord i.val 8
  | .subscriber i => subscriberWord i.val 7

/-- The word of a subscriber record a drop-address write names (12.8). -/
def dropWordAddress (i : Fin 4096) : DropWord → Nat
  | .tap => subscriberWord i.val 0
  | .port => subscriberWord i.val 1

/-- The word of a subscriber record an order write names (12.8). -/
def orderWordAddress (i : Fin 4096) : OrderWord → Nat
  | .tierSet => subscriberWord i.val 3
  | .order => subscriberWord i.val 6

/-- The tail word of a ring (12.5). -/
def tailAddress : RingName → Nat
  | .log => logTailWord
  | .journal => journalTailWord

/-- An address on the nineteen address lines. -/
def addrOf (a : Nat) : Addr := BitVec.ofNat 19 a

end Sys2Proof.Machine
end

