-- ==== Sys2Proof/Config.lean ====
section
/-!
DEFINITION. What one part is made with, and what the spec leaves free. An `opaque` constant has no body: nothing in
Lean can prove a value of it, so a claim that holds of the model holds whatever the value is.
-/

namespace Sys2Proof.Config

/-- The source of the 48-bit serial number of R34, which differs from part to part. -/
opaque serialSeed : Nat

/-- R34: the serial, a 48-bit number that is never 0. -/
def serial : BitVec 48 := BitVec.ofNat 48 (1 + serialSeed % (2 ^ 48 - 1))

/-- FREE VALUE (log entry 7). R20 reads the 63 plan words one by one while host writes may land between the reads, and
no rule says how many reads have been made when such a write lands. The n-th time that matters, this many further
words have been read. -/
opaque planReadAdvance : Nat → Nat

/-- R34: vendor code. -/
def vendorCode : Word := 0x2E51

/-- R34: part code 0x409 in bits 15–4, revision 3 in bits 3–0. -/
def partCodeAndRevision : Word := 0x4093

end Sys2Proof.Config
end

