-- ==== Sys2Proof/Machine/State.lean ====
section
/-!
DEFINITION. The state of the T4096, block by block as the spec's chapters give it, the subscriber memory behind it, and
the state after reset. Every field is plain data. Link times are counted in bit times of the downstream link, 64 to the
millisecond (R70), which every frame time and every timeout of the spec is a whole number of.
-/

namespace Sys2Proof.Machine

/-- R24. -/
inductive PartState where
  | starting | unplanned | serving | quiescing | quiesced
  deriving DecidableEq, Repr

/-- R5: the reasons of a squash. -/
inductive SquashReason where
  | partWord | readOnlyLive | clockNotHeld | slotQueued | duplicateDrop | retireListFull | livePurchases
  | starting | headEndRecord
  deriving DecidableEq, Repr

/-- R14: the two sides that ask for the memory port. -/
inductive PortSide where
  | host | part
  deriving DecidableEq, Repr

/-- R176: the cause a START record reports. -/
inductive StartCause where
  | powerUp | reset
  deriving DecidableEq, Repr

/-- R29: the requests that stay in progress across other events. -/
inductive LongRequest where
  | quiesce | closeNow
  deriving DecidableEq, Repr

/-- R19: the outcome of a plan check. -/
inductive PlanResult where
  | ok | crc | format
  deriving DecidableEq, Repr

/-- R35: the outcome of a commit check. -/
inductive CommitResult where
  | ok | crc | numberRange | duplicateNumber | slotRange | tierRange | frequencyRange | edited
  deriving DecidableEq, Repr

/-- R47: the kinds of a line-up position. -/
inductive EntryKind where
  | basic | tier | event | barker
  deriving DecidableEq, Repr

/-- The confirmed state of a port, and the command of an AUTH frame (R46, R51). -/
inductive PortState where
  | off | full | barker
  deriving DecidableEq, Repr

/-- R52. -/
inductive LinkStatus where
  | settled | awaiting | unreached | held
  deriving DecidableEq, Repr

/-- R54: the actions a hand-off of a subscriber record can have. -/
inductive ActionKind where
  | activation | move | retire | rewrite | claim | feedChange | order
  deriving DecidableEq, Repr

/-- R71: the classes of the downstream arbiter, in its order. -/
inductive FrameClass where
  | reply | retry | poll | retire | immediate | sweep | refresh
  deriving DecidableEq, Repr

/-- R81: the kinds of sweep, with their arguments. -/
inductive SweepKind where
  | lineup
  | eventStart (slot event : Nat)
  | eventEnd (slot event : Nat)
  | restore (element : Nat)
  | resync
  deriving DecidableEq, Repr

/-- R96: what a pending entry waits for. -/
inductive AckKind where
  | subscriber | retire
  deriving DecidableEq, Repr

/-- R96. -/
inductive AckPhase where
  | sending | awaiting | waiting | candidate
  deriving DecidableEq, Repr

/-- R111. -/
inductive PollPhase where
  | sending | awaiting
  deriving DecidableEq, Repr

/-- R109: the states of an element in use. An element not in use, whose state is UNUSED, has no entry in the tree. -/
inductive ElementState where
  | unpolled | inService | out | latchedOut
  deriving DecidableEq, Repr

/-- R144. -/
inductive SlotState where
  | idle | open | showing | closed
  deriving DecidableEq, Repr

/-- R159. -/
inductive CloseStatus where
  | idle | closing
  deriving DecidableEq, Repr

/-- Supplies and pins (section 5, R17, R18, R136). -/
structure Power where
  /-- VCC is present. -/
  vcc : Bool
  /-- RESET is asserted, or its drain is not over. -/
  resetting : Bool
  /-- The power-fail condition of R17. -/
  failing : Bool
  /-- The level of PWRFAIL: asserted. -/
  pwrfailAsserted : Bool
  deriving DecidableEq, Repr

/-- The memory port and its arbiter (R14, R17). -/
structure Port where
  /-- The side the last grant went to. -/
  last : Option PortSide
  /-- The side whose access the port carries now; none while the port is free. -/
  grant : Option PortSide
  /-- The requests that wait for the port, oldest first: the host's one at most, and one of each part block at most. -/
  waiting : List PortSide
  /-- MCS, MOE, MWE, MUB and MLB are held inactive after a power-fail warning. -/
  inactive : Bool
  deriving DecidableEq, Repr

/-- HD15–HD0 as the last completed read drove them (R1, R9). -/
structure HostBus where
  data : Word
  lanes : Lanes
  deriving DecidableEq, Repr

/-- The latches of the Memory Path Controller. -/
structure Path where
  /-- R5: the address and reason of the first squash since the latch was emptied. -/
  squash : Option (Addr × SquashReason)
  /-- R12: the address of a pair's low word and its captured high word. -/
  pair : Option (Addr × Word)
  deriving DecidableEq, Repr

/-- The Request Engine: part state, start-up sequence and requests (R24, R26, R28). -/
structure Part where
  state : PartState
  /-- The start-up step that comes next, 1 to 9; 10 when all are complete; 0 while a reset holds. -/
  startStep : Nat
  /-- The record the subscriber census visits next (R67). -/
  censusCursor : Nat
  censusDone : Bool
  cause : StartCause
  /-- The Clock's report for the START record (R136). -/
  backupLost : Bool
  /-- R28: the request queue, oldest first. -/
  queue : List Nat
  /-- The slots whose long request is in progress. -/
  inProgress : List (Nat × LongRequest)
  deriving DecidableEq, Repr

/-- The working copy of the plan (R19). `none` in a close field is ANY. -/
structure Plan where
  pollInterval : Nat
  pollTimeout : Nat
  latencyRange : Nat
  slowThreshold : Nat
  slowDisabled : Bool
  standbyDisabled : Bool
  ackTimeout : Nat
  retryWait : Nat
  maxAttempts : Nat
  grace : Nat
  rates : List Nat
  closeDay : Option Nat
  closeHour : Option Nat
  closeMinute : Option Nat
  alertMask : Word
  noiseLimit : Nat
  noiseHold : Nat
  deriving DecidableEq, Repr

/-- A plan check under way (R20): the expected value, and the words read so far. -/
structure PlanCheck where
  expected : Word
  words : List Word
  deriving DecidableEq, Repr

/-- The Plan Checker (R19). -/
structure PlanChecker where
  /-- The working copy; present exactly when it is valid. -/
  copy : Option Plan
  /-- Present exactly while the checking indication is set. -/
  check : Option PlanCheck
  last : Option PlanResult
  deriving DecidableEq, Repr

/-- One position of the line-up image (12.6); `argument` is the tier or slot byte. -/
structure LineupEntry where
  enabled : Bool
  channel : Nat
  kind : EntryKind
  argument : Nat
  zones : Word
  frequency : Nat
  deriving DecidableEq, Repr

/-- The Line-Up Unit (R35). -/
structure LineUp where
  /-- The image; present exactly when it is valid. -/
  image : Option (List LineupEntry)
  edited : Bool
  /-- The expected value of the running check; present exactly while the checking flag is set. -/
  check : Option Word
  /-- The words read by the running check. -/
  candidate : List Word
  last : Option CommitResult
  deriving DecidableEq, Repr

/-- An entry of the retire list (R54, R104). -/
structure RetireEntry where
  tap : Nat
  port : Nat
  subscriber : Nat
  avoided : Nat
  sent : Bool
  /-- The sequence of its latest retire frame, once one has been sent. -/
  lastSequence : Option Nat
  deriving DecidableEq, Repr

/-- The Order Monitor (R54). -/
structure OrderMonitor where
  /-- The drop directory: a drop address (8 · tap + port) to the index of its record. -/
  directory : List (Nat × Nat)
  retires : List RetireEntry
  /-- The direct counts; an element not listed has 0. -/
  direct : List (Nat × Nat)
  unreached : Nat
  held : Nat
  /-- The hand-off whose action is not complete. -/
  outstanding : Option (Nat × ActionKind)
  deriving DecidableEq, Repr

/-- What a completed downstream frame is handed to (R70). -/
inductive HandOff where
  | nobody
  | poll
  /-- The acked AUTH frame of the pending entry with this drop address and sequence. -/
  | ack (tap port sequence : Nat)
  deriving DecidableEq, Repr

/-- The downstream link (R70, R72). -/
inductive Link where
  | idle
  /-- The arbiter has granted the link to a class; the frame is being built. -/
  | granted (c : FrameClass)
  /-- The frame is being sent; its last bit leaves at `ends`. -/
  | sending (frame : List Byte) (handOff : HandOff) (ends : Nat)
  deriving DecidableEq, Repr

/-- An entry of the purchase-reply queue (R74). -/
structure Reply where
  tap : Nat
  port : Byte
  token : Byte
  result : Byte
  deriving DecidableEq, Repr

/-- An entry of the sweep table (R81, R85). -/
structure Sweep where
  kind : SweepKind
  cursor : Nat
  held : Option Nat
  maps : Nat
  /-- A requeue sweep stopped at a full queue (R85). -/
  stopped : Bool
  deriving DecidableEq, Repr

/-- R86. -/
structure Refresh where
  cursor : Nat
  held : Option Nat
  /-- MAP frames sent of the owed batch; 8 when none is owed. -/
  maps : Nat
  resting : Bool
  visits : Nat
  deriving DecidableEq, Repr

/-- The Transmit Scheduler (R90). -/
structure Scheduler where
  link : Link
  replies : List Reply
  /-- The immediate queue, oldest first. -/
  queue : List Nat
  /-- The marks of the deferred map, rising. -/
  deferred : List Nat
  refillPointer : Nat
  /-- The sweep table, oldest first. -/
  sweeps : List Sweep
  refresh : Refresh
  framesSent : Word32
  deriving DecidableEq, Repr

/-- An entry in use of the pending-ack table (R96). -/
structure PendingAck where
  kind : AckKind
  subscriber : Nat
  tap : Nat
  port : Nat
  sequence : Nat
  command : PortState
  attempts : Nat
  phase : AckPhase
  /-- The end of the running timeout or retry wait; for a candidate, the moment its wait ended. -/
  deadline : Nat
  /-- The moment its latest frame completed (R101); 0 until the first has (log entry 39). -/
  completed : Nat
  deriving DecidableEq, Repr

/-- The Acknowledgement Tracker (R96, R104). -/
structure Tracker where
  /-- The entries in use of the pending-ack table, at most 16. -/
  table : List PendingAck
  /-- The next retire sequence. -/
  retireSequence : Nat
  matched : Word32
  deriving DecidableEq, Repr

/-- The Return Link Receiver (R93, R94, R95). -/
structure Receiver where
  /-- R95: the line has rested since the receiver was last reset, so that the frames it sees begin whole. -/
  rested : Bool
  badFrames : Word32
  noise : Nat
  noisy : Bool
  deriving DecidableEq, Repr

/-- An element in use, in the tree copy (R111). -/
structure Element where
  address : Nat
  parent : Nat
  state : ElementState
  deriving DecidableEq, Repr

/-- The outstanding-poll record (R111). -/
structure Poll where
  index : Nat
  address : Nat
  sequence : Nat
  phase : PollPhase
  completed : Nat
  deadline : Nat
  deriving DecidableEq, Repr

/-- The Plant Monitor (R111). -/
structure Plant where
  /-- The elements in use from 1 to 255, by index; the head end, index 0, is always there and is not listed. -/
  tree : List (Nat × Element)
  pollPointer : Nat
  pollSequence : Nat
  poll : Option Poll
  /-- The time from which a poll is due. -/
  nextPollDue : Nat
  outCount : Nat
  latchedCount : Nat
  slowCount : Nat
  standbyCount : Nat
  /-- A newly loaded plan has disabled SLOW, STANDBY, and the clearing of R118 is to come. -/
  clearSlow : Bool
  clearStandby : Bool
  deriving DecidableEq, Repr

/-- The six fields of the calendar (R130). -/
structure Calendar where
  seconds : Nat
  minutes : Nat
  hours : Nat
  day : Nat
  month : Nat
  year : Nat
  deriving DecidableEq, Repr

/-- A minute tick (R131): the fields as they stand after the roll that produced it, and VALID of that moment. -/
structure Tick where
  fields : Calendar
  valid : Bool
  deriving DecidableEq, Repr

/-- The Clock (R130). All but the snapshot and the waiting ticks lies in the backup domain. -/
structure Clock where
  now : Calendar
  /-- The sub-second divider, in cycles of the crystal since the last whole second (log entry 14). -/
  divider : Nat
  set : Bool
  holdTime : Calendar
  valid : Bool
  backupIntact : Bool
  /-- R137: the snapshot; its seconds field is not used. -/
  snapshot : Option Calendar
  /-- Minute ticks produced and not yet handed to their receivers, oldest first (R131). -/
  ticks : List Tick
  deriving DecidableEq, Repr

/-- The Meter Engine (R139, R142). -/
structure Meter where
  owed : Nat
  lost : Nat
  running : Bool
  cursor : Nat
  deriving DecidableEq, Repr

/-- The armed copy of a slot (R143). -/
structure ArmedSlot where
  state : SlotState
  event : Nat
  startStamp : Nat
  endStamp : Nat
  cutoff : Nat
  price : Nat
  deriving DecidableEq, Repr

/-- The Event Slot Unit (R143). -/
structure EventSlots where
  /-- The armed copies, by slot; a slot with none is reported IDLE. -/
  armed : List (Nat × ArmedSlot)
  noted : Bool
  deriving DecidableEq, Repr

/-- The persisted values of the Close Engine, in its internal copy (R159). -/
structure CloseCopy where
  status : CloseStatus
  cursor : Nat
  number : Nat
  deriving DecidableEq, Repr

/-- The Close Engine (R159). -/
structure CloseEngine where
  copy : Option CloseCopy
  bound : Option Nat
  statements : Nat
  resumed : Bool
  stalled : Bool
  noted : Bool
  deriving DecidableEq, Repr

/-- The internal copies of one ring's control words (R171). -/
structure RingCopy where
  head : Nat
  tail : Nat
  sequence : Nat
  deriving DecidableEq, Repr

/-- The Log and Journal Writer (R171, R174), with what its validation found for the START record (R172). -/
structure Writer where
  log : Option RingCopy
  journal : Option RingCopy
  /-- A journal position is taken. -/
  taken : Bool
  logEmptied : Bool
  journalEmptied : Bool
  logTailSet : Bool
  journalTailSet : Bool
  deriving DecidableEq, Repr

/-- The state of the part, the subscriber memory behind it, and the commands that wait. -/
structure State where
  /-- The MODEL's own: the commands that wait, first in first out. -/
  pending : List Instr
  /-- The subscriber memory: byte 2a is the lower lane of word a, byte 2a + 1 its upper lane. -/
  mem : List Host.Cell
  power : Power
  port : Port
  bus : HostBus
  path : Path
  part : Part
  plan : PlanChecker
  lineup : LineUp
  order : OrderMonitor
  sched : Scheduler
  tracker : Tracker
  receiver : Receiver
  plant : Plant
  clock : Clock
  meter : Meter
  slots : EventSlots
  close : CloseEngine
  writer : Writer
  /-- The sixteen latched cluster flags (R177), numbered as 12.2 numbers them. -/
  flags : Word
  /-- Link time, in bit times of the downstream link. -/
  time : Nat
  /-- The MODEL's own: how many free values of `Config` have been used. -/
  freeCount : Nat
  deriving DecidableEq, Repr

/-- Why the machine stops with a fault. The spec gives every command of the table an effect in every state, or says that
nothing comes of it, so no command ever stops with a fault and there is no reason to name. -/
inductive Fault where
  deriving DecidableEq, Repr

/-- Why a command has no meaning. -/
inductive Refusal where
  /-- Raised by an arm of `exec` whose command has no meaning yet. Safe: nothing is said of the command. No arm does. -/
  | notModelled (mnemonic : String)
  deriving DecidableEq, Repr

/-- R130, R136: 2000-01-01 00:00:00. -/
def calendarOrigin : Calendar :=
  { seconds := 0, minutes := 0, hours := 0, day := 1, month := 1, year := 0 }

/-- R86. -/
def Refresh.reset : Refresh := { cursor := 0, held := none, maps := 8, resting := false, visits := 0 }

/-- The machine right after the power-up that finds the backup lost (R136): every value that R136 gives the Clock, every
block as its own rule gives it after power-up, start-up step 1 begun with the stored check word (R26), memory with
nothing listed, and no command waiting. -/
def State.reset : State where
  pending := []
  mem := []
  power := { vcc := true, resetting := false, failing := false, pwrfailAsserted := false }
  port := { last := none, grant := none, waiting := [], inactive := false }
  bus := { data := 0, lanes := { upper := false, lower := false } }
  path := { squash := none, pair := none }
  part :=
    { state := .starting, startStep := 1, censusCursor := 0, censusDone := false, cause := .powerUp
      backupLost := true, queue := [], inProgress := [] }
  plan := { copy := none, check := some { expected := 0, words := [] }, last := none }
  lineup := { image := none, edited := false, check := none, candidate := [], last := none }
  order := { directory := [], retires := [], direct := [], unreached := 0, held := 0, outstanding := none }
  sched :=
    { link := .idle, replies := [], queue := [], deferred := [], refillPointer := 0, sweeps := []
      refresh := Refresh.reset, framesSent := 0 }
  tracker := { table := [], retireSequence := 1, matched := 0 }
  receiver := { rested := false, badFrames := 0, noise := 0, noisy := false }
  plant :=
    { tree := [], pollPointer := 1, pollSequence := 1, poll := none, nextPollDue := 0, outCount := 0
      latchedCount := 0, slowCount := 0, standbyCount := 0, clearSlow := false, clearStandby := false }
  clock :=
    { now := calendarOrigin, divider := 0, set := false, holdTime := calendarOrigin
      valid := false, backupIntact := true, snapshot := none, ticks := [] }
  meter := { owed := 0, lost := 0, running := false, cursor := 0 }
  slots := { armed := [], noted := false }
  close := { copy := none, bound := none, statements := 0, resumed := false, stalled := false, noted := false }
  writer :=
    { log := none, journal := none, taken := false, logEmptied := false, journalEmptied := false
      logTailSet := false, journalTailSet := false }
  flags := 0
  time := 0
  freeCount := 0

end Sys2Proof.Machine
end

