-- ==== Sys2Proof/Machine/Ops.lean ====
section
/-!
DEFINITION. The named operations over the subscriber memory, the memory port, the host bus, the squash latch and the
records' packed words. Every other file reads and writes memory through these.
-/

namespace Sys2Proof.Machine

/-! The subscriber memory: a list of (byte place, byte) in one canonical form. -/

/-- The byte at a place; what is not listed reads as 0 (log entry 2). -/
def memByte : List Host.Cell → Nat → Byte
  | [], _ => 0
  | (k, b) :: m, a => if a = k then b else memByte m a

/-- The memory with one byte written: places stay rising, and a byte of 0 is not listed. -/
def memSetByte : List Host.Cell → Nat → Byte → List Host.Cell
  | [], a, b => if b = 0 then [] else [(a, b)]
  | (k, c) :: m, a, b =>
    if a < k then (if b = 0 then (k, c) :: m else (a, b) :: (k, c) :: m)
    else if a = k then (if b = 0 then m else (a, b) :: m)
    else (k, c) :: memSetByte m a b

/-- The canonical form: places strictly rising, and no byte listed that equals what an unlisted place reads as. -/
abbrev MemWf (m : List Host.Cell) : Prop :=
  m.Pairwise (fun x y => x.1 < y.1) ∧ ∀ c ∈ m, c.2 ≠ 0

/-- The word at an address. -/
def memWord (m : List Host.Cell) (a : Nat) : Word := wordOfBytes (memByte m (2 * a + 1)) (memByte m (2 * a))

/-- R9: the memory with the strobed lanes of a word written; MUB and MLB follow HUL and HLL. -/
def memSetLanes (m : List Host.Cell) (a : Nat) (l : Lanes) (w : Word) : List Host.Cell :=
  let m₁ := if l.lower then memSetByte m (2 * a) (wordLo w) else m
  if l.upper then memSetByte m₁ (2 * a + 1) (wordHi w) else m₁

/-- Both lanes. -/
def bothLanes : Lanes := { upper := true, lower := true }

/-- The memory with a whole word written (R16: every word is written whole in a single write). -/
def memSetWord (m : List Host.Cell) (a : Nat) (w : Word) : List Host.Cell := memSetLanes m a bothLanes w

/-! The memory port (R14). -/

/-- R14: the side the arbiter grants when the port is free. If both wait, the host is granted when the previous grant
went to a part block, and the part otherwise. -/
def portChoice (last : Option PortSide) (hostWaits partWaits : Bool) : Option PortSide :=
  if hostWaits && partWaits then (if last = some .part then some .host else some .part)
  else if hostWaits then some .host
  else if partWaits then some .part
  else none

/-- R14: a request is posted, behind those that wait. -/
def postRequest (side : PortSide) (p : Port) : Port := { p with waiting := p.waiting ++ [side] }

/-- R14: the arbiter of a free port grants it to the side chosen, to the oldest request of that side. -/
def arbitrate (p : Port) : Port :=
  match p.grant, portChoice p.last (p.waiting.contains .host) (p.waiting.contains .part) with
  | none, some side => { p with last := some side, grant := some side, waiting := p.waiting.erase side }
  | _, _ => p

/-- R14: the access or held access that was granted has ended, and the port is free. -/
def endGrant (p : Port) : Port := { p with grant := none }

/-- R14: accesses one after another, `n` of them, each granted by the arbiter when the port is free. -/
def serveRequests : Nat → Port → Port
  | 0, p => p
  | n + 1, p => serveRequests n (endGrant (arbitrate p))

/-- R14: the requests that wait are served until none is left. -/
def servePort (p : Port) : Port := serveRequests p.waiting.length (endGrant p)

/-- R17: a host access that waits for its grant is completed without a port access. -/
def dropHostRequest (p : Port) : Port := { p with waiting := p.waiting.filter fun side => decide (side = .part) }

/-- R14: a port access of one side is requested, and the port serves what waits, this access in its turn. Between two
commands nothing waits, so that commands reach the part in the order of their grants (log entry 3). -/
def grantPort (side : PortSide) (s : State) : State := { s with port := servePort (postRequest side s.port) }

/-- What a memory read returns at this moment. -/
def rd (s : State) (a : Nat) : Word := memWord s.mem a

/-- One access of a part block that only reads: a record read by a build, a visit or a decision (R14, R72, R83). The words
themselves are read with `rd`. -/
def partRead (s : State) : State := grantPort .part s

/-- One write of a part block. -/
def wr (s : State) (a : Nat) (w : Word) : State :=
  grantPort .part { s with mem := memSetWord s.mem a w }

/-- One write of the host, in the strobed lanes (R9). -/
def hostStore (s : State) (a : Nat) (l : Lanes) (w : Word) : State :=
  grantPort .host { s with mem := memSetLanes s.mem a l w }

/-- The pair at an address (R16, pair read). -/
def rdPair (s : State) (a : Nat) : Nat := pairValue (rd s a) (rd s (a + 1))

/-- The memory with several words written, in order. -/
def memSetWords (m : List Host.Cell) : List (Nat × Word) → List Host.Cell
  | [] => m
  | (a, w) :: t => memSetWords (memSetWord m a w) t

/-- R14, R16: one held access of a part block that writes these words, in order, after what it reads: one request and one
grant, so that no other access comes between its parts. -/
def wrHeld (s : State) (ws : List (Nat × Word)) : State :=
  grantPort .part { s with mem := memSetWords s.mem ws }

/-- R16: a pair write, low word then high word, in one held access. -/
def wrPair (s : State) (a n : Nat) : State := wrHeld s [(a, pairLowWord n), (a + 1, pairHighWord n)]

/-- Writes of several words, in order, each an access of its own. -/
def wrAll (s : State) : List (Nat × Word) → State
  | [] => s
  | (a, w) :: t => wrAll (wr s a w) t

/-- R11, R16: a part block sets notice bits, leaving every other bit of the notice word as it stood; the read and the write
are one held access. -/
def setNotice (a bit : Nat) (s : State) : State := wr s a (rd s a ||| wordOf (2 ^ bit))

/-! Whether the part runs. -/

/-- The part is powered, out of reset and without a power-fail warning: its engines may start record operations and host
accesses are taken (R17, R18). -/
def running (s : State) : Bool := s.power.vcc && !s.power.resetting && !s.power.failing

/-- The part runs and has left STARTING. -/
def started (s : State) : Bool := running s && decide (s.part.state ≠ .starting)

/-! The host bus. -/

/-- R1, R9: a completed read leaves its data on HD15–HD0 in the lanes strobed. -/
def drive (s : State) (l : Lanes) (w : Word) : State := { s with bus := { data := w, lanes := l } }

/-! The squash latch (R5). -/

/-- 12.2: the codes of the squash reasons; NONE is 0. -/
def SquashReason.code : SquashReason → Nat
  | .partWord => 1
  | .readOnlyLive => 2
  | .clockNotHeld => 3
  | .slotQueued => 4
  | .duplicateDrop => 5
  | .retireListFull => 6
  | .livePurchases => 7
  | .starting => 8
  | .headEndRecord => 9

/-- The bit of ACCESS in the cluster flag word (12.2). -/
def accessMask : Word := 0x0100

/-- R5: a squash latches ACCESS, and fills the squash latch if it is empty. -/
def squash (a : Addr) (r : SquashReason) (s : State) : State :=
  { s with
    flags := s.flags ||| accessMask
    path := { s.path with squash := match s.path.squash with | none => some (a, r) | some q => some q } }

/-! Word 8 of a subscriber record (12.8). -/

/-- 12.8, 12.10: the code of a port state and of an AUTH command. -/
def PortState.code : PortState → Nat
  | .off => 0
  | .full => 1
  | .barker => 2

/-- R183: encoding 3 names no port state and is taken as OFF. -/
def portStateOf (n : Nat) : PortState := if n = 1 then .full else if n = 2 then .barker else .off

/-- 12.8. -/
def LinkStatus.code : LinkStatus → Nat
  | .settled => 0
  | .awaiting => 1
  | .unreached => 2
  | .held => 3

/-- 12.8. -/
def linkStatusOf (n : Nat) : LinkStatus :=
  if n = 1 then .awaiting else if n = 2 then .unreached else if n = 3 then .held else .settled

/-- The four fields of word 8. -/
structure RecordStatus where
  confirmed : PortState
  link : LinkStatus
  attempts : Nat
  conflict : Bool
  deriving DecidableEq, Repr

/-- 12.8: word 8 as it is read. -/
def statusOfWord (w : Word) : RecordStatus :=
  { confirmed := portStateOf (field w 0 2), link := linkStatusOf (field w 2 2), attempts := field w 4 3
    conflict := w.getLsbD 7 }

/-- 12.8: word 8 as it is written; the other bits are written 0 (R183). -/
def statusWord (r : RecordStatus) : Word :=
  wordOf (r.confirmed.code + 4 * r.link.code + 16 * (r.attempts % 8) + (if r.conflict then 128 else 0))

/-- Word `w` of subscriber record `i` as memory holds it. -/
def subRd (s : State) (i w : Nat) : Word := rd s (subscriberWord i w)

/-- The tap id of a record. -/
def subTap (s : State) (i : Nat) : Nat := (subRd s i 0).toNat

/-- The port of a record (12.8, bits 2–0 of word 1). -/
def subPort (s : State) (i : Nat) : Nat := field (subRd s i 1) 0 3

/-- The zone of a record (12.8, bits 11–8 of word 1). -/
def subZone (s : State) (i : Nat) : Nat := field (subRd s i 1) 8 4

/-- The feed of a record (12.8, bits 7–0 of word 2). -/
def subFeed (s : State) (i : Nat) : Nat := field (subRd s i 2) 0 8

/-- Word 8 of a record. -/
def subStatus (s : State) (i : Nat) : RecordStatus := statusOfWord (subRd s i 8)

/-- R50: the record is in use: its tap id is nonzero and no activation of it is outstanding. -/
def inUse (s : State) (i : Nat) : Bool :=
  decide (subTap s i ≠ 0) && decide (s.order.outstanding ≠ some (i, .activation))

/-- The record is in use and not conflicted. -/
def servable (s : State) (i : Nat) : Bool := inUse s i && !(subStatus s i).conflict

/-- A drop address as the directory numbers it. -/
def dropKey (tap port : Nat) : Nat := 8 * tap + port

/-- The record that the drop directory maps an address to (R56). -/
def holderOf (s : State) (tap port : Nat) : Option Nat := tableGet s.order.directory (dropKey tap port)

/-- R66: the part a status has in the UNREACHED count. -/
def countsUnreached (r : RecordStatus) : Nat := if r.link = .unreached ∧ r.conflict = false then 1 else 0

/-- R66: the part a status has in the HELD count. -/
def countsHeld (r : RecordStatus) : Nat := if r.link = .held ∧ r.conflict = false then 1 else 0

/-- R66: word 8 of a record counted until now as `old` is written, and the UNREACHED and HELD counts are adjusted at the
same write. -/
def writeStatus (i : Nat) (old new : RecordStatus) (s : State) : State :=
  let s₁ := wr s (subscriberWord i 8) (statusWord new)
  { s₁ with
    order := { s₁.order with
      unreached := s₁.order.unreached + countsUnreached new - countsUnreached old
      held := s₁.order.held + countsHeld new - countsHeld old } }

/-! Request slots (12.4). -/

/-- 12.4: the codes of the statuses. -/
def statusRequested : Nat := 1
def statusInProgress : Nat := 2
def statusDone : Nat := 3
def statusFailed : Nat := 4

/-- R30: the error codes, numbered in the order of its table (12.4). -/
inductive RequestError where
  | ok | unknownCode | wrongState | badIndex | notInUse | inUse | duplicateAddress | cycle | tooDeep | hasDependents
  | notLatched | badTimes | noChannel | notPurchasable | alreadyPurchased | listFull | credit | notConnected
  | journalFull | timeInvalid | hasPurchases | busy | superseded
  deriving DecidableEq, Repr

/-- 12.4. -/
def RequestError.code : RequestError → Nat
  | .ok => 0
  | .unknownCode => 1
  | .wrongState => 2
  | .badIndex => 3
  | .notInUse => 4
  | .inUse => 5
  | .duplicateAddress => 6
  | .cycle => 7
  | .tooDeep => 8
  | .hasDependents => 9
  | .notLatched => 10
  | .badTimes => 11
  | .noChannel => 12
  | .notPurchasable => 13
  | .alreadyPurchased => 14
  | .listFull => 15
  | .credit => 16
  | .notConnected => 17
  | .journalFull => 18
  | .timeInvalid => 19
  | .hasPurchases => 20
  | .busy => 21
  | .superseded => 22

/-- 12.4: the code word of request code `c` with a status and an error code. -/
def codeWord (c status : Nat) (e : RequestError) : Word := wordOf (c + 256 * status + 2048 * e.code)

/-- The request code of slot `n` as memory holds it (12.4, bits 7–0). -/
def requestCode (s : State) (n : Nat) : Nat := field (rd s (requestWord n 0)) 0 8

/-- The status of slot `n` as memory holds it (12.4, bits 10–8). -/
def requestStatus (s : State) (n : Nat) : Nat := field (rd s (requestWord n 0)) 8 3

/-- The code word of slot `n` is rewritten with a status and an error code, its request code kept. -/
def writeRequestStatus (n status : Nat) (e : RequestError) (s : State) : State :=
  wr s (requestWord n 0) (codeWord (requestCode s n) status e)

/-- R29: the request of slot `n` ends FAILED; its result word stays as it was, and the slot is in progress no more. -/
def endFailed (n : Nat) (e : RequestError) (s : State) : State :=
  let s₁ := writeRequestStatus n statusFailed e s
  { s₁ with part := { s₁.part with inProgress := s₁.part.inProgress.filter fun p => p.1 != n } }

/-- R29: the request of slot `n` ends DONE with a result. -/
def endDone (n result : Nat) (s : State) : State :=
  let s₁ := wr (writeRequestStatus n statusDone .ok s) (requestWord n 3) (wordOf result)
  { s₁ with part := { s₁.part with inProgress := s₁.part.inProgress.filter fun p => p.1 != n } }

end Sys2Proof.Machine
end

