-- ==== Sys2Proof/Machine/PurchaseList.lean ====
section
/-!
DEFINITION. The purchase list of a subscriber record (R150, 12.8), and what the Event Slot Unit answers of a slot (R143).
-/

namespace Sys2Proof.Machine

/-- R143: the state of a slot, from its armed copy; IDLE while the copy is absent. -/
def slotState (s : State) (k : Nat) : SlotState :=
  match tableGet s.slots.armed k with
  | some a => a.state
  | none => .idle

/-- R143: the current event number of a slot, from its armed copy. -/
def slotEvent (s : State) (k : Nat) : Nat :=
  match tableGet s.slots.armed k with
  | some a => a.event
  | none => 0

/-- 12.5: the codes of the slot states. -/
def SlotState.code : SlotState → Nat
  | .idle => 0
  | .open => 1
  | .showing => 2
  | .closed => 3

/-- R183: an encoding of 4 and above is taken as IDLE. -/
def slotStateOf (n : Nat) : SlotState :=
  if n = 1 then .open else if n = 2 then .showing else if n = 3 then .closed else .idle

/-- One entry of a purchase list. -/
structure Purchase where
  valid : Bool
  slot : Nat
  event : Nat
  deriving DecidableEq, Repr

/-- 12.8: purchase entry `j` of record `i`, from words 14 + 2j and 15 + 2j. -/
def purchaseAt (s : State) (i j : Nat) : Purchase :=
  { valid := (subRd s i (14 + 2 * j)).getLsbD 15, slot := field (subRd s i (14 + 2 * j)) 0 3
    event := (subRd s i (15 + 2 * j)).toNat }

/-- 12.8: the first word of a purchase entry. -/
def purchaseWord (valid : Bool) (slot : Nat) : Word := wordOf (slot + (if valid then 32768 else 0))

/-- R150: an entry is live while it is marked valid, its slot is not IDLE and its event number is its slot's. -/
def isLive (s : State) (p : Purchase) : Bool :=
  p.valid && decide (slotState s p.slot ≠ .idle) && decide (p.event = slotEvent s p.slot)

/-- The four places of the list. -/
def purchasePlaces : List Nat := [0, 1, 2, 3]

/-- The list holds a live entry (R55). -/
def hasLiveEntry (s : State) (i : Nat) : Bool := purchasePlaces.any fun j => isLive s (purchaseAt s i j)

/-- The place of a live entry for slot `k`, if the list holds one; it holds at most one (R150). -/
def livePlaceOf (s : State) (i k : Nat) : Option Nat :=
  purchasePlaces.find? fun j => isLive s (purchaseAt s i j) && decide ((purchaseAt s i j).slot = k)

/-- R150: the lowest-numbered entry that is not live. -/
def freePlace (s : State) (i : Nat) : Option Nat := purchasePlaces.find? fun j => !isLive s (purchaseAt s i j)

/-- R47, R84: the list holds an entry marked valid with a slot and an event number. -/
def holdsEvent (s : State) (i k n : Nat) : Bool :=
  purchasePlaces.any fun j =>
    (purchaseAt s i j).valid && decide ((purchaseAt s i j).slot = k) && decide ((purchaseAt s i j).event = n)

/-- The write that clears an entry's valid mark, its slot kept. -/
def unmarkedEntry (s : State) (i j : Nat) : Nat × Word :=
  (subscriberWord i (14 + 2 * j), purchaseWord false (purchaseAt s i j).slot)

/-- The writes that clear the valid mark of each entry of a record that satisfies `p`. -/
def unmarkedEntries (s : State) (i : Nat) (p : Purchase → Bool) : List (Nat × Word) :=
  (purchasePlaces.filter fun j => p (purchaseAt s i j)).map (unmarkedEntry s i)

end Sys2Proof.Machine
end

