-- ==== Sys2Proof/Machine/Frames.lean ====
section
/-!
DEFINITION. The check code (R181), the order of bits and bytes on both links (R91, R182), the judging of upstream frames
(R92) and the layouts of all seven frames (12.10).
-/

namespace Sys2Proof.Machine

/-! Check code (R181). -/

/-- One shift of the check register. -/
def crcShift (r : Word) : Word := if r.msb then (r <<< 1) ^^^ 0x1021 else r <<< 1

/-- R181: one byte taken into the check register, most significant bit first. -/
def crcByte (r : Word) (b : Byte) : Word :=
  crcShift (crcShift (crcShift (crcShift (crcShift (crcShift (crcShift (crcShift
    (r ^^^ wordOfBytes b 0))))))))

/-- R181: the CRC-16 of a sequence of bytes. -/
def crc16 (bytes : List Byte) : Word := bytes.foldl crcByte 0xFFFF

/-- R181: the CRC-16 of memory words, each taken high byte first. -/
def crcOfWords (ws : List Word) : Word := crc16 (ws.flatMap fun w => [wordHi w, wordLo w])

/-- R181, R182: a frame's bytes with its check code behind them, high byte first. -/
def withCrc (bytes : List Byte) : List Byte := bytes ++ [wordHi (crc16 bytes), wordLo (crc16 bytes)]

/-- A byte of a frame. -/
def byteOf (n : Nat) : Byte := BitVec.ofNat 8 n

/-- A two-byte field, high byte first (12.10). -/
def bytes2 (n : Nat) : List Byte := [byteOf (n / 256), byteOf n]

/-! Downstream frames (12.10). -/

/-- The twelve bytes of an entitlement vector: position c is bit c mod 8 of byte c / 8. -/
def vectorBytes (v : BitVec 96) : List Byte := (List.range 12).map fun k => v.extractLsb' (8 * k) 8

/-- The AUTH frame; sequence 0 is unacked, and the command codes are 0 OFF, 1 FULL, 2 BARKER. -/
def authFrame (tap port sequence command : Nat) (vector : BitVec 96) : List Byte :=
  withCrc ([0x11] ++ bytes2 tap ++ [byteOf port, byteOf sequence, byteOf command] ++ vectorBytes vector)

/-- One position of a MAP frame: channel number, frequency code, and the flags byte (bit 7 enabled, bits 1–0 kind). -/
def mapEntryBytes (channel freq kind : Nat) (enabled : Bool) : List Byte :=
  bytes2 channel ++ bytes2 freq ++ [byteOf ((if enabled then 128 else 0) + kind)]

/-- The MAP frame of the twelve positions from `first`. -/
def mapFrame (first : Nat) (entries : List Byte) : List Byte :=
  withCrc ([0x12, byteOf first, 12] ++ entries)

/-- The POLL frame. -/
def pollFrame (address sequence : Nat) : List Byte := withCrc ([0x13] ++ bytes2 address ++ [byteOf sequence])

/-- The REPLY frame. -/
def replyFrame (tap : Nat) (port token result : Byte) : List Byte :=
  withCrc ([0x14] ++ bytes2 tap ++ [port, token, result])

/-- R182: the bits of a frame on DTXD, in the order they are sent: each byte least significant bit first. -/
def downstreamBits (frame : List Byte) : List Bool :=
  frame.flatMap fun b => (List.range 8).map fun k => b.getLsbD k

/-- R70: the link is busy for eight bit times for each byte. -/
def frameBits (frame : List Byte) : Nat := 8 * frame.length

/-! The return link's receiver (R91). A sample of URXD is `true` at mark and `false` at space, one at each bit time. -/

/-- R91, R95: the bit times at mark after which the line has rested (log entry 30). -/
def restBits : Nat := 20

/-- Where the receiver stands inside a frame. -/
inductive LinePhase where
  /-- After a reset, the line at mark for `n` bit times: no frame is collected before the line has rested (R95). -/
  | unrested (n : Nat)
  /-- At rest, before a frame's first start bit. -/
  | rest
  /-- `n` data bits of the byte under way have been taken, with value `v`. -/
  | bits (n v : Nat)
  /-- All eight data bits have been taken; the stop bit comes next. -/
  | stop (v : Nat)
  /-- A stop bit was at space, and the line has not yet returned to mark. -/
  | held
  /-- The line has been at mark for `n` bit times since the last byte. -/
  | gap (n : Nat)
  deriving DecidableEq, Repr

/-- The receiver's collection of one frame. -/
structure LineState where
  phase : LinePhase
  frame : UpFrame
  deriving DecidableEq, Repr

/-- A receiver at rest. -/
def lineAtRest : LineState := { phase := .rest, frame := { idle := restBits, bytes := [], framingError := false, overrun := false } }

/-- R95: a receiver that a reset has just ended for; a frame under way on the line is not collected. -/
def lineAfterReset : LineState := { lineAtRest with phase := .unrested 0 }

/-- R91: a byte joins the frame; a 17th byte and any after it is discarded and makes the frame bad. -/
def collectByte (f : UpFrame) (v : Nat) : UpFrame :=
  if f.bytes.length < 16 then { f with bytes := f.bytes ++ [byteOf v] } else { f with overrun := true }

/-- R91: one sample of the line; the frame that ended with this sample, if one did. A data bit of 1 is mark (log entry
32). -/
def lineSample (r : LineState) (mark : Bool) : LineState × Option UpFrame :=
  match r.phase with
  | .unrested n =>
    (if mark then (if n + 1 = restBits then lineAtRest else { r with phase := .unrested (n + 1) })
     else { r with phase := .unrested 0 }, none)
  | .rest => (if mark then r else { r with phase := .bits 0 0 }, none)
  | .bits n v =>
    let v' := v + (if mark then 2 ^ n else 0)
    (if n = 7 then { r with phase := .stop v' } else { r with phase := .bits (n + 1) v' }, none)
  | .stop v =>
    if mark then ({ phase := .gap 0, frame := collectByte r.frame v }, none)
    else ({ phase := .held, frame := { collectByte r.frame v with framingError := true } }, none)
  | .held => (if mark then { r with phase := .gap 1 } else r, none)
  | .gap n =>
    if mark then
      (if n + 1 = restBits then (lineAtRest, some r.frame) else ({ r with phase := .gap (n + 1) }, none))
    else ({ r with phase := .bits 0 0 }, none)

/-- R91: the frames that a stretch of the line forms, in their order of arrival. -/
def collectLine : LineState → List Bool → List UpFrame
  | _, [] => []
  | r, b :: t =>
    match lineSample r b with
    | (r', some f) => f :: collectLine r' t
    | (r', none) => collectLine r' t

/-- R182: a byte on the return line: a start bit at space, the data least significant bit first, a stop bit at mark. A data
bit of 1 is mark (log entry 32). -/
def upstreamBits (bytes : List Byte) : List Bool :=
  bytes.flatMap fun b => false :: ((List.range 8).map fun k => b.getLsbD k) ++ [true]

/-! Judging an upstream frame (R92). -/

/-- What the receiver finds a frame to be. A good frame comes with its fields (12.10, R182). -/
inductive Judged where
  | bad
  | ack (tap port sequence result : Nat)
  | status (address sequence status : Nat)
  | buy (tap port slot token : Nat)
  deriving DecidableEq, Repr

/-- The number in byte `k` of a frame. -/
def frameByte (bytes : List Byte) (k : Nat) : Nat := (bytes.getD k 0).toNat

/-- R182: a two-byte field, its first byte times 256 plus its second. -/
def frameField2 (bytes : List Byte) (k : Nat) : Nat := frameByte bytes k * 256 + frameByte bytes (k + 1)

/-- R92 test 4: the CRC over every byte but the last two equals the last two. -/
def crcMatches (bytes : List Byte) : Bool :=
  let n := bytes.length - 2
  decide ((crc16 (bytes.take n)).toNat = frameField2 bytes n)

/-- R92: the four tests, in their order. -/
def judgeFrame (f : UpFrame) : Judged :=
  let b := f.bytes
  if f.framingError || f.overrun || decide (16 < b.length) then .bad
  else if frameByte b 0 = 0x21 then
    (if b.length = 8 ∧ crcMatches b = true then
      .ack (frameField2 b 1) (frameByte b 3) (frameByte b 4) (frameByte b 5) else .bad)
  else if frameByte b 0 = 0x22 then
    (if b.length = 7 ∧ crcMatches b = true then
      .status (frameField2 b 1) (frameByte b 3) (frameByte b 4) else .bad)
  else if frameByte b 0 = 0x23 then
    (if b.length = 8 ∧ crcMatches b = true then
      .buy (frameField2 b 1) (frameByte b 3) (frameByte b 4) (frameByte b 5) else .bad)
  else .bad

/-- The ACK frame a tap sends (12.10), on a line that had rested. -/
def ackFrame (tap port sequence result : Nat) : UpFrame :=
  { idle := restBits, bytes := withCrc ([0x21] ++ bytes2 tap ++ [byteOf port, byteOf sequence, byteOf result])
    framingError := false, overrun := false }

/-- The STATUS frame a transponder sends (12.10). -/
def statusFrame (address sequence status : Nat) : UpFrame :=
  { idle := restBits, bytes := withCrc ([0x22] ++ bytes2 address ++ [byteOf sequence, byteOf status])
    framingError := false, overrun := false }

/-- The BUY frame a converter sends (12.10). -/
def buyFrame (tap port slot token : Nat) : UpFrame :=
  { idle := restBits, bytes := withCrc ([0x23] ++ bytes2 tap ++ [byteOf port, byteOf slot, byteOf token])
    framingError := false, overrun := false }

end Sys2Proof.Machine
end

