-- ==== Sys2Proof/Machine/Flags.lean ====
section
/-!
DEFINITION. The sixteen cluster flags of the Alert Unit (R177 to R180): their bits, their conditions, their latching, and
the ALERT output.
-/

namespace Sys2Proof.Machine

/-- 12.2: the cluster flags. -/
inductive Flag where
  | outage | latched | standby | slow | unreached | held | plan | lineup
  | access | time | meterLag | logFull | journalFull | noise | sweepDrop | closeLate
  deriving DecidableEq, Repr

/-- 12.2: the bit of each flag, in the cluster flag word and in the plan's ALERT mask. -/
def Flag.bit : Flag → Nat
  | .outage => 0
  | .latched => 1
  | .standby => 2
  | .slow => 3
  | .unreached => 4
  | .held => 5
  | .plan => 6
  | .lineup => 7
  | .access => 8
  | .time => 9
  | .meterLag => 10
  | .logFull => 11
  | .journalFull => 12
  | .noise => 13
  | .sweepDrop => 14
  | .closeLate => 15

/-- The word with the one bit of a flag. -/
def Flag.mask (f : Flag) : Word := wordOf (2 ^ f.bit)

/-- 11.1: the sizes of the rings. -/
def ringSize : RingName → Nat
  | .log => 512
  | .journal => 1024

/-- R171: a ring is full when its head plus one, modulo its size, equals its tail. -/
def ringFull (n : RingName) (r : RingCopy) : Bool := decide ((r.head + 1) % ringSize n = r.tail)

/-- R171: the number of records a ring holds. -/
def ringHeld (n : RingName) (r : RingCopy) : Nat := (r.head + ringSize n - r.tail) % ringSize n

/-- The internal copies of a ring. -/
def ringCopy (s : State) : RingName → Option RingCopy
  | .log => s.writer.log
  | .journal => s.writer.journal

/-- The ring's copies are loaded and the ring is full. -/
def ringStandsFull (s : State) (n : RingName) : Bool :=
  match ringCopy s n with
  | some r => ringFull n r
  | none => false

/-- R21: the PLAN condition. -/
def planCondition (s : State) : Bool := s.plan.copy.isNone || decide (s.plan.last ≠ some .ok)

/-- R35: the LINEUP condition. -/
def lineupCondition (s : State) : Bool :=
  s.lineup.edited || decide (s.lineup.last ≠ some .ok) || s.lineup.image.isNone

/-- R177: whether the condition of a flag holds. An event flag has no condition that lasts. -/
def condition (s : State) : Flag → Bool
  | .outage => decide (0 < s.plant.outCount)
  | .latched => decide (0 < s.plant.latchedCount)
  | .standby => decide (0 < s.plant.standbyCount)
  | .slow => decide (0 < s.plant.slowCount)
  | .unreached => decide (0 < s.order.unreached)
  | .held => decide (0 < s.order.held)
  | .plan => planCondition s
  | .lineup => lineupCondition s
  | .access => false
  | .time => !s.clock.valid
  | .meterLag => false
  | .logFull => ringStandsFull s .log
  | .journalFull => ringStandsFull s .journal
  | .noise => s.receiver.noisy
  | .sweepDrop => false
  | .closeLate => false

/-- All sixteen flags. -/
def allFlags : List Flag :=
  [.outage, .latched, .standby, .slow, .unreached, .held, .plan, .lineup,
   .access, .time, .meterLag, .logFull, .journalFull, .noise, .sweepDrop, .closeLate]

/-- The flags whose conditions hold, as a word. -/
def conditions (s : State) : Word :=
  allFlags.foldl (fun w f => if condition s f then w ||| f.mask else w) 0

/-- The flags of a word are latched. -/
def latch (w : Word) (s : State) : State := { s with flags := s.flags ||| w }

/-- An event flag is reported (R177); it is latched in STARTING too (R179). -/
def report (f : Flag) (s : State) : State := latch f.mask s

/-- A block reports that a condition flag's condition holds (R173, R174). R179: no such report is taken in STARTING. -/
def reportCondition (f : Flag) (s : State) : State :=
  if s.part.state = .starting then s else latch f.mask s

/-- R177: after a step, every flag whose condition went from not holding to holding is latched. R179: while the part is
STARTING the Alert Unit takes no report of a condition. -/
def latchArisen (before after : State) : State :=
  if after.part.state = .starting then after
  else latch (conditions after &&& ~~~(conditions before)) after

/-- R178: the flags that a read of the cluster flag word leaves latched: those in lanes it did not strobe, and those
whose condition still holds. -/
def flagsAfterRead (s : State) (l : Lanes) : Word := s.flags &&& (~~~(laneMask l) ||| conditions s)

/-- R180, R23: the mask ALERT is driven through. -/
def alertMask (s : State) : Word :=
  match s.plan.copy with
  | some p => p.alertMask
  | none => 0xFFFF

/-- R180: ALERT is asserted exactly when the latched flags and the mask have a flag in common. -/
def alertAsserted (s : State) : Bool := decide (s.flags &&& alertMask s ≠ 0)

end Sys2Proof.Machine
end

