-- ==== Sys2Proof/Machine/Time.lean ====
section
/-!
DEFINITION. The calendar of the Clock (R130), stamps (R132), the clock words and the snapshot (R134, R137), and the
release of the SET hold (R135).
-/

namespace Sys2Proof.Machine

/-- R130: a year is a leap year when its two-digit value is divisible by 4. -/
def isLeap (year : Nat) : Bool := decide (year % 4 = 0)

/-- R130: the length of a month. -/
def monthLength (month year : Nat) : Nat :=
  match month with
  | 2 => if isLeap year then 29 else 28
  | 4 | 6 | 9 | 11 => 30
  | _ => 31

/-- R130: the second after `c`; fields roll over with their carries. -/
def nextSecond (c : Calendar) : Calendar :=
  if c.seconds < 59 then { c with seconds := c.seconds + 1 }
  else if c.minutes < 59 then { c with seconds := 0, minutes := c.minutes + 1 }
  else if c.hours < 23 then { c with seconds := 0, minutes := 0, hours := c.hours + 1 }
  else if c.day < monthLength c.month c.year then
    { c with seconds := 0, minutes := 0, hours := 0, day := c.day + 1 }
  else if c.month < 12 then { c with seconds := 0, minutes := 0, hours := 0, day := 1, month := c.month + 1 }
  else
    { seconds := 0, minutes := 0, hours := 0, day := 1, month := 1
      year := if c.year < 99 then c.year + 1 else 0 }

/-- R132: the days of the whole years before a year: 365 each, and one more for each leap year 0, 4, 8, … -/
def daysBeforeYear (year : Nat) : Nat := 365 * year + (year + 3) / 4

/-- R132: the days of the whole months before a month. -/
def daysBeforeMonth (month year : Nat) : Nat :=
  ((List.range (month - 1)).map fun k => monthLength (k + 1) year).sum

/-- R132: the stamp of a time: the whole minutes from 2000-01-01 00:00. -/
def stampOf (c : Calendar) : Nat :=
  (daysBeforeYear c.year + daysBeforeMonth c.month c.year + (c.day - 1)) * 1440 + 60 * c.hours + c.minutes

/-- R132: the stamp the Clock gives a record: that of the fields, or of the hold time while SET is held. -/
def currentStamp (s : State) : Nat := stampOf (if s.clock.set then s.clock.holdTime else s.clock.now)

/-- The number of all ones that no time's stamp is (R132). -/
def unknownStamp : Nat := 0xFFFFFFFF

/-- R135 step 1: `v` brought into the range from `lo` to `hi`. -/
def clampNat (lo hi v : Nat) : Nat := max lo (min hi v)

/-- R135 step 1: the clamping of the fields at a release, year and month before day. -/
def clampCalendar (c : Calendar) : Calendar :=
  let y := clampNat 0 99 c.year
  let m := clampNat 1 12 c.month
  { seconds := clampNat 0 59 c.seconds, minutes := clampNat 0 59 c.minutes, hours := clampNat 0 23 c.hours
    day := clampNat 1 (monthLength m y) c.day, month := m, year := y }

/-- A field of a calendar. -/
def calendarField (c : Calendar) : ClockField → Nat
  | .seconds => c.seconds
  | .minutes => c.minutes
  | .hours => c.hours
  | .day => c.day
  | .month => c.month
  | .year => c.year

/-- A calendar with one field stored. -/
def setCalendarField (c : Calendar) (f : ClockField) (v : Nat) : Calendar :=
  match f with
  | .seconds => { c with seconds := v }
  | .minutes => { c with minutes := v }
  | .hours => { c with hours := v }
  | .day => { c with day := v }
  | .month => { c with month := v }
  | .year => { c with year := v }

/-- R137: what a clock word shows: the seconds live, the others from the snapshot if one is held. -/
def clockWordValue (s : State) (f : ClockField) : Word :=
  wordOf (match f, s.clock.snapshot with
    | .seconds, _ => s.clock.now.seconds
    | g, some c => calendarField c g
    | g, none => calendarField s.clock.now g)

/-- 12.2: the clock control word: bit 0 SET, bit 1 VALID. -/
def clockControlWord (s : State) : Word :=
  wordOf ((if s.clock.set then 1 else 0) + (if s.clock.valid then 2 else 0))

/-- R134: a clock word stored while SET is held: the field takes the lower lane of the merged word, and a snapshot held
at that moment is released. -/
def storeClockWord (f : ClockField) (l : Lanes) (d : Word) (s : State) : State :=
  let held := wordOf (calendarField s.clock.now f)
  { s with clock := { s.clock with
      now := setCalendarField s.clock.now f (wordLo (mergeLanes l held d)).toNat
      snapshot := none } }

/-- R133: SET goes from clear to set: the divider is reset and the fields are captured as the hold time. -/
def beginHold (s : State) : State :=
  { s with clock := { s.clock with set := true, divider := 0, holdTime := s.clock.now } }

/-- R135 steps 1 to 3: the fields are clamped, VALID is set and counting restarts. -/
def releaseHold (s : State) : State :=
  { s with clock := { s.clock with set := false, valid := true, divider := 0, now := clampCalendar s.clock.now } }

/-- R136: the Clock at a power-up. A clear latch means the backup was lost; in both cases the latch is then set. The
snapshot is emptied at every reset (R130), and ticks not handed over are not made up afterwards (R131). -/
def clockAtPowerUp (c : Clock) : Clock :=
  if c.backupIntact then { c with snapshot := none, ticks := [] }
  else
    { now := calendarOrigin, divider := 0, set := false, holdTime := calendarOrigin, valid := false
      backupIntact := true, snapshot := none, ticks := [] }

end Sys2Proof.Machine
end

