-- ==== Sys2Proof/Machine/Rings.lean ====
section
/-!
DEFINITION. The Log and Journal Writer (chapter 11): validation of the ring control, appends to the log, positions of the
journal, and the releasing of records.
-/

namespace Sys2Proof.Machine

/-- 12.9: the kinds of log record. -/
inductive LogKind where
  | start | planCommit | lineupCommit | topology | outage | restore | latch | unlatch | unreached | portFault
  | retireFailed | conflict | clockSet | closeBegin | closeEnd | closeLate | sweepDrop | meterLag
  deriving DecidableEq, Repr

/-- 12.9. -/
def LogKind.code : LogKind → Nat
  | .start => 1
  | .planCommit => 2
  | .lineupCommit => 3
  | .topology => 4
  | .outage => 5
  | .restore => 6
  | .latch => 7
  | .unlatch => 8
  | .unreached => 9
  | .portFault => 10
  | .retireFailed => 11
  | .conflict => 12
  | .clockSet => 13
  | .closeBegin => 14
  | .closeEnd => 15
  | .closeLate => 16
  | .sweepDrop => 17
  | .meterLag => 18

/-- 12.9: the kinds of journal record. -/
inductive JournalKind where
  | purchase | refund | statement
  deriving DecidableEq, Repr

/-- 12.9. -/
def JournalKind.code : JournalKind → Nat
  | .purchase => 1
  | .refund => 2
  | .statement => 3

/-- The control words of a ring (12.5): head, tail, next sequence. -/
def ringControl : RingName → Nat × Nat × Nat
  | .log => (logHeadWord, logTailWord, logSequenceWord)
  | .journal => (journalHeadWord, journalTailWord, journalSequenceWord)

/-- The internal copies of a ring are replaced. -/
def setRingCopy (n : RingName) (r : RingCopy) (s : State) : State :=
  match n with
  | .log => { s with writer := { s.writer with log := some r } }
  | .journal => { s with writer := { s.writer with journal := some r } }

/-- R172: what START will say of a ring: emptied, or its tail set. -/
def noteRing (n : RingName) (emptied tailSet : Bool) (s : State) : State :=
  match n with
  | .log => { s with writer := { s.writer with logEmptied := emptied, logTailSet := tailSet } }
  | .journal => { s with writer := { s.writer with journalEmptied := emptied, journalTailSet := tailSet } }

/-- R172: one ring's head, tail and next sequence are read and corrected, the corrections written, and the copies loaded. -/
def validateRing (n : RingName) (s : State) : State :=
  let (hA, tA, qA) := ringControl n
  let h := (rd s hA).toNat
  let t := (rd s tA).toNat
  let q := (rd s qA).toNat
  if ringSize n ≤ h then
    let q' := if q = 0 then 1 else q
    let s₁ := wr (wr s hA 0) tA 0
    let s₂ := if q = 0 then wr s₁ qA 1 else s₁
    setRingCopy n { head := 0, tail := 0, sequence := q' } (noteRing n true false s₂)
  else if q = 0 then
    setRingCopy n { head := 0, tail := 0, sequence := 1 } (noteRing n true false (wr (wr (wr s hA 0) tA 0) qA 1))
  else if ringSize n ≤ t then
    setRingCopy n { head := h, tail := h, sequence := q } (noteRing n false true (wr s tA (wordOf h)))
  else setRingCopy n { head := h, tail := t, sequence := q } (noteRing n false false s)

/-- R172: the ring control is read and validated once after each reset, before the first append. -/
def validateRings (s : State) : State :=
  match s.writer.log, s.writer.journal with
  | some _, some _ => s
  | _, _ => validateRing .journal (validateRing .log (partRead s))

/-- R171: the next sequence runs from 1 to 65535 and wraps to 1. -/
def nextSequence (q : Nat) : Nat := if 65535 ≤ q then 1 else q + 1

/-- R176, 12.9: the first word of a record: its kind, and the time-valid flag in bit 15. -/
def recordHead (s : State) (kind : Nat) : Word := wordOf (kind + (if s.clock.valid then 32768 else 0))

/-- The words of a record written to consecutive addresses. R173 step 1 gives an append one single write per word, the words of
a pair too. -/
def writeRecord (s : State) (a : Nat) : List Word → State
  | [] => s
  | w :: t => writeRecord (wr s a w) (a + 1) t

/-- The words every record begins with (12.9): kind and flag, sequence, and the stamp of the moment as a pair. -/
def recordPrefix (s : State) (kind sequence : Nat) : List Word :=
  [recordHead s kind, wordOf sequence, pairLowWord (currentStamp s), pairHighWord (currentStamp s)]

/-- R173: a ring's head advances by one, then its next sequence; each is written to the control area. -/
def advanceRing (n : RingName) (r : RingCopy) (s : State) : State :=
  let (hA, _, qA) := ringControl n
  let r' : RingCopy := { head := (r.head + 1) % ringSize n, tail := r.tail, sequence := nextSequence r.sequence }
  setRingCopy n r' (wr (wr s hA (wordOf r'.head)) qA (wordOf r'.sequence))

/-- R173: an append to the log. A full log loses the record: only the next sequence advances, and LOG_FULL is reported. -/
def logAppend (k : LogKind) (subject d₁ d₂ d₃ : Nat) (s₀ : State) : State :=
  let s := validateRings s₀
  match s.writer.log with
  | none => s
  | some r =>
    if ringFull .log r then
      let q := nextSequence r.sequence
      reportCondition .logFull (setRingCopy .log { r with sequence := q } (wr s logSequenceWord (wordOf q)))
    else
      let words := recordPrefix s k.code r.sequence ++ [wordOf subject, wordOf d₁, wordOf d₂, wordOf d₃]
      advanceRing .log r (writeRecord s (logWord r.head 0) words)

/-- R174: a block asks for a journal position. The Writer gives the head when the journal is not full; otherwise it
refuses, and JOURNAL_FULL is latched. -/
def takeJournal (s₀ : State) : State × Bool :=
  let s := validateRings s₀
  match s.writer.journal with
  | none => (s, false)
  | some r =>
    if ringFull .journal r then (reportCondition .journalFull s, false)
    else ({ s with writer := { s.writer with taken := true } }, true)

/-- R174: the taker gives its position back unused. -/
def returnJournal (s : State) : State := { s with writer := { s.writer with taken := false } }

/-- R173, R174: the record of the taker is appended at the position it took, and the position is released. -/
def journalAppend (k : JournalKind) (words : List Nat) (s : State) : State :=
  match s.writer.journal with
  | none => s
  | some r =>
    let body := recordPrefix s k.code r.sequence ++ words.map wordOf
    returnJournal (advanceRing .journal r (writeRecord s (journalWord r.head 0) body))

/-- The sequence the next journal record carries. -/
def journalSequence (s : State) : Nat :=
  match s.writer.journal with
  | some r => r.sequence
  | none => 0

/-- R175: the value stored for a tail write of merged value `v`: `v` within the window from the tail forward to the
head, both ends included, and the head otherwise. -/
def tailStored (n : RingName) (r : RingCopy) (v : Nat) : Nat :=
  let size := ringSize n
  if v < size ∧ (v + size - r.tail) % size ≤ (r.head + size - r.tail) % size then v else r.head

/-- R175: a tail write has landed with the value `v`; the tail copy takes it. -/
def setTail (n : RingName) (v : Nat) (s : State) : State :=
  match ringCopy s n with
  | some r => setRingCopy n { r with tail := v } s
  | none => s

end Sys2Proof.Machine
end

