-- ==== Sys2Proof/Machine/PlanCopy.lean ====
section
/-!
DEFINITION. The plan's working copy: loading and clamping (R19, 12.3), and the times its fields stand for.
-/

namespace Sys2Proof.Machine

/-- Word `k` of the plan block as the check read it. -/
def planWordAt (ws : List Word) (k : Nat) : Nat := (ws.getD k 0).toNat

/-- 12.3: a close field: 0xFFFF is ANY, any other value is brought into range. -/
def closeField (lo hi w : Nat) : Option Nat := if w = 0xFFFF then none else some (clampNat lo hi w)

/-- R19, 12.3: the working copy loaded from the 63 words of the plan block. -/
def loadPlan (ws : List Word) : Plan :=
  { pollInterval := clampNat 0 7 (planWordAt ws 1)
    pollTimeout := clampNat 1 255 (planWordAt ws 2)
    latencyRange := clampNat 0 3 (planWordAt ws 3)
    slowThreshold := clampNat 1 255 (planWordAt ws 4)
    slowDisabled := (ws.getD 5 0).getLsbD 0
    standbyDisabled := (ws.getD 5 0).getLsbD 1
    ackTimeout := clampNat 1 255 (planWordAt ws 6)
    retryWait := clampNat 0 255 (planWordAt ws 7)
    maxAttempts := clampNat 1 7 (planWordAt ws 8)
    grace := clampNat 0 1440 (planWordAt ws 9)
    rates := (List.range 16).map fun t => planWordAt ws (10 + t)
    closeDay := closeField 1 28 (planWordAt ws 26)
    closeHour := closeField 0 23 (planWordAt ws 27)
    closeMinute := closeField 0 59 (planWordAt ws 28)
    alertMask := ws.getD 29 0
    noiseLimit := clampNat 1 127 (planWordAt ws 30)
    noiseHold := clampNat 0 127 (planWordAt ws 31) }

/-- The plan whose every word is 0, brought into range. It stands in where a rule asks for a plan value while no working
copy is valid, which R23 says does not arise. -/
def lowestPlan : Plan := loadPlan []

/-- The working copy every block takes its plan values from (R19). -/
def planOf (s : State) : Plan := s.plan.copy.getD lowestPlan

/-- Bit times of the downstream link in a millisecond (R70: 64 kbit/s). -/
def bitsPerMs : Nat := 64

/-- R19: the poll interval of a code, in bit times. -/
def pollIntervalBits (code : Nat) : Nat :=
  bitsPerMs * ([50, 100, 200, 500, 1000, 2000, 5000, 10000].getD code 50)

/-- R19: a poll or ack timeout in units of 10 ms, in bit times. -/
def timeoutBits (n : Nat) : Nat := bitsPerMs * (10 * n)

/-- R19: a retry wait in units of 100 ms, in bit times. -/
def retryWaitBits (n : Nat) : Nat := bitsPerMs * (100 * n)

/-- R19, R118: the latency unit of a range code, in bit times: 1, 2, 4 or 8 ms. -/
def latencyUnitBits (code : Nat) : Nat := bitsPerMs * 2 ^ code

/-- R20: the words of the plan block from word `k` on, as memory holds them now. -/
def planWordsFrom (s : State) (k : Nat) : List Word :=
  ((List.range 63).drop k).map fun j => rd s (0x40 + j)

/-- R20: the reads of a running check that have been made when a host write to a plan word lands. Their number is a free
value (log entry 7). -/
def advancePlanCheck (s : State) : State :=
  match s.plan.check with
  | none => s
  | some c =>
    let more := (planWordsFrom s c.words.length).take (Config.planReadAdvance s.freeCount)
    { s with
      plan := { s.plan with check := some { c with words := c.words ++ more } }
      freeCount := s.freeCount + 1 }

/-- R20: a plan check starts with an expected value; a check already running is abandoned. -/
def startPlanCheck (expected : Word) (s : State) : State :=
  { s with plan := { s.plan with check := some { expected := expected, words := [] } } }

/-- 12.9: the codes of PLAN_COMMIT detail 1. -/
def PlanResult.code : PlanResult → Nat
  | .ok => 0
  | .crc => 1
  | .format => 2

/-- R20, R21: the outcome of a check over the 63 words read. -/
def planOutcome (expected : Word) (ws : List Word) : PlanResult :=
  if crcOfWords ws ≠ expected then .crc else if planWordAt ws 0 ≠ 1 then .format else .ok

/-- R21: the Plan Checker and the Plant Monitor after a good check: the fields are loaded, and a warning that the
replaced copy did not disable and the new one does is to be cleared (R118). The clearing is owed until its own
WARNING_DISABLE_CLEAR, a later change of the plan or not (DESIGN CHOICE, log entry 34). -/
def loadWorkingCopy (ws : List Word) (s : State) : State :=
  let new := loadPlan ws
  let turnsOn (disabled : Plan → Bool) : Bool :=
    match s.plan.copy with
    | some old => disabled new && !disabled old
    | none => false
  { s with
    plan := { s.plan with copy := some new }
    plant := { s.plant with
      clearSlow := s.plant.clearSlow || turnsOn Plan.slowDisabled
      clearStandby := s.plant.clearStandby || turnsOn Plan.standbyDisabled } }

end Sys2Proof.Machine
end

