-- ==== Sys2Proof/Machine/Tree.lean ====
section
/-!
DEFINITION. The feed tree (R109, R110): who is in use, depth, darkness, shadow, subtrees and affected counts, answered from
the Plant Monitor's tree copy as it stands.
-/

namespace Sys2Proof.Machine

/-- The tree copy (R111). -/
abbrev Tree := List (Nat × Element)

/-- R109: every block treats the head end as in use. -/
def elementInUse (t : Tree) (i : Nat) : Bool := decide (i = 0) || (tableGet t i).isSome

/-- R109: OUT and LATCHED_OUT elements are dark by themselves. -/
def darkState (st : ElementState) : Bool := decide (st = .out) || decide (st = .latchedOut)

/-- R110: the elements from `i` up its chain of parents, `i` first, the head end not listed. No chain of the tree is
longer than 8 (R110); the walk gives up after `fuel` elements. -/
def chain (t : Tree) : Nat → Nat → List Nat
  | 0, _ => []
  | fuel + 1, i =>
    match tableGet t i with
    | none => []
    | some e => i :: chain t fuel e.parent

/-- More elements than a table of 256 can hold in one chain. -/
def chainFuel : Nat := 256

/-- R110: the depth of an element: 1 under the head end, 0 for the head end itself. -/
def depthOf (t : Tree) (i : Nat) : Nat := (chain t chainFuel i).length

/-- The element is dark by its own state. -/
def selfDark (t : Tree) (i : Nat) : Bool :=
  match tableGet t i with
  | some e => darkState e.state
  | none => false

/-- R110: an element, or a feed, is dark when it or one of its ancestors is OUT or LATCHED_OUT. Feed 0 and a feed that
names an index not in use are lit. -/
def isDark (t : Tree) (i : Nat) : Bool := (chain t chainFuel i).any (selfDark t)

/-- R110: an element is shadowed when one of its ancestors is dark. -/
def isShadowed (t : Tree) (i : Nat) : Bool := ((chain t chainFuel i).drop 1).any (selfDark t)

/-- R110: feed `f` lies within the subtree of element `e`: `e` is in use and `f` is `e` or one of its descendants. -/
def inSubtree (t : Tree) (e f : Nat) : Bool :=
  if e = 0 then elementInUse t f else decide (e ∈ chain t chainFuel f)

/-- R119: the affected count: the direct subscriber counts summed over an element's subtree. -/
def affectedCount (t : Tree) (direct : List (Nat × Nat)) (e : Nat) : Nat :=
  ((t.filter fun p => inSubtree t e p.1).map fun p => countOf direct p.1).sum

/-- R124: the number of levels of a subtree, its top counted as one. -/
def levelsOf (t : Tree) (e : Nat) : Nat :=
  ((t.filter fun p => inSubtree t e p.1).map fun p => depthOf t p.1 + 1 - depthOf t e).foldl max 0

/-- R112: an element may be polled: in use, not LATCHED_OUT and not shadowed. -/
def pollEligible (t : Tree) (i : Nat) : Bool :=
  match tableGet t i with
  | some e => decide (e.state ≠ .latchedOut) && !isShadowed t i
  | none => false

/-- R112: an index from 1 to 255 follows another, wrapping from 255 to 1. -/
def nextIndex (i : Nat) : Nat := if 255 ≤ i then 1 else i + 1

/-- R112: the search from the poll pointer upward through 1 to 255, wrapping: the first eligible element. -/
def choosePoll (t : Tree) (pointer : Nat) : Option Nat :=
  ((List.range 255).map fun k => (pointer - 1 + k) % 255 + 1).find? (pollEligible t)

/-- At least one element may be polled. -/
def someEligible (t : Tree) : Bool := t.any fun p => pollEligible t p.1

/-- The tree with the state of an element changed. -/
def treeSetState (t : Tree) (i : Nat) (st : ElementState) : Tree :=
  match tableGet t i with
  | some e => tableSet t i { e with state := st }
  | none => t

/-- The tree with the parent of an element changed. -/
def treeSetParent (t : Tree) (i p : Nat) : Tree :=
  match tableGet t i with
  | some e => tableSet t i { e with parent := p }
  | none => t

/-- 12.7: the codes of the element states; 0 is UNUSED. -/
def ElementState.code : ElementState → Nat
  | .unpolled => 1
  | .inService => 2
  | .out => 3
  | .latchedOut => 4

/-- R108: a stored limit brought into range. -/
def limitOf (w : Nat) : Nat := if w = 0 then 1 else min w 127

/-- R108: a stored hold brought into range. -/
def holdOf (w : Nat) : Nat := min w 127

/-- L of an element at this moment (R108). -/
def elementLimit (s : State) (i : Nat) : Nat := limitOf (rd s (elementWord i 2)).toNat

/-- H of an element at this moment (R108). -/
def elementHold (s : State) (i : Nat) : Nat := holdOf (rd s (elementWord i 3)).toNat

/-- R116: M = 2(L + H). -/
def counterMax (s : State) (i : Nat) : Nat := 2 * (elementLimit s i + elementHold s i)

end Sys2Proof.Machine
end

