-- ==== Sys2Proof/Machine/Schedule.lean ====
section
/-!
DEFINITION. The Transmit Scheduler's queues and tables (chapter 5): submissions, the deferred map, the sweep table, the
refresh cursor's rest, the arbiter's decision, and the quiet condition of R32 that is tested beside it.
-/

namespace Sys2Proof.Machine

/-! Capacities. -/

/-- R78. -/
def queueCapacity : Nat := 64
/-- R74. -/
def replyCapacity : Nat := 8
/-- R81. -/
def sweepCapacity : Nat := 4
/-- R96. -/
def ackCapacity : Nat := 16
/-- R54. -/
def retireCapacity : Nat := 16
/-- 4.1: the number of subscriber records. -/
def subscriberCount : Nat := 4096

/-! Refresh and submissions. -/

/-- R88: refresh leaves its rest, its visit count set to 0. -/
def wakeRefresh (s : State) : State :=
  if s.sched.refresh.resting then
    { s with sched := { s.sched with refresh := { s.sched.refresh with resting := false, visits := 0 } } }
  else s

/-- R65: the subscriber is in the immediate queue or marked in the deferred map. -/
def isWaiting (s : State) (i : Nat) : Bool := decide (i ∈ s.sched.queue) || decide (i ∈ s.sched.deferred)

/-- R65: a subscriber is submitted for immediate service. A submission also ends refresh's rest (R88). -/
def submit (i : Nat) (s₀ : State) : State :=
  let s := wakeRefresh s₀
  if isWaiting s i then s
  else if s.sched.queue.length < queueCapacity then
    { s with sched := { s.sched with queue := s.sched.queue ++ [i] } }
  else { s with sched := { s.sched with deferred := insertNat s.sched.deferred i } }

/-- R80: the order in which refill meets the marks: upward from the pointer, wrapping. -/
def refillOrder (deferred : List Nat) (pointer : Nat) : List Nat :=
  (deferred.filter fun x => decide (pointer ≤ x)) ++ deferred.filter fun x => decide (x < pointer)

/-- R80: refill: marks move to the tail of the queue until it holds 64 or the map is empty, and the pointer then stands
after the last one moved. -/
def refill (s : State) : State :=
  let moved := (refillOrder s.sched.deferred s.sched.refillPointer).take (queueCapacity - s.sched.queue.length)
  match moved.getLast? with
  | none => s
  | some last =>
    { s with sched := { s.sched with
        queue := s.sched.queue ++ moved
        deferred := s.sched.deferred.filter fun x => decide (x ∉ moved)
        refillPointer := (last + 1) % subscriberCount } }

/-- R85: with room in the queue again, no requeue sweep is stopped. -/
def unstopSweeps (s : State) : State :=
  if s.sched.queue.length < queueCapacity then
    { s with sched := { s.sched with sweeps := s.sched.sweeps.map fun w => { w with stopped := false } } }
  else s

/-! The sweep table. -/

/-- R81: LINEUP, EVENT_START and EVENT_END are broadcast sweeps, and these are the optional ones. -/
def SweepKind.optional : SweepKind → Bool
  | .lineup | .eventStart _ _ | .eventEnd _ _ => true
  | .restore _ | .resync => false

/-- R81: a new sweep, or one set back to its beginning. -/
def newSweep (k : SweepKind) : Sweep := { kind := k, cursor := 0, held := none, maps := 0, stopped := false }

/-- 12.9: SWEEP_DROP detail 1. -/
def SweepKind.code : SweepKind → Nat
  | .lineup => 0
  | .eventStart _ _ => 1
  | .eventEnd _ _ => 2
  | .restore _ => 3
  | .resync => 4

/-- R82: SWEEP_DROP details 2 and 3. -/
def SweepKind.arguments : SweepKind → Nat × Nat
  | .eventStart k n => (k, n)
  | .eventEnd k n => (k, n)
  | _ => (0xFFFF, 0)

/-- R82: SWEEP_DROP is flagged and logged for a dropped sweep. -/
def dropSweep (k : SweepKind) (cursor : Nat) (s : State) : State :=
  report .sweepDrop (logAppend .sweepDrop cursor k.code k.arguments.1 k.arguments.2 s)

/-- The list without its first element that satisfies `p`. -/
def eraseFirst {α : Type} (p : α → Bool) : List α → List α
  | [] => []
  | x :: t => if p x then t else x :: eraseFirst p t

/-- R81, R82: a sweep is opened. One of the same kind and argument is set back to its beginning in its place; with room
the new one joins as the newest; a full table drops an optional sweep or folds four mandatory ones into RESYNC. -/
def openSweep (k : SweepKind) (s : State) : State :=
  let t := s.sched.sweeps
  if t.any (fun w => decide (w.kind = k)) then
    { s with sched := { s.sched with sweeps := t.map fun w => if w.kind = k then newSweep k else w } }
  else if t.length < sweepCapacity then { s with sched := { s.sched with sweeps := t ++ [newSweep k] } }
  else if k.optional then dropSweep k 0 s
  else
    match t.find? (fun w => w.kind.optional) with
    | some w =>
      let s₁ := dropSweep w.kind w.cursor s
      { s₁ with sched := { s₁.sched with
          sweeps := eraseFirst (fun v => v.kind.optional) s₁.sched.sweeps ++ [newSweep k] } }
    | none => { s with sched := { s.sched with sweeps := [newSweep .resync] } }

/-- R24: the part enters SERVING: a RESYNC sweep is opened, and refresh leaves its rest (R88). -/
def enterServing (s : State) : State :=
  openSweep .resync (wakeRefresh { s with part := { s.part with state := .serving } })

/-- R84: a broadcast sweep holds a frame: a MAP frame of its batch, or a subscriber. -/
def sweepHolds (w : Sweep) : Bool := (decide (w.kind = .lineup) && decide (w.maps < 8)) || w.held.isSome

/-- R88: refresh holds a frame or owes MAP frames. -/
def refreshHolds (r : Refresh) : Bool := decide (r.maps < 8) || r.held.isSome

/-! The pending-ack table. -/

/-- The entry is the SUBSCRIBER entry of subscriber `i` (R96). -/
def isEntryOf (i : Nat) (e : PendingAck) : Bool := decide (e.kind = .subscriber) && decide (e.subscriber = i)

/-- R103: the SUBSCRIBER entry of a subscriber is dropped, in whatever phase it stands. -/
def supersede (i : Nat) (s : State) : State :=
  { s with tracker := { s.tracker with table := s.tracker.table.filter fun e => !isEntryOf i e } }

/-- An entry holds a drop address. A drop address has at most one entry (R96). -/
def entryAt (tap port : Nat) (e : PendingAck) : Bool := decide (e.tap = tap) && decide (e.port = port)

/-- The entry at a drop address is freed. -/
def freeEntry (tap port : Nat) (s : State) : State :=
  { s with tracker := { s.tracker with table := s.tracker.table.filter fun e => !entryAt tap port e } }

/-- An entry at a drop address is changed. -/
def updateEntry (tap port : Nat) (f : PendingAck → PendingAck) (s : State) : State :=
  { s with tracker := { s.tracker with
      table := s.tracker.table.map fun e => if entryAt tap port e then f e else e } }

/-- R75, R101: the RETRY candidate whose wait ended first; of two at the same moment, the one whose latest frame
completed first. -/
def firstCandidate (t : List PendingAck) : Option PendingAck :=
  match leastBy (fun e => e.deadline) (t.filter fun e => decide (e.phase = .candidate)) with
  | none => none
  | some d =>
    leastBy (fun e => e.completed)
      (t.filter fun e => decide (e.phase = .candidate) && decide (e.deadline = d.deadline))

/-! The arbiter (R71). -/

/-- R112: a poll is due: its time has been reached, no poll is outstanding and some element is eligible. -/
def pollIsDue (s : State) : Bool :=
  decide (s.plant.nextPollDue ≤ s.time) && s.plant.poll.isNone && someEligible s.plant.tree

/-- R71: whether a class is eligible at this moment. -/
def classEligible (s : State) : FrameClass → Bool
  | .reply => !s.sched.replies.isEmpty
  | .retry => s.tracker.table.any fun e => decide (e.phase = .candidate)
  | .poll => pollIsDue s
  | .retire => s.order.retires.any (fun r => !r.sent) && decide (s.tracker.table.length < ackCapacity)
  | .immediate =>
    match s.sched.queue with
    | [] => false
    | i :: _ => decide (s.tracker.table.length < ackCapacity) || s.tracker.table.any (isEntryOf i)
  | .sweep => s.sched.sweeps.any sweepHolds
  | .refresh => refreshHolds s.sched.refresh

/-- R71: the classes in the order they are taken. -/
def classOrder : List FrameClass := [.reply, .retry, .poll, .retire, .immediate, .sweep, .refresh]

/-- R71: the first eligible class. -/
def firstEligible (s : State) : Option FrameClass := classOrder.find? (classEligible s)

/-- R71, R73: the arbiter's decision: while the link is IDLE and the part is SERVING, the first eligible class is granted.
After a power-fail warning or in a reset no grant is made. -/
def arbiterDecide (s : State) : State :=
  if running s = true ∧ s.part.state = .serving ∧ s.sched.link = .idle then
    match firstEligible s with
    | some c => { s with sched := { s.sched with link := .granted c } }
    | none => s
  else s

/-- R32: the quiet condition: no frame in flight, the pending-ack table empty, no poll outstanding. A frame is in flight
from its grant on (R70). -/
def isQuiet (s : State) : Bool :=
  decide (s.sched.link = .idle) && s.tracker.table.isEmpty && s.plant.poll.isNone

/-- The slots with a QUIESCE in progress. -/
def quiesceSlots (s : State) : List Nat :=
  (s.part.inProgress.filter fun p => decide (p.2 = .quiesce)).map fun p => p.1

/-- R32: the quiet condition is tested: when it holds in QUIESCING the part enters QUIESCED, and every QUIESCE in progress
ends DONE with the HELD count of that moment. -/
def quietTest (s : State) : State :=
  if running s = true ∧ s.part.state = .quiescing ∧ isQuiet s = true then
    (quiesceSlots s).foldl (fun t n => endDone n s.order.held t) { s with part := { s.part with state := .quiesced } }
  else s

/-- After an event at which the Request Engine tests its quiet condition and the arbiter decides (R32, R71). -/
def settle (s : State) : State := arbiterDecide (quietTest s)

/-- R72: a grant lapses: no bit is sent, the link returns to IDLE, the quiet condition is tested and the arbiter decides
again at once. -/
def lapse (s : State) : State := settle { s with sched := { s.sched with link := .idle } }

/-- R72, R73: a built frame is sent. While a reset drains the part nothing is sent (R73). -/
def sendFrame (frame : List Byte) (h : HandOff) (s : State) : State :=
  if s.power.resetting then { s with sched := { s.sched with link := .idle } }
  else { s with sched := { s.sched with link := .sending frame h (s.time + frameBits frame) } }

/-- R70: DTXD at this moment: the bit of the frame being sent, and mark while the link is idle. A bit of 1 is mark (log entry
32). -/
def dtxd (s : State) : Bool :=
  match s.sched.link with
  | .sending frame _ ends => (downstreamBits frame).getD (frameBits frame - (ends - s.time)) true
  | _ => true

end Sys2Proof.Machine
end

