-- ==== Sys2Proof/Machine/Subscribers.lean ====
section
/-!
DEFINITION. The Order Monitor (chapter 4): the verdicts and actions of writes to a subscriber record's watched words, the
retire list, the direct counts, and one visit of the subscriber census.
-/

namespace Sys2Proof.Machine

/-- R63: a direct count is changed, and the new value is written to the element's record with one write. -/
def setDirect (e n : Nat) (s : State) : State :=
  let s₁ := { s with order := { s.order with direct := setCount s.order.direct e n } }
  wr s₁ (elementWord e 13) (wordOf n)

/-- R63: the direct count of `e` rises by one. -/
def raiseDirect (e : Nat) (s : State) : State := setDirect e (countOf s.order.direct e + 1) s

/-- R63: the direct count of `e` falls by one. -/
def lowerDirect (e : Nat) (s : State) : State := setDirect e (countOf s.order.direct e - 1) s

/-- The entry of the retire list for a drop address (R57: at most one). -/
def retireEntryAt (s : State) (tap port : Nat) : Option RetireEntry :=
  s.order.retires.find? fun r => decide (r.tap = tap) && decide (r.port = port)

/-- The entry for a drop address leaves the retire list. -/
def removeRetire (tap port : Nat) (s : State) : State :=
  { s with order := { s.order with
      retires := s.order.retires.filter fun r => !(decide (r.tap = tap) && decide (r.port = port)) } }

/-- R57, R104: a retiring drop joins the tail of the retire list, not yet sent, with the record's last sequence sent as
its avoided sequence. -/
def joinRetire (tap port i : Nat) (s : State) : State :=
  { s with order := { s.order with
      retires := s.order.retires ++
        [{ tap := tap, port := port, subscriber := i, avoided := (subRd s i 9).toNat, sent := false
           lastSequence := none }] } }

/-- R58: record `i` has taken an address that waits in the retire list: the entry and its pending entry are removed, and
if it has been sent, the sequence of its latest retire frame is written into word 9 of the record. -/
def cancelRetire (tap port i : Nat) (s : State) : State :=
  match retireEntryAt s tap port with
  | none => s
  | some r =>
    let s₁ := freeEntry tap port (removeRetire tap port s)
    match r.lastSequence with
    | some q => wr s₁ (subscriberWord i 9) (wordOf q)
    | none => s₁

/-- R56: an entry is added to the drop directory. -/
def enterDirectory (tap port i : Nat) (s : State) : State :=
  { s with order := { s.order with directory := tableSet s.order.directory (dropKey tap port) i } }

/-- R56: an entry leaves the drop directory. -/
def leaveDirectory (tap port : Nat) (s : State) : State :=
  { s with order := { s.order with directory := tableErase s.order.directory (dropKey tap port) } }

/-- R54: the action of a hand-off is outstanding while it is carried out. -/
def withOutstanding (i : Nat) (k : ActionKind) (f : State → State) (s : State) : State :=
  let s₁ := f { s with order := { s.order with outstanding := some (i, k) } }
  { s₁ with order := { s₁.order with outstanding := none } }

/-- The drop address a write to word 0 or 1 changes, and word 8 as the verdict reads it (R55). -/
structure DropChange where
  sub : Nat
  oldTap : Nat
  oldPort : Nat
  newTap : Nat
  newPort : Nat
  status : RecordStatus
  deriving DecidableEq, Repr

/-- R55: the kinds of write to word 0 or 1. A conflicted record's write that leaves its tap id nonzero is its claim of
the address the write leaves it with (R62). -/
inductive DropWriteKind where
  | unused | activation | retire | move | rewrite | claim
  deriving DecidableEq, Repr

/-- R55: the old and new drop addresses, formed from the old and merged words. -/
def dropChange (i : Nat) (w : DropWord) (merged : Word) (s : State) : DropChange :=
  { sub := i, oldTap := subTap s i, oldPort := subPort s i
    newTap := match w with | .tap => merged.toNat | .port => subTap s i
    newPort := match w with | .tap => subPort s i | .port => field merged 0 3
    status := subStatus s i }

/-- R55, R62: the kind of a write. -/
def DropChange.kind (c : DropChange) : DropWriteKind :=
  if c.oldTap = 0 then (if c.newTap = 0 then .unused else .activation)
  else if c.newTap = 0 then .retire
  else if c.status.conflict then .claim
  else if c.oldTap = c.newTap ∧ c.oldPort = c.newPort then .rewrite
  else .move

/-- R55: the new address is held in the directory by another record. -/
def isDuplicate (c : DropChange) (s : State) : Bool :=
  match holderOf s c.newTap c.newPort with
  | some j => decide (j ≠ c.sub)
  | none => false

/-- R57: the old address is a retiring drop. -/
def isRetiring (c : DropChange) : Bool :=
  !c.status.conflict && (decide (c.status.confirmed ≠ .off) || decide (c.status.link = .awaiting))

/-- R57: the retire list would hold more than 16 entries after the action, the cancellation of R58 counted. -/
def overfillsRetires (c : DropChange) (s : State) : Bool :=
  let cancelled := if c.newTap ≠ 0 ∧ (retireEntryAt s c.newTap c.newPort).isSome then 1 else 0
  isRetiring c && decide (retireCapacity < s.order.retires.length + 1 - cancelled)

/-- R55: the tests of a write, in their order. -/
def dropVerdict (c : DropChange) (s : State) : Option SquashReason :=
  match c.kind with
  | .unused | .rewrite => none
  | .activation | .claim => if isDuplicate c s then some .duplicateDrop else none
  | .retire =>
    if hasLiveEntry s c.sub then some .livePurchases
    else if overfillsRetires c s then some .retireListFull else none
  | .move =>
    if isDuplicate c s then some .duplicateDrop
    else if overfillsRetires c s then some .retireListFull else none

/-- R59 step 1: words 8 to 24 of a record, all of which are written 0, the last statement total with a pair write (R16). -/
def clearRecord (i : Nat) (s : State) : State :=
  let s₁ := wrAll s ((List.range 14).map fun k => (subscriberWord i (8 + k), 0))
  wr (wrPair s₁ (subscriberWord i 22) 0) (subscriberWord i 24) 0

/-- R59: the action of an activation. -/
def activationAction (c : DropChange) (s : State) : State :=
  let body (s : State) : State :=
    raiseDirect (subFeed s c.sub)
      (cancelRetire c.newTap c.newPort c.sub (enterDirectory c.newTap c.newPort c.sub (clearRecord c.sub s)))
  submit c.sub (withOutstanding c.sub .activation body s)

/-- R60, R61 step 1: the pending entry of a subscriber whose status was AWAITING is dropped as superseded. -/
def dropIfAwaiting (c : DropChange) (s : State) : State :=
  if c.status.link = .awaiting then supersede c.sub s else s

/-- The status a move, a retire and a claim leave: OFF, SETTLED, attempts 0 and no conflict mark. -/
def freshStatus : RecordStatus := { confirmed := .off, link := .settled, attempts := 0, conflict := false }

/-- R60: the action of a move. -/
def moveAction (c : DropChange) (s : State) : State :=
  let body (s : State) : State :=
    let s₂ := enterDirectory c.newTap c.newPort c.sub (leaveDirectory c.oldTap c.oldPort (dropIfAwaiting c s))
    let s₃ := if isRetiring c then joinRetire c.oldTap c.oldPort c.sub s₂ else s₂
    writeStatus c.sub c.status freshStatus (cancelRetire c.newTap c.newPort c.sub s₃)
  submit c.sub (withOutstanding c.sub .move body s)

/-- R61: the action of a retire. -/
def retireAction (c : DropChange) (s : State) : State :=
  let body (s : State) : State :=
    let s₁ := dropIfAwaiting c s
    let s₂ := if c.status.conflict then s₁ else leaveDirectory c.oldTap c.oldPort s₁
    let s₃ := if isRetiring c then joinRetire c.oldTap c.oldPort c.sub s₂ else s₂
    writeStatus c.sub c.status freshStatus (lowerDirect (subFeed s c.sub) s₃)
  withOutstanding c.sub .retire body s

/-- R62: the action of a rewrite of a non-conflicted record. -/
def rewriteAction (c : DropChange) (s : State) : State :=
  submit c.sub (withOutstanding c.sub .rewrite id s)

/-- R62: the action of a conflicted record's claim of a free address. -/
def claimAction (c : DropChange) (s : State) : State :=
  let body (s : State) : State :=
    writeStatus c.sub c.status freshStatus
      (cancelRetire c.newTap c.newPort c.sub (enterDirectory c.newTap c.newPort c.sub s))
  submit c.sub (withOutstanding c.sub .claim body s)

/-- R55: the action that follows a write which has landed. An action may make a class eligible (R71). -/
def dropAction (c : DropChange) (s : State) : State :=
  match c.kind with
  | .unused => s
  | .activation => settle (activationAction c s)
  | .retire => settle (retireAction c s)
  | .move => settle (moveAction c s)
  | .rewrite => settle (rewriteAction c s)
  | .claim => settle (claimAction c s)

/-- R7, R8, R55: an observed write to word 0 or 1 of a record: verdict on the merged word, then either the squash, or the
write and its action. -/
def writeDropWord (i : Nat) (w : DropWord) (a : Addr) (merged : Word) (s : State) : State :=
  let c := dropChange i w merged s
  match dropVerdict c s with
  | some r => squash a r (grantPort .host s)
  | none => dropAction c (hostStore s a.toNat bothLanes merged)

/-- R63: the action of a write to word 2 that has landed, from the old and the merged word. Whether the record is in use is
read in an access of the Order Monitor's own (R8). -/
def feedAction (i : Nat) (old merged : Word) (s : State) : State :=
  if inUse s i = true ∧ field old 0 8 ≠ field merged 0 8 then
    withOutstanding i .feedChange (fun s => raiseDirect (field merged 0 8) (lowerDirect (field old 0 8) s)) s
  else partRead s

/-- R64: the action of a write to the tier set or order word that has landed. Whether the record is in use and not
conflicted is read in an access of the Order Monitor's own (R8). -/
def orderAction (i : Nat) (s : State) : State :=
  if servable s i then settle (submit i (withOutstanding i .order id (partRead s))) else partRead s

/-- R7, R8: an observed write to a watched word of a subscriber record, by the word's place in the record. -/
def writeSubscriberWord (a : Addr) (merged : Word) (s : State) : State :=
  let i := (a.toNat - 0x10000) / 32
  let w := a.toNat % 32
  if w = 0 then writeDropWord i .tap a merged s
  else if w = 1 then writeDropWord i .port a merged s
  else
    let old := rd s a.toNat
    let s₁ := hostStore s a.toNat bothLanes merged
    if w = 2 then feedAction i old merged s₁
    else if w = 3 ∨ w = 6 then orderAction i s₁
    else s₁

/-! The subscriber census (R67 to R69). -/

/-- R68: the metering words of a record brought under the law of R51, written where they change. -/
def correctMinutes (i : Nat) (s : State) : State :=
  let p := (subRd s i 10).toNat
  let cm := (subRd s i 11).toNat
  let om := (subRd s i 12).toNat
  let cm' := min cm p
  let om' := min om cm'
  let s₁ := if cm' = cm then s else wr s (subscriberWord i 11) (wordOf cm')
  if om' = om then s₁ else wr s₁ (subscriberWord i 12) (wordOf om')

/-- R68: a link status as the census leaves it: AWAITING becomes HELD. -/
def censusLink (l : LinkStatus) : LinkStatus := if l = .awaiting then .held else l

/-- A status that has no part in the counts: the census sets the counts from nothing (R66). -/
def uncounted (r : RecordStatus) : RecordStatus := { r with link := .settled }

/-- R67, R68: a record whose address is free enters the directory; its mark is cleared, its status corrected and counted. -/
def censusClaim (i : Nat) (s : State) : State :=
  let st := subStatus s i
  let new : RecordStatus := { st with conflict := false, link := censusLink st.link }
  let s₁ := enterDirectory (subTap s i) (subPort s i) i s
  let s₂ :=
    if new = st then
      { s₁ with order := { s₁.order with
          unreached := s₁.order.unreached + countsUnreached new, held := s₁.order.held + countsHeld new } }
    else writeStatus i (uncounted st) new s₁
  correctMinutes i (raiseDirect (subFeed s i) s₂)

/-- R67: a record whose address is already claimed is marked conflicted, with the CONFLICT notice and record. Its status "is
written": word 8 is written whatever it held, where R68, for other records, writes it only where it changes (DEDUCED, log
entry 36). -/
def censusConflict (i holder : Nat) (s : State) : State :=
  let st := subStatus s i
  let new : RecordStatus := { st with conflict := true, link := .settled, attempts := 0 }
  let s₁ := wr s (subscriberWord i 8) (statusWord new)
  let s₂ := setNotice (subscriberWord i 7) 4 s₁
  let s₃ := logAppend .conflict i (subTap s i) (subPort s i) holder s₂
  correctMinutes i (raiseDirect (subFeed s i) s₃)

/-- R67: one census visit. A record that is passed has been read too. -/
def censusVisit (i : Nat) (s : State) : State :=
  if subTap s i = 0 then partRead s
  else
    match holderOf s (subTap s i) (subPort s i) with
    | none => censusClaim i s
    | some j => censusConflict i j s

/-- R69: after record 4095 the direct count of every element index is written into its record. -/
def writeDirectCounts (s : State) : State :=
  wrAll s ((List.range 256).map fun e => (elementWord e 13, wordOf (countOf s.order.direct e)))

end Sys2Proof.Machine
end

