-- ==== Sys2Proof/Machine/Entitlement.lean ====
section
/-!
DEFINITION. The Line-Up Unit (chapter 3): the commit check, the line-up image, the entitlement of a subscriber, and the
content of AUTH and MAP frames.
-/

namespace Sys2Proof.Machine

/-- 12.6: the kinds. -/
def entryKindOf (n : Nat) : EntryKind :=
  if n = 0 then .basic else if n = 1 then .tier else if n = 2 then .event else .barker

/-- 12.6. -/
def EntryKind.code : EntryKind → Nat
  | .basic => 0
  | .tier => 1
  | .event => 2
  | .barker => 3

/-- 12.6: a position of the line-up from its four words. -/
def lineupEntryOf (w₀ w₁ w₂ w₃ : Word) : LineupEntry :=
  { enabled := w₀.getLsbD 15, channel := field w₀ 0 10, kind := entryKindOf (field w₁ 0 2)
    argument := field w₁ 8 8, zones := w₂, frequency := w₃.toNat }

/-- The 96 positions of 384 words. -/
def lineupEntries (ws : List Word) : List LineupEntry :=
  (List.range 96).map fun c =>
    lineupEntryOf (ws.getD (4 * c) 0) (ws.getD (4 * c + 1) 0) (ws.getD (4 * c + 2) 0) (ws.getD (4 * c + 3) 0)

/-- R38 step 2: the 384 line-up words as memory holds them. -/
def lineupWords (s : State) : List Word := (List.range 384).map fun k => rd s (0x400 + k)

/-- R38: the tests of one position, in their order; `lower` are the positions below it. -/
def entryFault (lower : List LineupEntry) (e : LineupEntry) : Option CommitResult :=
  if e.enabled = true ∧ (e.channel < 1 ∨ 999 < e.channel) then some .numberRange
  else if e.enabled = true ∧ lower.any (fun f => f.enabled && decide (f.channel = e.channel)) = true then
    some .duplicateNumber
  else if e.kind = .event ∧ 7 < e.argument then some .slotRange
  else if e.kind = .tier ∧ 15 < e.argument then some .tierRange
  else if 1023 < e.frequency then some .frequencyRange
  else none

/-- R38: validation from position 0 up: the first reason and the offending position, if any. -/
def validateEntries : List LineupEntry → List LineupEntry → Option (CommitResult × Nat)
  | _, [] => none
  | lower, e :: rest =>
    match entryFault lower e with
    | some r => some (r, lower.length)
    | none => validateEntries (lower ++ [e]) rest

/-- R38: the outcome of a check, with the subject of its record (R42). -/
def commitOutcome (expected : Word) (ws : List Word) : CommitResult × Nat :=
  if crcOfWords ws ≠ expected then (.crc, 0xFFFF)
  else
    match validateEntries [] (lineupEntries ws) with
    | some (r, c) => (r, c)
    | none => (.ok, 0xFFFF)

/-- 12.9: LINEUP_COMMIT detail 1. -/
def CommitResult.code : CommitResult → Nat
  | .ok => 0
  | .crc => 1
  | .numberRange => 2
  | .duplicateNumber => 3
  | .slotRange => 4
  | .tierRange => 5
  | .frequencyRange => 6
  | .edited => 7

/-- R37, R38: a commit check starts with an expected value and reads the table into the candidate; a check already running
is abandoned. No write changes the table under a check that reaches its outcome (R38), so the words are those of now. -/
def startCommitCheck (expected : Word) (s : State) : State :=
  { s with lineup := { s.lineup with check := some expected, candidate := lineupWords s } }

/-- R36, R41: a line-up word has been edited: the edited flag is set, and a running check is aborted. -/
def lineupEdited (position : Nat) (s : State) : State :=
  match s.lineup.check with
  | none => { s with lineup := { s.lineup with edited := true } }
  | some expected =>
    logAppend .lineupCommit position CommitResult.edited.code expected.toNat 0
      { s with lineup := { s.lineup with
          edited := true, check := none, candidate := [], last := some .edited } }

/-- R39, R40: a commit check completes. -/
def completeCommitCheck (expected : Word) (s : State) : State :=
  let ws := s.lineup.candidate
  let (r, subject) := commitOutcome expected ws
  let report (s : State) : State :=
    logAppend .lineupCommit subject r.code expected.toNat (crcOfWords ws).toNat s
  let ended : LineUp := { s.lineup with check := none, candidate := [], last := some r }
  if r = .ok then
    wakeRefresh (openSweep .lineup
      (report { s with lineup := { ended with image := some (lineupEntries ws), edited := false } }))
  else report { s with lineup := ended }

/-- R44: some image entry of kind EVENT names the slot, enabled or not. -/
def imageNamesSlot (s : State) (k : Nat) : Bool :=
  match s.lineup.image with
  | some im => im.any fun e => decide (e.kind = .event) && decide (e.argument = k)
  | none => false

/-- R46: the command taken from the order of a record (12.8: 0 NONE, 1 CONNECT, 2 SUSPEND, 3 DISCONNECT). -/
def commandOf (order : Nat) : PortState := if order = 1 then .full else if order = 2 then .barker else .off

/-- The command of subscriber `i` at this moment. -/
def subCommand (s : State) (i : Nat) : PortState := commandOf (field (subRd s i 6) 0 2)

/-- R47: an enabled position is set, by its kind. -/
def entryPasses (s : State) (i : Nat) (command : PortState) (e : LineupEntry) : Bool :=
  let clear := !e.zones.getLsbD (subZone s i)
  e.enabled &&
    match e.kind with
    | .barker => decide (command = .full) || decide (command = .barker)
    | .basic => decide (command = .full) && clear
    | .tier => decide (command = .full) && clear && (subRd s i 3).getLsbD e.argument
    | .event =>
      decide (command = .full) && clear && decide (slotState s e.argument = .showing) &&
        holdsEvent s i e.argument (slotEvent s e.argument)

/-- A vector from its positions, position 0 first. -/
def vectorOf : List Bool → Nat
  | [] => 0
  | b :: t => (if b then 1 else 0) + 2 * vectorOf t

/-- R46, R47: the entitlement vector of subscriber `i`: zero when the command is OFF or no image is valid. -/
def entitlement (s : State) (i : Nat) (command : PortState) : BitVec 96 :=
  match s.lineup.image with
  | none => 0
  | some im =>
    if command = .off then 0 else BitVec.ofNat 96 (vectorOf (im.map (entryPasses s i command)))

/-- R45: the AUTH frame built for subscriber `i` with a sequence, 0 for an unacked frame. -/
def authFor (s : State) (i sequence : Nat) : List Byte :=
  let c := subCommand s i
  authFrame (subTap s i) (subPort s i) sequence c.code (entitlement s i c)

/-- The OFF frame of a retire entry: built from its tap id and port, with a zero vector (section 3.4). -/
def offFrame (tap port sequence : Nat) : List Byte := authFrame tap port sequence PortState.off.code 0

/-- R48: frame `n` of a batch, counted from 0: the twelve positions from 12n. -/
def mapFor (im : List LineupEntry) (n : Nat) : List Byte :=
  mapFrame (12 * n)
    (((im.drop (12 * n)).take 12).flatMap fun e => mapEntryBytes e.channel e.frequency e.kind.code e.enabled)

end Sys2Proof.Machine
end

