-- ==== Sys2Proof/Machine/Tracking.lean ====
section
/-!
DEFINITION. The Acknowledgement Tracker and the Return Link Receiver (chapter 6): the noise integrator, matching, timeouts,
retry waits, give-ups and the outcomes of retire entries.
-/

namespace Sys2Proof.Machine

/-! The noise integrator (R94). -/

/-- R94: M = 2(L + H) of the plan's noise limit and hold. -/
def noiseMax (p : Plan) : Nat := 2 * (p.noiseLimit + p.noiseHold)

/-- R94: the step of a bad frame. -/
def noiseBad (p : Plan) (r : Receiver) : Receiver :=
  let c := min (min r.noise (noiseMax p) + 2) (noiseMax p)
  if r.noisy = false ∧ 2 * p.noiseLimit ≤ c then { r with noise := noiseMax p, noisy := true }
  else { r with noise := c }

/-- R94: the step of a good frame. -/
def noiseGood (p : Plan) (r : Receiver) : Receiver :=
  let c := min r.noise (noiseMax p) - 1
  if r.noisy then { r with noise := c, noisy := decide (2 * p.noiseLimit ≤ c) }
  else if 2 * p.noiseLimit ≤ c then { r with noise := 2 * p.noiseLimit - 1 }
  else { r with noise := c }

/-- R94: the integrator steps only while a working copy is valid. -/
def stepNoise (f : Plan → Receiver → Receiver) (s : State) : State :=
  match s.plan.copy with
  | some p => { s with receiver := f p s.receiver }
  | none => s

/-- R92, R93: a bad frame. -/
def takeBadFrame (s : State) : State :=
  stepNoise noiseBad { s with receiver := { s.receiver with badFrames := s.receiver.badFrames + 1 } }

/-- R92: a good frame takes the integrator's good step, and is then handed to its owner. In STARTING, and after a
power-fail warning (R95), it is handed to nobody. -/
def takeGoodFrame (owner : State → State) (s : State) : State :=
  let s₁ := stepNoise noiseGood s
  if started s₁ then owner s₁ else s₁

/-! Outcomes of pending entries. -/

/-- The status of an entry's record as memory holds it, with another link status. -/
def withLink (s : State) (i : Nat) (l : LinkStatus) : RecordStatus := { subStatus s i with link := l }

/-- R98, R100, R102: a SUBSCRIBER entry is freed and the link status of its record written, confirmed state and attempts
kept. -/
def freeWithLink (e : PendingAck) (l : LinkStatus) (s : State) : State :=
  writeStatus e.subscriber (subStatus s e.subscriber) (withLink s e.subscriber l) (freeEntry e.tap e.port s)

/-- R98: APPLIED: the confirmed port state becomes the entry's command. -/
def applied (e : PendingAck) (s : State) : State :=
  writeStatus e.subscriber (subStatus s e.subscriber)
    { withLink s e.subscriber .settled with confirmed := e.command } (freeEntry e.tap e.port s)

/-- R98: PORT_FAULT: the subscriber is UNREACHED, with the notice and the record. -/
def portFaulted (e : PendingAck) (s : State) : State :=
  logAppend .portFault e.subscriber e.tap e.port e.sequence
    (setNotice (subscriberWord e.subscriber 7) 1 (freeWithLink e .unreached s))

/-- R105: a RETIRE entry ends: its pending entry is freed and its retire list entry removed. -/
def endRetire (e : PendingAck) (s : State) : State := removeRetire e.tap e.port (freeEntry e.tap e.port s)

/-- R105: a RETIRE entry ends with RETIRE_FAILED; the cause is 0 PORT_FAULT or 1 ATTEMPTS (12.9). -/
def failRetire (e : PendingAck) (cause : Nat) (s : State) : State :=
  logAppend .retireFailed e.tap e.port e.subscriber cause (endRetire e s)

/-- R102: while the part is QUIESCING an entry is given up: a subscriber becomes HELD, a retire list entry goes back to
not yet sent. -/
def giveUp (e : PendingAck) (s : State) : State :=
  match e.kind with
  | .subscriber => freeWithLink e .held s
  | .retire =>
    let s₁ := freeEntry e.tap e.port s
    { s₁ with order := { s₁.order with
        retires := s₁.order.retires.map fun r =>
          if r.tap = e.tap ∧ r.port = e.port then { r with sent := false } else r } }

/-- R102: at the entry to QUIESCING every RETRY candidate is given up. -/
def giveUpCandidates (s : State) : State :=
  (s.tracker.table.filter fun e => decide (e.phase = .candidate)).foldl (fun t e => giveUp e t) s

/-- R97: a matched ACK ends its entry by its result, 1 APPLIED or 2 PORT_FAULT. -/
def endByAck (e : PendingAck) (result : Nat) (s : State) : State :=
  match e.kind with
  | .subscriber => if result = 1 then applied e s else portFaulted e s
  | .retire => if result = 1 then endRetire e s else failRetire e 0 s

/-- R97: the entry an ACK matches: its tap id, port and sequence are equal to the ACK's, in any phase. -/
def matchAck (t : List PendingAck) (tap port sequence : Nat) : Option PendingAck :=
  t.find? fun e => entryAt tap port e && decide (e.sequence = sequence)

/-- R97: an ACK handed over by the receiver. -/
def takeAck (tap port sequence result : Nat) (s : State) : State :=
  if result = 1 ∨ result = 2 then
    match matchAck s.tracker.table tap port sequence with
    | some e =>
      settle (endByAck e result { s with tracker := { s.tracker with matched := s.tracker.matched + 1 } })
    | none => s
  else s

/-- R100: an exhausted timeout with the feed lit: UNREACHED, with the notice and the record. -/
def exhausted (e : PendingAck) (s : State) : State :=
  logAppend .unreached e.subscriber e.tap e.port e.attempts
    (setNotice (subscriberWord e.subscriber 7) 0 (freeWithLink e .unreached s))

/-- R100: the entry enters WAITING, its deadline a retry wait after the timeout. A retry wait of 0 makes it a candidate at
its timeout (R101). -/
def beginWait (e : PendingAck) (s : State) : State :=
  let wait := (planOf s).retryWait
  updateEntry e.tap e.port
    (fun x => { x with
      phase := if wait = 0 then .candidate else .waiting, deadline := s.time + retryWaitBits wait }) s

/-- R100: the timeout of a SUBSCRIBER entry, which reads word 2 of the record. -/
def subscriberTimeout (e : PendingAck) (s : State) : State :=
  if isDark s.plant.tree (subFeed s e.subscriber) = true ∨ s.part.state = .quiescing then freeWithLink e .held s
  else if e.attempts < (planOf s).maxAttempts then beginWait e (partRead s)
  else exhausted e s

/-- R105: the timeout of a RETIRE entry; darkness is not asked. -/
def retireTimeout (e : PendingAck) (s : State) : State :=
  if s.part.state = .quiescing then giveUp e s
  else if e.attempts < (planOf s).maxAttempts then beginWait e s
  else failRetire e 1 s

/-- R100, R105. -/
def entryTimeout (e : PendingAck) (s : State) : State :=
  match e.kind with
  | .subscriber => subscriberTimeout e s
  | .retire => retireTimeout e s

/-- R101: the end of an entry's retry wait. -/
def entryWaitEnd (e : PendingAck) (s : State) : State :=
  if s.part.state = .quiescing then giveUp e s
  else updateEntry e.tap e.port (fun x => { x with phase := .candidate }) s

/-- The entry in a phase whose deadline comes first. -/
def earliest (ph : AckPhase) (t : List PendingAck) : Option PendingAck :=
  leastBy (fun e => e.deadline) (t.filter fun e => decide (e.phase = ph))

/-- Link time reaches a moment, unless it has passed it already (log entry 4). -/
def reach (t : Nat) (s : State) : State := { s with time := max s.time t }

end Sys2Proof.Machine
end

