-- ==== Sys2Proof/Machine/PlantOps.lean ====
section
/-!
DEFINITION. The Plant Monitor (chapter 7): results and the error counter, latency and warnings, outages and restores, the
end of a poll, the clearing of disabled warnings, and the element census.
-/

namespace Sys2Proof.Machine

/-- 12.9: TOPOLOGY detail 1. -/
inductive TopologyChange where
  | add | retire | setFeed | census
  deriving DecidableEq, Repr

/-- 12.9. -/
def TopologyChange.code : TopologyChange → Nat
  | .add => 0
  | .retire => 1
  | .setFeed => 2
  | .census => 3

/-- R126: a topology change is logged. -/
def logTopology (i : Nat) (c : TopologyChange) (oldParent newParent : Nat) (s : State) : State :=
  logAppend .topology i c.code oldParent newParent s

/-- R111: the state of an element is written to its record and made in the tree copy. -/
def setElementState (i : Nat) (st : ElementState) (s : State) : State :=
  let s₁ := { s with plant := { s.plant with tree := treeSetState s.plant.tree i st } }
  wr s₁ (elementWord i 4) (wordOf st.code)

/-- The counter C of an element's record. -/
def counterOf (s : State) (i : Nat) : Nat := (rd s (elementWord i 5)).toNat

/-- The counter C of an element is written. -/
def setCounter (i c : Nat) (s : State) : State := wr s (elementWord i 5) (wordOf c)

/-- R119: the affected count of an element as the direct counts stand. -/
def affected (s : State) (i : Nat) : Nat := affectedCount s.plant.tree s.order.direct i

/-- The transponder address of an element in the tree copy. -/
def addressOf (s : State) (i : Nat) : Nat :=
  match tableGet s.plant.tree i with
  | some e => e.address
  | none => 0

/-- R119 steps 1 and 2: the outage start stamp, all ones while the time is not valid, and the outage count. -/
def stampOutage (i : Nat) (s : State) : State :=
  let s₁ := wrPair s (elementWord i 9) (if s.clock.valid then currentStamp s else unknownStamp)
  wr s₁ (elementWord i 12) (wordOf (saturate16 ((rd s₁ (elementWord i 12)).toNat + 1)))

/-- R119: an outage begins with an element's entry to OUT. -/
def beginOutage (i c : Nat) (s : State) : State :=
  let s₁ := stampOutage i (setElementState i .out s)
  let s₂ := { s₁ with plant := { s₁.plant with outCount := s₁.plant.outCount + 1 } }
  logAppend .outage i (affected s₂ i) c (addressOf s₂ i) (setNotice (elementWord i 8) 0 s₂)

/-- R120 step 1: the duration of an outage that ends now: 65535, unknown, when the start stamp is all ones, the time is
not valid, or the current minute is below the start stamp. -/
def outageDuration (s : State) (i : Nat) : Nat :=
  let st := rdPair s (elementWord i 9)
  if st = unknownStamp ∨ s.clock.valid = false ∨ currentStamp s < st then 65535
  else saturate16 (currentStamp s - st)

/-- R120, R124, R125: a RESTORE sweep is opened for an element that is now lit. -/
def sweepIfLit (i : Nat) (s : State) : State := if isDark s.plant.tree i then s else openSweep (.restore i) s

/-- R120: an outage ends with an element's return to IN_SERVICE. -/
def endOutage (i c : Nat) (s : State) : State :=
  let s₁ := setElementState i .inService s
  let d := outageDuration s₁ i
  let s₂ := wr s₁ (elementWord i 11) (wordOf d)
  let s₃ := { s₂ with plant := { s₂.plant with outCount := s₂.plant.outCount - 1 } }
  let s₄ := logAppend .restore i d (affected s₃ i) c (setNotice (elementWord i 8) 1 s₃)
  sweepIfLit i s₄

/-- R117: an EXHAUSTED reply sets the element LATCHED_OUT with C = M; `was` is its state until then. -/
def latchOut (i : Nat) (was : ElementState) (s : State) : State :=
  let m := counterMax s i
  let s₁ := setElementState i .latchedOut (setCounter i m s)
  let s₂ :=
    match was with
    | .unpolled | .inService => stampOutage i s₁
    | .out => { s₁ with plant := { s₁.plant with outCount := s₁.plant.outCount - 1 } }
    | .latchedOut => s₁
  let s₃ := { s₂ with plant := { s₂.plant with
    latchedCount := if was = .latchedOut then s₂.plant.latchedCount else s₂.plant.latchedCount + 1 } }
  logAppend .latch i (affected s₃ i) m (addressOf s₃ i) (setNotice (elementWord i 8) 2 s₃)

/-- The result of a poll (R116). -/
inductive PollResult where
  | failed | good | exhausted
  deriving DecidableEq, Repr

/-- R116: the failed step of the counter and its state change. -/
def failedResult (i : Nat) (st : ElementState) (s : State) : State :=
  let m := counterMax s i
  let threshold := 2 * elementLimit s i
  let c := min (min (counterOf s i) m + 2) m
  match st with
  | .unpolled | .inService => if threshold ≤ c then beginOutage i m (setCounter i m s) else setCounter i c s
  | .out => setCounter i (max c threshold) s
  | .latchedOut => setCounter i m s

/-- R116: the good step of the counter and its state change. -/
def goodResult (i : Nat) (st : ElementState) (s : State) : State :=
  let m := counterMax s i
  let threshold := 2 * elementLimit s i
  let c := min (counterOf s i) m - 1
  match st with
  | .out => if c < threshold then endOutage i c (setCounter i c s) else setCounter i c s
  | .unpolled => setElementState i .inService (setCounter i (if threshold ≤ c then threshold - 1 else c) s)
  | .inService => setCounter i (if threshold ≤ c then threshold - 1 else c) s
  | .latchedOut => setCounter i m s

/-- R116, R117: a result is applied to an element in state `st`. -/
def applyResult (i : Nat) (st : ElementState) (r : PollResult) (s : State) : State :=
  match r with
  | .failed => failedResult i st s
  | .good => goodResult i st s
  | .exhausted => latchOut i st s

/-- 12.10, R116: the result a STATUS status names: 0 NORMAL and 1 STANDBY are good, 2 DEGRADED fails, 3 is EXHAUSTED. -/
def resultOfStatus (n : Nat) : PollResult := if n ≤ 1 then .good else if n = 2 then .failed else .exhausted

/-! Latency and warnings (R118). -/

/-- 12.7: SLOW in the warnings word. -/
def slowBit : Word := 1
/-- 12.7: STANDBY in the warnings word. -/
def standbyBit : Word := 2

/-- A count follows a warning that goes from `old` to `new`. -/
def countChange (n : Nat) (old new : Bool) : Nat := n + (if new then 1 else 0) - (if old then 1 else 0)

/-- R118, R111: the warnings word of an element is written, and the two counts follow. -/
def setWarnings (i : Nat) (slow standby : Bool) (s : State) : State :=
  let w := rd s (elementWord i 7)
  let s₁ := wr s (elementWord i 7) ((if slow then slowBit else 0) ||| (if standby then standbyBit else 0))
  { s₁ with plant := { s₁.plant with
      slowCount := countChange s₁.plant.slowCount (w.getLsbD 0) slow
      standbyCount := countChange s₁.plant.standbyCount (w.getLsbD 1) standby } }

/-- R118: the latency count of a reply that arrives now, 0 for one matched in SENDING (R114). -/
def latencyCount (s : State) (p : Poll) : Nat :=
  match p.phase with
  | .sending => 0
  | .awaiting => min 255 ((s.time - p.completed) / latencyUnitBits (planOf s).latencyRange)

/-- R118: the latency word and the warnings taken from a reply. -/
def takeLatency (i count status : Nat) (s : State) : State :=
  let p := planOf s
  let w := rd s (elementWord i 7)
  let slow :=
    if p.slowThreshold < count then (if p.slowDisabled then w.getLsbD 0 else true) else false
  let standby :=
    if status = 1 then (if p.standbyDisabled then w.getLsbD 1 else true)
    else if status = 0 then false else w.getLsbD 1
  setWarnings i slow standby (wr s (elementWord i 6) (wordOf count))

/-! The end of a poll (R115). -/

/-- R115 steps 1 and 2: the outstanding-poll record is emptied, and the next poll is due a poll interval from now. -/
def endPoll (s : State) : State :=
  { s with plant := { s.plant with
      poll := none, nextPollDue := s.time + pollIntervalBits (planOf s).pollInterval } }

/-- R115 step 3: the element at the record's index, if it is still in use with the record's transponder address. -/
def polledElement (s : State) (p : Poll) : Option Element :=
  match tableGet s.plant.tree p.index with
  | some e => if e.address = p.address then some e else none
  | none => none

/-- R114, R115: the poll ends at a matched reply. -/
def endPollByReply (p : Poll) (status : Nat) (s : State) : State :=
  let s₁ := endPoll s
  match polledElement s₁ p with
  | some e =>
    settle (applyResult p.index e.state (resultOfStatus status) (takeLatency p.index (latencyCount s p) status s₁))
  | none => settle s₁

/-- R115: the poll ends at its timeout, with a failed result; latency and warnings stay as they stand. -/
def endPollByTimeout (p : Poll) (s : State) : State :=
  let s₁ := endPoll s
  match polledElement s₁ p with
  | some e => settle (applyResult p.index e.state .failed s₁)
  | none => settle s₁

/-- R114: a STATUS frame handed over by the receiver. -/
def takeStatus (address sequence status : Nat) (s : State) : State :=
  match s.plant.poll with
  | some p =>
    if p.address = address ∧ p.sequence = sequence ∧ status ≤ 3 then endPollByReply p status s else s
  | none => s

/-- R118: the warnings of one element are read, and a newly disabled one that it holds is cleared. -/
def clearWarnings (slow standby : Bool) (s : State) (i : Nat) : State :=
  let w := rd s (elementWord i 7)
  if (slow && w.getLsbD 0) || (standby && w.getLsbD 1) then
    setWarnings i (w.getLsbD 0 && !slow) (w.getLsbD 1 && !standby) s
  else partRead s

/-! The element census (R128). -/

/-- R183, 12.7: the state code of a record, as the census takes it: anything but LATCHED_OUT is judged afresh. -/
def censusState (code : Nat) : ElementState := if code = 4 then .latchedOut else .unpolled

/-- R128 step 1: the tree as the table's addresses and parents give it; a parent of 256 and above names no index in use and
is reset by the pass over missing parents (R183). -/
def readTree (s : State) : Tree :=
  (List.range 255).filterMap fun k =>
    let i := k + 1
    let address := (rd s (elementWord i 0)).toNat
    if address = 0 then none
    else some (i, { address := address, parent := (rd s (elementWord i 1)).toNat
                    state := censusState (rd s (elementWord i 4)).toNat })

/-- A write made only where it changes the word. -/
def wrIfChanged (s : State) (a : Nat) (w : Word) : State := if rd s a = w then s else wr s a w

/-- R128 step 1: the root's record is written, and an index not in use is UNUSED with C 0. -/
def censusRead (s : State) : State :=
  let s₁ := wrAll s [(elementWord 0 1, 0), (elementWord 0 4, 2), (elementWord 0 5, 0)]
  let s₂ := (List.range 255).foldl (fun t k =>
      let i := k + 1
      if (rd t (elementWord i 0)).toNat = 0 then
        wrIfChanged (wrIfChanged t (elementWord i 4) 0) (elementWord i 5) 0
      else t) s₁
  { s₂ with plant := { s₂.plant with tree := readTree s₂ } }

/-- R128: the census resets the parent of an element to 0, in the record and the tree, and logs it. -/
def resetParent (i : Nat) (s : State) : State :=
  match tableGet s.plant.tree i with
  | none => s
  | some e =>
    let s₁ := { s with plant := { s.plant with tree := treeSetParent s.plant.tree i 0 } }
    logTopology i .census e.parent 0 (wr s₁ (elementWord i 1) 0)

/-- A pass over the elements in use, in ascending index, that resets the parent of each one that fails a test. -/
def censusPass (bad : Tree → Nat → Bool) (s : State) : State :=
  (s.plant.tree.map fun p => p.1).foldl (fun t i => if bad t.plant.tree i then resetParent i t else t) s

/-- R128 step 2: the parent is not 0 and not in use. -/
def parentMissing (t : Tree) (i : Nat) : Bool :=
  match tableGet t i with
  | some e => !elementInUse t e.parent
  | none => false

/-- R128 step 3: the element's chain of parents returns to the element itself. -/
def inCycle (t : Tree) (i : Nat) : Bool := decide (i ∈ (chain t chainFuel i).drop 1)

/-- R128 step 4: the element lies deeper than 8. -/
def tooDeep (t : Tree) (i : Nat) : Bool := decide (8 < depthOf t i)

/-- R128 step 5: the state of one element in use, from the state its record holds. -/
def censusElementState (s : State) (i : Nat) : State :=
  let s₁ := wr s (elementWord i 7) 0
  let found := (rd s (elementWord i 4)).toNat
  if found = 4 then setCounter i (counterMax s i) s₁
  else
    let s₂ := wr (setCounter i 0 (setElementState i .unpolled s₁)) (elementWord i 6) 0
    if found = 3 then wr s₂ (elementWord i 11) 0xFFFF else s₂

/-- R128 step 6. -/
def censusCounts (s : State) : State :=
  { s with plant := { s.plant with
      latchedCount := (s.plant.tree.filter fun p => decide (p.2.state = .latchedOut)).length
      outCount := 0, slowCount := 0, standbyCount := 0 } }

/-- R128: the element census. -/
def elementCensus (s : State) : State :=
  let s₁ := censusPass tooDeep (censusPass inCycle (censusPass parentMissing (censusRead s)))
  censusCounts ((s₁.plant.tree.map fun p => p.1).foldl censusElementState s₁)

end Sys2Proof.Machine
end

