-- ==== Sys2Proof/Machine/EventOps.lean ====
section
/-!
DEFINITION. The Event Slot Unit (chapter 9): transitions, the slot reload, purchases with their checks and fill, and the
replies to BUY frames.
-/

namespace Sys2Proof.Machine

/-- The armed copy of a slot is replaced. -/
def setArmed (k : Nat) (a : ArmedSlot) (s : State) : State :=
  { s with slots := { s.slots with armed := tableSet s.slots.armed k a } }

/-- R144: a slot takes a state, in its armed copy and in its state word. -/
def setSlotState (k : Nat) (st : SlotState) (s : State) : State :=
  let s₁ :=
    match tableGet s.slots.armed k with
    | some a => setArmed k { a with state := st } s
    | none => s
  wr s₁ (slotWord k 6) (wordOf st.code)

/-! Transitions (R148). -/

/-- R148 step 1: the slot is OPEN and the stamp is at or past its start. -/
def startsNow (stamp : Nat) (a : ArmedSlot) : Bool := decide (a.state = .open) && decide (a.startStamp ≤ stamp)

/-- R148 step 2: the slot is OPEN or SHOWING and the stamp is at or past its end. -/
def endsNow (stamp : Nat) (a : ArmedSlot) : Bool :=
  (decide (a.state = .open) || decide (a.state = .showing)) && decide (a.endStamp ≤ stamp)

/-- R148: one slot's evaluation at a stamp: every transition due, the sweeps opened in turn, the state word written once. -/
def evaluateSlot (stamp : Nat) (s : State) (k : Nat) : State :=
  match tableGet s.slots.armed k with
  | none => s
  | some a =>
    let starts := startsNow stamp a
    let ends := endsNow stamp a
    if starts || ends then
      let final : SlotState := if ends then .closed else .showing
      let s₁ := if starts then openSweep (.eventStart k a.event) s else s
      let s₂ := if ends then openSweep (.eventEnd k a.event) s₁ else s₁
      setSlotState k final s₂
    else s

/-- R148: an evaluation visits slots 0 to 7 in ascending order. -/
def evaluateSlots (stamp : Nat) (s : State) : State := (List.range 8).foldl (evaluateSlot stamp) s

/-! The slot reload (R149). -/

/-- R149: one slot's armed copy is rebuilt from its record. -/
def reloadSlot (s : State) (k : Nat) : State :=
  let code := (rd s (slotWord k 6)).toNat
  let st := slotStateOf code
  let count := (rd s (slotWord k 8)).toNat
  let revenue := rdPair s (slotWord k 9)
  let s₁ := if 3 < code then wr s (slotWord k 6) 0 else s
  let purchased := st ≠ .idle ∧ 0 < count
  let price := if purchased then saturate16 (revenue / count) else (rd s (slotWord k 5)).toNat
  let s₂ := if purchased ∧ price * count ≠ revenue then wrPair s₁ (slotWord k 9) (price * count) else s₁
  setArmed k
    { state := st, event := (rd s (slotWord k 7)).toNat, startStamp := rdPair s (slotWord k 0)
      endStamp := rdPair s (slotWord k 2), cutoff := (rd s (slotWord k 4)).toNat, price := price } s₂

/-- R149: the eight slots in ascending order; every slot's record is read. -/
def reloadSlots (s : State) : State := (List.range 8).foldl reloadSlot (partRead s)

/-! The wrap clearing (R146). -/

/-- R146: each entry of one record that holds slot `k` is written back with its valid mark cleared, in the held access that
reads the record. -/
def clearSlotEntries (k : Nat) (s : State) (i : Nat) : State :=
  wrHeld s (unmarkedEntries s i fun p => decide (p.slot = k))

/-- R146: every record of the subscriber table, in ascending index. -/
def wrapClear (k : Nat) (s : State) : State := (List.range subscriberCount).foldl (clearSlotEntries k) s

/-! Purchases (R150 to R155). -/

/-- The outcome of a purchase: accepted with the sequence of its journal record, or refused by a check. -/
inductive PurchaseOutcome where
  | accepted (sequence : Nat)
  | refused (e : RequestError)
  deriving DecidableEq, Repr

/-- The armed copy of a slot, for a slot that is not IDLE. -/
def armedOf (s : State) (k : Nat) : ArmedSlot :=
  (tableGet s.slots.armed k).getD
    { state := .idle, event := 0, startStamp := 0, endStamp := 0, cutoff := 0, price := 0 }

/-- R153 check 3: the record is in use, not conflicted and confirmed FULL. -/
def mayPurchase (s : State) (i : Nat) : Bool := servable s i && decide ((subStatus s i).confirmed = .full)

/-- R153 check 4: the slot is OPEN, or SHOWING with the current stamp below its start plus its cutoff. -/
def purchasable (s : State) (k : Nat) : Bool :=
  decide (slotState s k = .open) ||
    (decide (slotState s k = .showing) &&
      decide (currentStamp s < (armedOf s k).startStamp + (armedOf s k).cutoff))

/-- R153 checks 3, 5, 6 and 7, which the fill repeats (R154). -/
def recordRefusal (s : State) (i k : Nat) : Option RequestError :=
  if mayPurchase s i = false then some .notConnected
  else if (livePlaceOf s i k).isSome then some .alreadyPurchased
  else if (freePlace s i).isNone then some .listFull
  else if (subRd s i 5).toNat < (subRd s i 13).toNat + (armedOf s k).price then some .credit
  else none

/-- R153: checks 2 to 7, in their order. -/
def purchaseRefusal (s : State) (i k : Nat) : Option RequestError :=
  if s.clock.valid = false then some .timeInvalid
  else if mayPurchase s i = false then some .notConnected
  else if purchasable s k = false then some .notPurchasable
  else recordRefusal s i k

/-- R153: a refusal with CREDIT sets the CREDIT notice; no other refusal writes the record. -/
def refuse (i : Nat) (e : RequestError) (s : State) : State × PurchaseOutcome :=
  (if e = .credit then setNotice (subscriberWord i 7) 2 s else s, .refused e)

/-- 12.9: the source of a purchase: 0 CONVERTER, 1 DESK. -/
def sourceConverter : Nat := 0
def sourceDesk : Nat := 1

/-- 12.9: words 4 to 15 of a PURCHASE or REFUND record. -/
def purchaseWords (i k event price source token : Nat) : List Nat :=
  [i, k, event, price, source, token, 0, 0, 0, 0, 0, 0]

/-- R154 step 2: the entry chosen is filled and the armed price added to the PPV spent, in the held access in which the checks
are repeated. -/
def fillEntry (i k j : Nat) (s : State) : State :=
  wrHeld s
    [(subscriberWord i (14 + 2 * j), purchaseWord true k),
     (subscriberWord i (15 + 2 * j), wordOf (slotEvent s k)),
     (subscriberWord i 13, wordOf ((subRd s i 13).toNat + (armedOf s k).price))]

/-- R154 step 4, R156 step 4: a slot's purchase count and revenue are written. -/
def setSlotTotals (k count revenue : Nat) (s : State) : State :=
  wrPair (wr s (slotWord k 8) (wordOf count)) (slotWord k 9) revenue

/-- R154 steps 2 to 5: an accepted purchase, its journal position taken. -/
def acceptPurchase (i k j source token : Nat) (s : State) : State × PurchaseOutcome :=
  let price := (armedOf s k).price
  let seq := journalSequence s
  let s₁ := journalAppend .purchase (purchaseWords i k (slotEvent s k) price source token) (fillEntry i k j s)
  let s₂ := setSlotTotals k ((rd s₁ (slotWord k 8)).toNat + 1) (rdPair s₁ (slotWord k 9) + price) s₁
  (if slotState s k = .showing then submit i s₂ else s₂, .accepted seq)

/-- R154: the fill: the record is read again and the checks on it are repeated, in one held access; if one now fails nothing is
written to it and the journal position is given back unused. -/
def fillPurchase (i k source token : Nat) (s : State) : State × PurchaseOutcome :=
  match recordRefusal s i k, freePlace s i with
  | none, some j => acceptPurchase i k j source token s
  | some e, _ => refuse i e (returnJournal (partRead s))
  | none, none => refuse i .listFull (returnJournal (partRead s))

/-- R153, R154: a purchase of slot `k` for record `i`: the record is read in a held access, and the checks from the second
onward decide. -/
def decidePurchase (i k source token : Nat) (s₀ : State) : State × PurchaseOutcome :=
  let s := partRead s₀
  match purchaseRefusal s i k with
  | some e => refuse i e s
  | none =>
    match takeJournal s with
    | (s₁, true) => fillPurchase i k source token s₁
    | (s₁, false) => refuse i .journalFull s₁

/-- 12.10, R155: the REPLY result of an outcome. -/
def replyResult : PurchaseOutcome → Nat
  | .accepted _ => 0
  | .refused .alreadyPurchased => 0
  | .refused .notConnected => 1
  | .refused .notPurchasable => 2
  | .refused .timeInvalid => 3
  | .refused .listFull => 4
  | .refused .credit => 5
  | .refused .journalFull => 6
  | .refused _ => 2

/-- R151: one entry joins the tail of the purchase-reply queue. -/
def queueReply (tap port token result : Nat) (s : State) : State :=
  { s with sched := { s.sched with
      replies := s.sched.replies ++
        [{ tap := tap, port := BitVec.ofNat 8 port, token := BitVec.ofNat 8 token, result := BitVec.ofNat 8 result }] } }

/-- R151 step 3: the record a BUY frame's drop address names; a port above 7 names no address (R183). -/
def buyerOf (s : State) (tap port : Nat) : Option Nat := if port ≤ 7 then holderOf s tap port else none

/-- R151 steps 3 to 5: a BUY frame is decided and answered. -/
def answerBuy (tap port slot token : Nat) (s : State) : State :=
  match buyerOf s tap port with
  | none => queueReply tap port token (replyResult (.refused .notConnected)) s
  | some i =>
    if 7 < slot then queueReply tap port token (replyResult (.refused .notPurchasable)) s
    else
      let (s₁, o) := decidePurchase i slot sourceConverter token s
      queueReply tap port token (replyResult o) s₁

/-- R151: a BUY frame handed over by the receiver; outside SERVING, or with the reply queue full, it is discarded. -/
def takeBuy (tap port slot token : Nat) (s : State) : State :=
  if s.part.state = .serving ∧ s.sched.replies.length < replyCapacity then
    settle (answerBuy tap port slot token s)
  else s

end Sys2Proof.Machine
end

