-- ==== Sys2Proof/Machine/CloseOps.lean ====
section
/-!
DEFINITION. The Close Engine (chapter 10) and the Meter Engine's visit (R141): triggers, the close visit, the statement
arithmetic, the end of a close, and its resumption.
-/

namespace Sys2Proof.Machine

/-! The persisted values (R159). -/

/-- 12.5. -/
def CloseStatus.code : CloseStatus → Nat
  | .idle => 0
  | .closing => 1

/-- R159: the close status is written to the control area, and the copy follows. -/
def setCloseStatus (st : CloseStatus) (s : State) : State :=
  match s.close.copy with
  | some c => wr { s with close := { s.close with copy := some { c with status := st } } } closeStatusWord (wordOf st.code)
  | none => s

/-- R159: the close cursor is written to the control area, and the copy follows. -/
def setCloseCursor (n : Nat) (s : State) : State :=
  match s.close.copy with
  | some c => wr { s with close := { s.close with copy := some { c with cursor := n } } } closeCursorWord (wordOf n)
  | none => s

/-- R159: the close number is written to the control area, and the copy follows. -/
def setCloseNumber (n : Nat) (s : State) : State :=
  match s.close.copy with
  | some c => wr { s with close := { s.close with copy := some { c with number := n } } } closeNumberWord (wordOf n)
  | none => s

/-- The close status of the copy; IDLE while the copy is empty. -/
def closeStatus (s : State) : CloseStatus :=
  match s.close.copy with
  | some c => c.status
  | none => .idle

/-- The close cursor of the copy. -/
def closeCursor (s : State) : Nat :=
  match s.close.copy with
  | some c => c.cursor
  | none => 0

/-- The close number of the copy. -/
def closeNumber (s : State) : Nat :=
  match s.close.copy with
  | some c => c.number
  | none => 0

/-! Triggers. -/

/-- R162 step 1: the number of the next close: from 65535 it goes to 1. -/
def nextCloseNumber (n : Nat) : Nat := if 65535 ≤ n then 1 else n + 1

/-- R162: a close begins, bound to a request slot or triggered by the alarm. -/
def beginClose (bound : Option Nat) (s : State) : State :=
  let n := nextCloseNumber (closeNumber s)
  let s₁ := { s with close := { s.close with statements := 0, resumed := false, stalled := false, bound := bound } }
  let s₂ := setCloseStatus .closing (setCloseCursor 0 (setCloseNumber n s₁))
  match bound with
  | some slot => logAppend .closeBegin n 1 slot 0 s₂
  | none => logAppend .closeBegin n 0 0xFFFF 0 s₂

/-- R163: a late trigger: flagged and logged, the close in progress left as it is. -/
def lateTrigger (s : State) : State :=
  report .closeLate
    (logAppend .closeLate (closeNumber s) (closeCursor s) (if s.close.stalled then 1 else 0) 0 s)

/-- R138: the alarm matches the fields as they stand. -/
def alarmMatches (p : Plan) (c : Calendar) : Bool :=
  (p.closeDay.all fun d => decide (d = c.day)) && (p.closeHour.all fun h => decide (h = c.hours)) &&
    (p.closeMinute.all fun m => decide (m = c.minutes))

/-- R27: the fields and VALID of this moment, for a tick that was noted. -/
def tickNow (s : State) : Tick := { fields := s.clock.now, valid := s.clock.valid }

/-- R138, R160: the close alarm is tested against the fields of a tick, with VALID set and a working copy valid; a match
begins a close, or is a late trigger. -/
def testAlarm (k : Tick) (s : State) : State :=
  match s.plan.copy with
  | some p =>
    if k.valid = true ∧ alarmMatches p k.fields = true then
      match closeStatus s with
      | .idle => beginClose none s
      | .closing => lateTrigger s
    else s
  | none => s

/-! The statement arithmetic (R167). -/

/-- R167 stage 1: the base rate plus the tier rates of the tiers in the tier set. -/
def monthlySubtotal (base : Nat) (tiers : Word) (rates : List Nat) : Nat :=
  base + ((List.range 16).map fun t => if tiers.getLsbD t then rates.getD t 0 else 0).sum

/-- R167 stage 2. -/
def creditMinutes (outage grace : Nat) : Nat := outage - grace

/-- R167 stage 3. -/
def billableMinutes (connected credit : Nat) : Nat := connected - credit

/-- R167 stage 4: S·B/P rounded to the nearest cent, an exact half up; 0 when P is 0. -/
def subscriptionCharge (subtotal billable period : Nat) : Nat :=
  if period = 0 then 0 else (2 * subtotal * billable + period) / (2 * period)

/-- A statement as R167 computes it. -/
structure Statement where
  credit : Nat
  charge : Nat
  ppv : Nat
  total : Nat
  deriving DecidableEq, Repr

/-- R167: the statement of record `i` from the words and the working copy as they stand. -/
def statementOf (s : State) (i : Nat) : Statement :=
  let p := planOf s
  let k := creditMinutes (subRd s i 12).toNat p.grace
  let b := billableMinutes (subRd s i 11).toNat k
  let q := subscriptionCharge (monthlySubtotal (subRd s i 4).toNat (subRd s i 3) p.rates) b (subRd s i 10).toNat
  let v := (subRd s i 13).toNat
  { credit := k, charge := q, ppv := v, total := q + v }

/-- 12.9: words 4 to 15 of a STATEMENT record. -/
def statementWords (s : State) (i : Nat) : List Nat :=
  let st := statementOf s i
  [i, closeNumber s, (subRd s i 10).toNat, (subRd s i 11).toNat, (subRd s i 12).toNat, st.credit, st.charge,
   st.charge / 65536, st.ppv, st.total, st.total / 65536, 0]

/-! The close visit. -/

/-- R165 step 3: the writes that clear the valid mark of each entry marked valid but not live. -/
def staleEntries (s : State) (i : Nat) : List (Nat × Word) :=
  unmarkedEntries s i fun p => p.valid && !isLive s p

/-- R165 step 3: the record's new period, written in the held access in which the record was read: the amounts, the stale
entries, the last statement total as a pair, and its number. -/
def closeRecord (i : Nat) (total : Nat) (s : State) : State :=
  wrHeld s
    ([(subscriberWord i 10, 0), (subscriberWord i 11, 0), (subscriberWord i 12, 0), (subscriberWord i 13, 0)] ++
      staleEntries s i ++
      [(subscriberWord i 22, pairLowWord total), (subscriberWord i 23, pairHighWord total),
       (subscriberWord i 24, wordOf (closeNumber s))])

/-- R165 step 6, R164: the cursor rises by one, within the visit. -/
def advanceClose (s : State) : State := setCloseCursor (closeCursor s + 1) s

/-- R165: the statement visit of record `i`, its journal position taken. -/
def writeStatement (i : Nat) (s : State) : State :=
  let words := statementWords s i
  let s₁ := journalAppend .statement words (closeRecord i (statementOf s i).total s)
  let s₂ := setNotice (subscriberWord i 7) 3 s₁
  advanceClose { s₂ with close := { s₂.close with statements := s₂.close.statements + 1 } }

/-- R165, R168: a statement visit: refused a position, the close stalls at the record with nothing written. A record that has
left use or been marked is read and not written. -/
def statementVisit (i : Nat) (s : State) : State :=
  match takeJournal s with
  | (s₁, false) => { s₁ with close := { s₁.close with stalled := true } }
  | (s₁, true) => if servable s₁ i then writeStatement i s₁ else advanceClose (returnJournal (partRead s₁))

/-- R169: the end of a close. -/
def endClose (s : State) : State :=
  let n := closeNumber s
  let s₁ := setCloseStatus .idle s
  let s₂ := logAppend .closeEnd n s.close.statements (if s.close.resumed then 1 else 0) 0 s₁
  match s.close.bound with
  | some slot => endDone slot n { s₂ with close := { s₂.close with bound := none } }
  | none => s₂

/-- R164: the part states in which the close runs. -/
def closeRuns (s : State) : Bool :=
  running s &&
    (decide (s.part.state = .serving) || decide (s.part.state = .quiescing) || decide (s.part.state = .quiesced))

/-- R164, R169: the engine's next step while CLOSING and not stalled: a visit at the cursor, whose test reads the record
(R165), or the end of the close. R168: the visit after a stall is such a step too, and begins with the cursor test again
(DESIGN CHOICE, log entry 35). -/
def closeStep (s : State) : State :=
  if closeRuns s = true ∧ closeStatus s = .closing ∧ s.close.stalled = false then
    let i := closeCursor s
    if subscriberCount ≤ i then endClose s
    else if servable s i then statementVisit i (partRead s)
    else advanceClose (partRead s)
  else s

/-- R170: start-up step 7: the copies are reloaded from the persisted words. -/
def resumeClose (s₀ : State) : State :=
  let s := partRead s₀
  let status := (rd s closeStatusWord).toNat
  let cursor := (rd s closeCursorWord).toNat
  let number := (rd s closeNumberWord).toNat
  if status = 1 then
    let s₁ := if subscriberCount < cursor then wr s closeCursorWord (wordOf subscriberCount) else s
    { s₁ with close := { s₁.close with
        copy := some { status := .closing, cursor := min cursor subscriberCount, number := number }
        resumed := true, statements := 0 } }
  else
    let s₁ := if status = 0 then s else wr s closeStatusWord 0
    { s₁ with close := { s₁.close with copy := some { status := .idle, cursor := cursor, number := number } } }

/-! The metering visit (R141). -/

/-- R141: a metering word one minute on, stopping at 65535. -/
def oneMinuteOn (s : State) (i w : Nat) : Nat × Word :=
  (subscriberWord i w, wordOf (saturate16 ((subRd s i w).toNat + 1)))

/-- R141, R16: the three steps over a record's minutes: the reads and the writes are one held access. -/
def meterRecord (i : Nat) (s : State) : State :=
  let full := (subStatus s i).confirmed = .full
  wrHeld s ([oneMinuteOn s i 10] ++ (if full then [oneMinuteOn s i 11] else []) ++
    if full ∧ isDark s.plant.tree (subFeed s i) = true then [oneMinuteOn s i 12] else [])

/-- R141: a metering visit of record `i`, one held access. A record that is passed has been read in it. -/
def meterVisit (i : Nat) (s : State) : State := if servable s i then meterRecord i s else partRead s

/-- R140: the cursor of the pass rises by one; after record 4095 the pass has ended. The rule leaves the cursor of an ended
pass open; the model puts it to 0 there (DESIGN CHOICE, log entry 31). -/
def advancePass (s : State) : State :=
  if s.meter.cursor + 1 < subscriberCount then
    { s with meter := { s.meter with cursor := s.meter.cursor + 1 } }
  else { s with meter := { s.meter with cursor := 0, running := false } }

/-- R139: a minute tick reaches the Meter Engine. -/
def meterTick (s : State) : State :=
  if s.meter.owed < 15 then { s with meter := { s.meter with owed := s.meter.owed + 1 } }
  else
    let s₁ := { s with meter := { s.meter with lost := saturate16 (s.meter.lost + 1) } }
    report .meterLag
      (logAppend .meterLag (if s₁.meter.running then s₁.meter.cursor else 0xFFFF) 15 s₁.meter.lost 0 s₁)

end Sys2Proof.Machine
end

