-- ==== Sys2Proof/Machine/RequestOps.lean ====
section
/-!
DEFINITION. Requests (chapter 2): taking a request from the head of the queue (R29), the gating by part state (R30), and
what each request does once it is handed to its owner (chapters 2, 7, 9 and 10).
-/

namespace Sys2Proof.Machine

/-- 12.4: the request codes. -/
inductive Request where
  | addElement | retireElement | setFeed | clearLatch | armEvent | disarmEvent | deskPurchase | cancelPurchase
  | closeNow | quiesce | resume
  deriving DecidableEq, Repr

/-- 12.4. -/
def Request.code : Request → Nat
  | .addElement => 1
  | .retireElement => 2
  | .setFeed => 3
  | .clearLatch => 4
  | .armEvent => 5
  | .disarmEvent => 6
  | .deskPurchase => 7
  | .cancelPurchase => 8
  | .closeNow => 9
  | .quiesce => 10
  | .resume => 11

/-- R30: the part states in which a request is allowed. -/
def Request.allowed : Request → PartState → Bool
  | .deskPurchase, p => decide (p = .serving)
  | .cancelPurchase, p => decide (p = .serving)
  | .resume, p => decide (p = .quiescing) || decide (p = .quiesced)
  | _, p => decide (p = .serving) || decide (p = .quiescing) || decide (p = .quiesced)

/-- Argument A of a slot. -/
def argA (s : State) (n : Nat) : Nat := (rd s (requestWord n 1)).toNat

/-- Argument B of a slot. -/
def argB (s : State) (n : Nat) : Nat := (rd s (requestWord n 2)).toNat

/-- The result word of a slot, as an input. -/
def argResult (s : State) (n : Nat) : Nat := (rd s (requestWord n 3)).toNat

/-- R29: the slot number leaves the head of the queue. -/
def popRequest (s : State) : State := { s with part := { s.part with queue := s.part.queue.drop 1 } }

/-- R29: the Request Engine takes the request at the head of the queue, when the part is not STARTING, if its code is the
one asked for. Otherwise this is not the request's turn and nothing comes of it. -/
def takeRequest (code : Nat → Bool) (body : Nat → State → State) (s : State) : State :=
  match s.part.queue with
  | [] => s
  | n :: _ => if started s = true ∧ code (requestCode s n) = true then body n (popRequest s) else s

/-- R29 steps 2 and 3: in a part state that does not allow the request it ends FAILED with WRONG_STATE; otherwise the code
word is written IN_PROGRESS with error code OK and the request is handed to its owner. -/
def gateRequest (r : Request) (owner : Nat → State → State) (n : Nat) (s : State) : State :=
  if r.allowed s.part.state then owner n (writeRequestStatus n statusInProgress .ok s) else endFailed n .wrongState s

/-- R29: a request that its owner carries out. -/
def carryOut (r : Request) (owner : Nat → State → State) (s : State) : State :=
  takeRequest (fun c => decide (c = r.code)) (gateRequest r owner) s

/-- 12.4: codes 0 and 12 to 255 name no request. -/
def namesNoRequest (c : Nat) : Bool := decide (c = 0) || decide (11 < c)

/-- R29 step 1: a code that names no request. -/
def failUnknown (s : State) : State := takeRequest namesNoRequest (fun n t => endFailed n .unknownCode t) s

/-! Topology requests (7.8). -/

/-- An index from 1 to 255. -/
def isElementIndex (i : Nat) : Bool := decide (1 ≤ i) && decide (i ≤ 255)

/-- R122: the transponder address is 0 or that of an element in use. -/
def addressTaken (t : Tree) (a : Nat) : Bool := decide (a = 0) || t.any fun p => decide (p.2.address = a)

/-- R122: the tests of ADD_ELEMENT, in order. -/
def addFault (s : State) (i address parent : Nat) : Option RequestError :=
  let t := s.plant.tree
  if isElementIndex i = false ∨ 255 < parent then some .badIndex
  else if elementInUse t i then some .inUse
  else if addressTaken t address then some .duplicateAddress
  else if elementInUse t parent = false then some .notInUse
  else if 8 ≤ depthOf t parent then some .tooDeep
  else none

/-- R122: the record of an added element, its outage start stamp with a pair write (R16). -/
def writeElement (i address parent : Nat) (s : State) : State :=
  let s₁ := wrAll s
    [(elementWord i 0, wordOf address), (elementWord i 1, wordOf parent), (elementWord i 4, 1), (elementWord i 5, 0),
     (elementWord i 6, 0), (elementWord i 7, 0), (elementWord i 8, 0)]
  wrAll (wrPair s₁ (elementWord i 9) 0) [(elementWord i 11, 0), (elementWord i 12, 0)]

/-- R122: ADD_ELEMENT. -/
def addElement (n : Nat) (s : State) : State :=
  let i := argA s n
  let address := argB s n
  let parent := argResult s n
  match addFault s i address parent with
  | some e => endFailed n e s
  | none =>
    let s₁ := writeElement i address parent s
    let s₂ := { s₁ with plant := { s₁.plant with
      tree := tableSet s₁.plant.tree i { address := address, parent := parent, state := .unpolled } } }
    endDone n (depthOf s₂.plant.tree i) (logTopology i .add 0 parent s₂)

/-- R123: the tests of RETIRE_ELEMENT. -/
def retireFault (s : State) (i : Nat) : Option RequestError :=
  let t := s.plant.tree
  if isElementIndex i = false then some .badIndex
  else if elementInUse t i = false then some .notInUse
  else if t.any (fun p => decide (p.2.parent = i)) = true ∨ 0 < countOf s.order.direct i then some .hasDependents
  else none

/-- The outage counts without an element of a state. -/
def uncountState (st : ElementState) (s : State) : State :=
  match st with
  | .out => { s with plant := { s.plant with outCount := s.plant.outCount - 1 } }
  | .latchedOut => { s with plant := { s.plant with latchedCount := s.plant.latchedCount - 1 } }
  | .unpolled | .inService => s

/-- R123: an element leaves the tree. -/
def dropElement (i : Nat) (e : Element) (s : State) : State :=
  let s₁ := uncountState e.state (setWarnings i false false s)
  let s₂ := wrAll s₁ [(elementWord i 0, 0), (elementWord i 4, 0), (elementWord i 5, 0)]
  logTopology i .retire e.parent 0 { s₂ with plant := { s₂.plant with tree := tableErase s₂.plant.tree i } }

/-- R123: RETIRE_ELEMENT. -/
def retireElement (n : Nat) (s : State) : State :=
  let i := argA s n
  match retireFault s i, tableGet s.plant.tree i with
  | none, some e => endDone n 0 (dropElement i e s)
  | some f, _ => endFailed n f s
  | none, none => endFailed n .notInUse s

/-- R124: the tests of SET_FEED, in order. -/
def feedFault (s : State) (i parent : Nat) : Option RequestError :=
  let t := s.plant.tree
  if isElementIndex i = false ∨ 255 < parent then some .badIndex
  else if elementInUse t i = false ∨ elementInUse t parent = false then some .notInUse
  else if inSubtree t i parent then some .cycle
  else if 8 < depthOf t parent + levelsOf t i then some .tooDeep
  else none

/-- R124: an element moves with its subtree under a new parent. -/
def moveElement (i oldParent parent : Nat) (s : State) : State :=
  let dark := isDark s.plant.tree i
  let s₁ := wr { s with plant := { s.plant with tree := treeSetParent s.plant.tree i parent } }
    (elementWord i 1) (wordOf parent)
  let s₂ := logTopology i .setFeed oldParent parent s₁
  if dark then sweepIfLit i s₂ else s₂

/-- R124: SET_FEED. -/
def setFeed (n : Nat) (s : State) : State :=
  let i := argA s n
  let parent := argB s n
  match feedFault s i parent, tableGet s.plant.tree i with
  | none, some e =>
    if e.parent = parent then endDone n (depthOf s.plant.tree i) s
    else
      let s₁ := moveElement i e.parent parent s
      endDone n (depthOf s₁.plant.tree i) s₁
  | some f, _ => endFailed n f s
  | none, none => endFailed n .notInUse s

/-- R125: the tests of CLEAR_LATCH. -/
def latchFault (s : State) (i : Nat) : Option RequestError :=
  if isElementIndex i = false then some .badIndex
  else
    match tableGet s.plant.tree i with
    | none => some .notInUse
    | some e => if e.state = .latchedOut then none else some .notLatched

/-- R125: a LATCHED_OUT element is released. -/
def releaseLatch (i : Nat) (s : State) : State :=
  let s₁ := setCounter i 0 (setElementState i .unpolled s)
  let d := outageDuration s₁ i
  let s₂ := wr s₁ (elementWord i 11) (wordOf d)
  let s₃ := { s₂ with plant := { s₂.plant with latchedCount := s₂.plant.latchedCount - 1 } }
  sweepIfLit i (logAppend .unlatch i d (affected s₃ i) (addressOf s₃ i) s₃)

/-- R125: CLEAR_LATCH. -/
def clearLatch (n : Nat) (s : State) : State :=
  let i := argA s n
  match latchFault s i with
  | some e => endFailed n e s
  | none => endDone n 0 (releaseLatch i s)

/-! Event slot requests (9.2, 9.5, 9.6). -/

/-- R145: the tests of ARM_EVENT, in order. -/
def armFault (s : State) (k : Nat) : Option RequestError :=
  let start := rdPair s (slotWord k 0)
  let finish := rdPair s (slotWord k 2)
  let cutoff := (rd s (slotWord k 4)).toNat
  if 7 < k then some .badIndex
  else if s.clock.valid = false then some .timeInvalid
  else if finish ≤ start ∨ finish ≤ currentStamp s ∨ finish - start < cutoff then some .badTimes
  else if imageNamesSlot s k = false then some .noChannel
  else if slotState s k ≠ .idle then some .wrongState
  else none

/-- R145 step 1: the new event number; from 65535 it goes to 1. -/
def nextEvent (n : Nat) : Nat := if 65535 ≤ n then 1 else n + 1

/-- R145: a slot is armed. -/
def armSlot (k : Nat) (s : State) : State :=
  let stored := (rd s (slotWord k 7)).toNat
  let event := nextEvent stored
  let start := rdPair s (slotWord k 0)
  let st : SlotState := if currentStamp s < start then .open else .showing
  let a : ArmedSlot :=
    { state := st, event := event, startStamp := start, endStamp := rdPair s (slotWord k 2)
      cutoff := (rd s (slotWord k 4)).toNat, price := (rd s (slotWord k 5)).toNat }
  let s₁ := setArmed k a (if 65535 ≤ stored then wrapClear k s else s)
  setSlotTotals k 0 0 (wrAll s₁ [(slotWord k 6, wordOf st.code), (slotWord k 7, wordOf event)])

/-- R145: ARM_EVENT; the slot record is read in one held access. -/
def armEvent (n : Nat) (s₀ : State) : State :=
  let s := partRead s₀
  let k := argA s n
  match armFault s k with
  | some e => endFailed n e s
  | none => endDone n (nextEvent (rd s (slotWord k 7)).toNat) (armSlot k s)

/-- R147: the tests of DISARM_EVENT. -/
def disarmFault (s : State) (k : Nat) : Option RequestError :=
  if 7 < k then some .badIndex
  else
    match slotState s k with
    | .idle => some .wrongState
    | .closed => none
    | .open => if (rd s (slotWord k 8)).toNat = 0 then none else some .hasPurchases
    | .showing => some .hasPurchases

/-- R147: DISARM_EVENT. -/
def disarmEvent (n : Nat) (s : State) : State :=
  let k := argA s n
  match disarmFault s k with
  | some e => endFailed n e s
  | none => endDone n 0 (setSlotState k .idle s)

/-- R152: DESK_PURCHASE; a desk purchase carries token 0. -/
def deskPurchase (n : Nat) (s : State) : State :=
  let i := argA s n
  let k := argB s n
  if subscriberCount ≤ i ∨ 7 < k then endFailed n .badIndex s
  else
    match decidePurchase i k sourceDesk 0 s with
    | (s₁, .accepted seq) => endDone n seq s₁
    | (s₁, .refused e) => endFailed n e s₁

/-- R156 steps 1 to 4: a live purchase is cancelled, its journal position taken; the writes of steps 2 and 3 are one held
access. -/
def cancelEntry (i k j : Nat) (s : State) : State :=
  let price := (armedOf s k).price
  let s₁ := journalAppend .refund (purchaseWords i k (slotEvent s k) price sourceDesk 0) s
  let spent := (subRd s₁ i 13).toNat
  let s₂ := wrHeld s₁ [unmarkedEntry s₁ i j, (subscriberWord i 13, wordOf (spent - min price spent))]
  setSlotTotals k ((rd s₂ (slotWord k 8)).toNat - 1) (rdPair s₂ (slotWord k 9) - price) s₂

/-- R156: CANCEL_PURCHASE; the record is read in a held access. -/
def cancelPurchase (n : Nat) (s₀ : State) : State :=
  let s := partRead s₀
  let i := argA s n
  let k := argB s n
  if subscriberCount ≤ i ∨ 7 < k then endFailed n .badIndex s
  else if inUse s i = false then endFailed n .notInUse s
  else
    match slotState s k, livePlaceOf s i k with
    | .open, some j =>
      match takeJournal s with
      | (s₁, true) => endDone n (journalSequence s₁) (cancelEntry i k j s₁)
      | (s₁, false) => endFailed n .journalFull s₁
    | _, _ => endFailed n .notPurchasable s

/-! CLOSE_NOW, QUIESCE and RESUME. -/

/-- R29: a long request stays in progress. -/
def stayInProgress (n : Nat) (r : LongRequest) (s : State) : State :=
  { s with part := { s.part with inProgress := s.part.inProgress ++ [(n, r)] } }

/-- R161: CLOSE_NOW. -/
def closeNow (n : Nat) (s : State) : State :=
  match closeStatus s with
  | .idle => beginClose (some n) (stayInProgress n .closeNow s)
  | .closing => endFailed n .busy s

/-- R32: QUIESCE. At the entry to QUIESCING the RETRY candidates are given up (R102) and the quiet condition is tested. -/
def quiesce (n : Nat) (s : State) : State :=
  match s.part.state with
  | .serving =>
    let s₁ := stayInProgress n .quiesce s
    quietTest (giveUpCandidates { s₁ with part := { s₁.part with state := .quiescing } })
  | .quiescing => stayInProgress n .quiesce s
  | _ => endDone n s.order.held s

/-- R33: RESUME. -/
def resume (n : Nat) (s : State) : State :=
  let s₁ := enterServing s
  endDone n 0 ((quiesceSlots s₁).foldl (fun t m => endFailed m .superseded t) s₁)

/-! The request-slot scan (R31). -/

/-- R31: one slot of the scan. -/
def scanSlot (s : State) (n : Nat) : State :=
  if requestStatus s n = statusRequested then
    { s with part := { s.part with queue := s.part.queue ++ [n] } }
  else if requestStatus s n = statusInProgress then
    if requestCode s n = Request.closeNow.code then
      match closeStatus s with
      | .closing =>
        if s.close.bound.isSome then endFailed n .busy s
        else
          let s₁ := stayInProgress n .closeNow s
          { s₁ with close := { s₁.close with bound := some n } }
      | .idle => endDone n (closeNumber s) s
    else endFailed n .superseded s
  else s

/-- R31: the eight slots in ascending slot number; every code word is read. -/
def scanSlots (s : State) : State := (List.range 8).foldl scanSlot (partRead s)

end Sys2Proof.Machine
end

