-- ==== Sys2Proof/Machine/HostPath.lean ====
section
/-!
DEFINITION. The Memory Path Controller (chapter 1): the live block, host reads with the pair latch, and the write decision
with its observers.
-/

namespace Sys2Proof.Machine

/-! The live block (12.2). -/

/-- 12.2: the codes of the part state. -/
def PartState.code : PartState → Nat
  | .starting => 0
  | .unplanned => 1
  | .serving => 2
  | .quiescing => 3
  | .quiesced => 4

/-- 12.2: the part-state word. -/
def partStateWord (s : State) : Word :=
  wordOf (s.part.state.code + (if s.part.censusDone then 256 else 0) + (if s.plan.copy.isSome then 512 else 0) +
    (if s.plan.check.isSome then 1024 else 0) + (if s.lineup.edited then 2048 else 0) +
    (if s.lineup.check.isSome then 4096 else 0))

/-- R6: the squashed address; 0 while the latch is empty. -/
def squashAddress (s : State) : Nat :=
  match s.path.squash with
  | some (a, _) => a.toNat
  | none => 0

/-- R6: the squash reason word; NONE while the latch is empty. -/
def squashReasonWord (s : State) : Word :=
  match s.path.squash with
  | some (_, r) => wordOf r.code
  | none => 0

/-- 12.2: the live words 0x00000 to 0x00020, each as the part's state stands now (R3, R6, R34, R70, R89, R106, R111). -/
def liveWords (s : State) : List Word :=
  [Config.vendorCode, Config.partCodeAndRevision,
   Config.serial.extractLsb' 0 16, Config.serial.extractLsb' 16 16, Config.serial.extractLsb' 32 16,
   partStateWord s, s.flags,
   pairLowWord (squashAddress s), pairHighWord (squashAddress s), squashReasonWord s,
   clockControlWord s,
   clockWordValue s .seconds, clockWordValue s .minutes, clockWordValue s .hours,
   clockWordValue s .day, clockWordValue s .month, clockWordValue s .year,
   wordOf (closeStatus s).code, wordOf (closeCursor s), wordOf (closeNumber s),
   pairLowWord s.sched.framesSent.toNat, pairHighWord s.sched.framesSent.toNat,
   pairLowWord s.tracker.matched.toNat, pairHighWord s.tracker.matched.toNat,
   pairLowWord s.receiver.badFrames.toNat, pairHighWord s.receiver.badFrames.toNat,
   wordOf s.sched.queue.length, wordOf s.sched.deferred.length, wordOf s.tracker.table.length,
   wordOf s.sched.sweeps.length, wordOf s.order.unreached, wordOf s.order.held, wordOf s.plant.outCount]

/-- R3: what a read of a live word returns; a live word with no content reads 0. -/
def liveWord (s : State) (a : Nat) : Word := (liveWords s).getD a 0

/-! Host reads. -/

/-- R12: the pair latch takes a pair's identity and its high word. -/
def capturePair (a : Addr) (high : Word) (s : State) : State :=
  { s with path := { s.path with pair := some (a, high) } }

/-- R13: the pair latch is emptied. -/
def releasePair (s : State) : State := { s with path := { s.path with pair := none } }

/-- R13: what the pair latch serves for an address: its high word, for the high word of the pair it holds. -/
def pairServes (s : State) (a : Addr) : Option Word :=
  match s.path.pair with
  | some (p, h) => if isPairLow p.toNat = true ∧ p.toNat + 1 = a.toNat then some h else none
  | none => none

/-- R3, R6, R12, R137, R178: the effects of a read of a live word. -/
def liveReadEffect (a : Addr) (l : Lanes) (s : State) : State :=
  let n := a.toNat
  if n = 0x06 then { s with flags := flagsAfterRead s l }
  else if n = 0x09 then (if l.lower then { s with path := { s.path with squash := none } } else s)
  else if n = 0x0B then { s with clock := { s.clock with snapshot := some s.clock.now } }
  else if n = 0x10 then { s with clock := { s.clock with snapshot := none } }
  else if isPairLow n then capturePair a (liveWord s (n + 1)) s
  else s

/-- R3: a read of a live word that the pair latch does not serve. -/
def liveRead (a : Addr) (l : Lanes) (s : State) : State := liveReadEffect a l (drive s l (liveWord s a.toNat))

/-- R12, R15: a read of a word from memory; the low word of a pair is read with its high word in one held access. -/
def memoryRead (a : Addr) (l : Lanes) (s : State) : State :=
  let s₁ := drive (grantPort .host s) l (rd s a.toNat)
  if isPairLow a.toNat then capturePair a (rd s (a.toNat + 1)) s₁ else s₁

/-- R1, R9, R13: a host read that the path takes. -/
def takenRead (a : Addr) (l : Lanes) (s : State) : State :=
  match pairServes s a with
  | some h => releasePair (drive s l h)
  | none => if inLiveBlock a.toNat then liveRead a l s else memoryRead a l s

/-- A host read. R1: with no lane strobed it returns all ones and has no effect. R17, R18: so does every read after a
power-fail warning and in a reset. A part without VCC takes no access. -/
def hostRead (a : Addr) (l : Lanes) (s : State) : State :=
  if s.power.vcc = false then s
  else if noLanes l = true ∨ running s = false then drive s l 0xFFFF
  else takenRead a l s

/-! Live writes (R3). -/

/-- R135 step 4: CLOCK_SET. `hold` is the stamp of the hold time and `valid` the VALID of before the release. -/
def logClockSet (hold : Nat) (valid : Bool) (s : State) : State :=
  logAppend .clockSet 0 (pairLowWord hold).toNat (pairHighWord hold).toNat (if valid then 1 else 0) s

/-- R135: the release of the SET hold. R27: in STARTING the Event Slot Unit notes it. -/
def releaseClock (s : State) : State :=
  let s₁ := logClockSet (stampOf s.clock.holdTime) s.clock.valid (releaseHold s)
  if s.part.state = .starting then { s₁ with slots := { s₁.slots with noted := true } }
  else settle (evaluateSlots (currentStamp s₁) s₁)

/-- R133: a write to the clock control word, merged with its live value; the Clock acts on a change of SET. -/
def writeClockControl (l : Lanes) (d : Word) (s : State) : State :=
  let set := (mergeLanes l (clockControlWord s) d).getLsbD 0
  if s.clock.set = false ∧ set = true then beginHold s
  else if s.clock.set = true ∧ set = false then releaseClock s
  else s

/-- R3: a write to a live word. -/
def liveWrite (a : Addr) (l : Lanes) (d : Word) (s : State) : State :=
  if a.toNat = 0x0A then writeClockControl l d s
  else
    match clockFieldAt a.toNat with
    | some f => if s.clock.set then storeClockWord f l d s else squash a .clockNotHeld s
    | none => squash a .readOnlyLive s

/-! Memory writes. -/

/-- R9: a PLAIN write. R20: one to a plan word may land between the reads of a running plan check. -/
def plainWrite (a : Addr) (l : Lanes) (d : Word) (s : State) : State :=
  hostStore (if isPlanWord a.toNat then advancePlanCheck s else s) a.toNat l d

/-- R10: a masked write; a zero mask writes nothing. -/
def maskedWrite (a : Addr) (l : Lanes) (d : Word) (s : State) : State :=
  if maskOf l d = 0 then s else hostStore s a.toNat bothLanes (maskedMerge l (rd s a.toNat) d)

/-- R28: a slot is queued or in progress. -/
def slotBusy (s : State) (n : Nat) : Bool :=
  decide (n ∈ s.part.queue) || s.part.inProgress.any fun p => decide (p.1 = n)

/-- R28: the Request Engine's verdict and action on a code word. -/
def writeRequestCode (a : Addr) (merged : Word) (s : State) : State :=
  let n := (a.toNat - 0x80) / 4
  if slotBusy s n then squash a .slotQueued (grantPort .host s)
  else
    let s₁ := hostStore s a.toNat bothLanes merged
    if field merged 8 3 = statusRequested then
      { s₁ with part := { s₁.part with queue := s₁.part.queue ++ [n] } }
    else s₁

/-- R168: journal space has been freed: a stalled close stalls no more. Its statement visit is the engine's next, made
afresh at a CLOSE_VISIT, and a purchase may take the position before it (log entry 13). -/
def freeStalled (s : State) : State := { s with close := { s.close with stalled := false } }

/-- R175: a tail write; one that advances the journal's tail frees space for a stalled close (R168). The copies are loaded
in every state in which an observed write is taken. -/
def writeTail (n : RingName) (a : Addr) (merged : Word) (s : State) : State :=
  match ringCopy s n with
  | none => hostStore s a.toNat bothLanes merged
  | some r =>
    let v := tailStored n r merged.toNat
    let s₁ := setTail n v (hostStore s a.toNat bothLanes (wordOf v))
    if n = .journal ∧ v ≠ r.tail then freeStalled s₁ else s₁

/-- R7, R8: an observed write, its lanes merged into the old word and given to the observer of its region. -/
def observedWrite (a : Addr) (merged : Word) (s : State) : State :=
  let n := a.toNat
  let stored := hostStore s n bothLanes merged
  if n = planCheckWord then startPlanCheck merged stored
  else if n < 0xA0 then writeRequestCode a merged s
  else if n < 0x120 then stored
  else if n = logTailWord then writeTail .log a merged s
  else if n = journalTailWord then writeTail .journal a merged s
  else if n < commitWord then lineupEdited ((n - 0x400) / 4) stored
  else if n = commitWord then startCommitCheck merged stored
  else if n < 0x2000 then stored
  else writeSubscriberWord a merged s

/-- R4: the write decision, for a write that the path takes: the first step that applies settles it. -/
def writeDecision (a : Addr) (l : Lanes) (d : Word) (s : State) : State :=
  if inLiveBlock a.toNat then liveWrite a l d s
  else if inHeadEndRecord a.toNat then squash a .headEndRecord s
  else if wordClass a.toNat = .plain then plainWrite a l d s
  else if s.part.state = .starting then squash a .starting s
  else
    match wordClass a.toNat with
    | .part => squash a .partWord s
    | .masked => maskedWrite a l d s
    | _ => observedWrite a (mergeLanes l (rd s a.toNat) d) s

/-- A host write. R1: with no lane strobed it has no effect. R17, R18: after a power-fail warning and in a reset it is
dropped. -/
def hostWrite (a : Addr) (l : Lanes) (d : Word) (s : State) : State :=
  if noLanes l = true ∨ running s = false then s else writeDecision a l d s

/-! WAIT (R15). -/

/-- R15: a host read asserts WAIT when it reads a word from memory. Between steps no access is in progress and WAIT is
low (log entry 3). -/
def waitsForRead (s : State) (a : Addr) (l : Lanes) : Bool :=
  running s && !noLanes l && !inLiveBlock a.toNat && (pairServes s a).isNone

/-- R15: a host write asserts WAIT when it passes a PLAIN write or performs an observed write, or a masked write with a
mask. -/
def waitsForWrite (s : State) (a : Addr) (l : Lanes) (d : Word) : Bool :=
  running s && !noLanes l && !inHeadEndRecord a.toNat &&
    match wordClass a.toNat with
    | .plain => true
    | .watched => decide (s.part.state ≠ .starting)
    | .masked => decide (s.part.state ≠ .starting) && decide (maskOf l d ≠ 0)
    | .part | .live => false

end Sys2Proof.Machine
end

