-- ==== Sys2Proof/Machine/LinkOps.lean ====
section
/-!
DEFINITION. The downstream link at work: the completion of a frame (R70), the building of the frame of each class at its
grant (R72 to R79, R84, R87, R88, R101, R104, R113), and the visits of the visit engine (R83 to R88).
-/

namespace Sys2Proof.Machine

/-! Completion (R70). -/

/-- R99: the completion of the acked frame of a pending entry in SENDING: its ack timeout starts. A frame whose entry is
gone starts nothing. -/
def startAckTimeout (tap port sequence : Nat) (s : State) : State :=
  updateEntry tap port
    (fun e =>
      if e.sequence = sequence ∧ e.phase = .sending then
        { e with phase := .awaiting, deadline := s.time + timeoutBits (planOf s).ackTimeout, completed := s.time }
      else e) s

/-- R113: the completion of the POLL frame: the outstanding poll, if still there, enters AWAITING with its deadline. -/
def startPollTimeout (s : State) : State :=
  match s.plant.poll with
  | some p =>
    { s with plant := { s.plant with poll := some { p with
        phase := .awaiting, completed := s.time, deadline := s.time + timeoutBits (planOf s).pollTimeout } } }
  | none => s

/-- R70 step 2: the completion is handed to the block that waits for it. -/
def handOn (h : HandOff) (s : State) : State :=
  match h with
  | .nobody => s
  | .poll => startPollTimeout s
  | .ack tap port sequence => startAckTimeout tap port sequence s

/-- R70: the frame being sent completes at `ends`: the counter, the hand-off, and the link IDLE. -/
def completeFrame (h : HandOff) (ends : Nat) (s : State) : State :=
  let s₁ := reach ends s
  settle (handOn h
    { s₁ with sched := { s₁.sched with link := .idle, framesSent := s₁.sched.framesSent + 1 } })

/-! Grants. Each is the build of the frame of a class that the arbiter has granted (R72). -/

/-- R74: the oldest reply. -/
def buildReply (s : State) : State :=
  match s.sched.replies with
  | [] => lapse s
  | r :: rest =>
    sendFrame (replyFrame r.tap r.port r.token r.result) .nobody
      { s with sched := { s.sched with replies := rest } }

/-- R75, R101: a retry of a SUBSCRIBER entry, built from the record as it stands. The entry keeps its deadline and its
completion time until the frame completes (DESIGN CHOICE, log entry 39). -/
def retrySubscriber (e : PendingAck) (s : State) : State :=
  let i := e.subscriber
  if servable s i then
    let frame := authFor s i e.sequence
    let command := subCommand s i
    let s₁ := updateEntry e.tap e.port
      (fun x => { x with attempts := x.attempts + 1, command := command, phase := .sending }) s
    let st := subStatus s i
    sendFrame frame (.ack e.tap e.port e.sequence) (writeStatus i st { st with attempts := e.attempts + 1 } s₁)
  else lapse (freeWithLink e .settled s)

/-- R75, R101: a retry of a RETIRE entry, which reads no record. The entry keeps its deadline and its completion time until
the frame completes (DESIGN CHOICE, log entry 39). -/
def retryRetire (e : PendingAck) (s : State) : State :=
  sendFrame (offFrame e.tap e.port e.sequence) (.ack e.tap e.port e.sequence)
    (updateEntry e.tap e.port (fun x => { x with attempts := x.attempts + 1, phase := .sending }) s)

/-- R75: the candidate whose wait ended first. -/
def buildRetry (s : State) : State :=
  match firstCandidate s.tracker.table with
  | none => lapse s
  | some e =>
    match e.kind with
    | .subscriber => retrySubscriber e s
    | .retire => retryRetire e s

/-- R112: a sequence from 1 to 255 is followed by the next, wrapping from 255 to 1. -/
def sequenceAfter (q : Nat) : Nat := if 255 ≤ q then 1 else q + 1

/-- R113: the element chosen is polled. Step 4 gives the record no completion time and no deadline, which are set at the
completion of the frame; until then both are 0 (DESIGN CHOICE, log entry 39). -/
def pollElement (i : Nat) (s : State) : State :=
  let address := addressOf s i
  let q := s.plant.pollSequence
  let s₁ := wr s (elementWord i 6) 0
  sendFrame (pollFrame address q) .poll
    { s₁ with plant := { s₁.plant with
        pollPointer := nextIndex i, pollSequence := sequenceAfter q
        poll := some { index := i, address := address, sequence := q, phase := .sending, completed := 0, deadline := 0 } } }

/-- R112, R113: with no eligible element the grant lapses. -/
def buildPoll (s : State) : State :=
  match s.plant.poll, choosePoll s.plant.tree s.plant.pollPointer with
  | none, some i => pollElement i s
  | _, _ => lapse s

/-- R104: the sequence of a new RETIRE entry: the counter's value, or the one after it if that is the avoided one. -/
def retireSequenceFor (counter avoided : Nat) : Nat := if counter = avoided then sequenceAfter counter else counter

/-- R104: the retire list with the entry of an address sent with a sequence. -/
def markSent (tap port q : Nat) (rs : List RetireEntry) : List RetireEntry :=
  rs.map fun r => if r.tap = tap ∧ r.port = port then { r with sent := true, lastSequence := some q } else r

/-- R77, R104: the oldest entry not yet sent. The deadline and the completion time of the new pending entry are 0 until its
frame completes (DESIGN CHOICE, log entry 39). -/
def buildRetire (s : State) : State :=
  match s.order.retires.find? (fun r => !r.sent) with
  | none => lapse s
  | some r =>
    let q := retireSequenceFor s.tracker.retireSequence r.avoided
    let e : PendingAck :=
      { kind := .retire, subscriber := r.subscriber, tap := r.tap, port := r.port, sequence := q, command := .off
        attempts := 1, phase := .sending, deadline := 0, completed := 0 }
    sendFrame (offFrame r.tap r.port q) (.ack r.tap r.port q)
      { s with
        tracker := { s.tracker with table := s.tracker.table ++ [e], retireSequence := sequenceAfter q }
        order := { s.order with retires := markSent r.tap r.port q s.order.retires } }

/-- R79 step 2: the sequence of a new frame, from the last sequence sent. The rules give word 9 the values 0 to 255 and do not
say what follows a value above 255, which only corrupted memory holds; the model takes it as 255, so the sequence is 1
(DESIGN CHOICE, log entry 37). -/
def serviceSequence (last : Nat) : Nat := if last = 0 ∨ 255 ≤ last then 1 else last + 1

/-- R79 steps 2 to 4: the subscriber at the head is served. The deadline and the completion time of the new pending entry are
0 until its frame completes (DESIGN CHOICE, log entry 39). -/
def serveSubscriber (i : Nat) (s : State) : State :=
  let q := serviceSequence (subRd s i 9).toNat
  let frame := authFor s i q
  let e : PendingAck :=
    { kind := .subscriber, subscriber := i, tap := subTap s i, port := subPort s i, sequence := q
      command := subCommand s i, attempts := 1, phase := .sending, deadline := 0, completed := 0 }
  let st := subStatus s i
  let s₁ := supersede i (wr s (subscriberWord i 9) (wordOf q))
  let s₂ := { s₁ with tracker := { s₁.tracker with table := s₁.tracker.table ++ [e] } }
  sendFrame frame (.ack e.tap e.port q) (writeStatus i st { st with link := .awaiting, attempts := 1 } s₂)

/-- R79, R80: the head of the queue is removed; with 32 or fewer left, refill follows. -/
def popQueue (rest : List Nat) (s : State) : State :=
  let s₁ := { s with sched := { s.sched with queue := rest } }
  unstopSweeps (if rest.length ≤ 32 then refill s₁ else s₁)

/-- R79: the IMMEDIATE grant. The record read of step 1 is made whether or not the grant lapses (R72). -/
def buildImmediate (s : State) : State :=
  match s.sched.queue with
  | [] => lapse s
  | i :: rest =>
    let s₁ := popQueue rest (partRead s)
    if servable s₁ i then serveSubscriber i s₁ else lapse s₁

/-- The oldest sweep that satisfies `p` is changed. -/
def updateFirstSweep (p : Sweep → Bool) (f : Sweep → Sweep) : List Sweep → List Sweep
  | [] => []
  | w :: t => if p w then f w :: t else w :: updateFirstSweep p f t

/-- R84, R85: sweeps whose cursor stands at 4096 with no frame held have ended. -/
def sweepEnded (w : Sweep) : Bool := decide (subscriberCount ≤ w.cursor) && !sweepHolds w

/-- R84, R85: ended sweeps leave the table. -/
def removeEndedSweeps (s : State) : State :=
  { s with sched := { s.sched with sweeps := s.sched.sweeps.filter fun w => !sweepEnded w } }

/-- R84: an unacked AUTH frame for a held subscriber, by the record read of its build (R72); a record no longer served makes
the grant lapse. -/
def sendUnacked (i : Nat) (s : State) : State :=
  if servable s i then sendFrame (authFor s i 0) .nobody (partRead s) else lapse (partRead s)

/-- R48: MAP frame `n` of a batch. While no image is valid no MAP frame is built (R49). -/
def sendMap (n : Nat) (s : State) : State :=
  match s.lineup.image with
  | some im => sendFrame (mapFor im n) .nobody s
  | none => lapse s

/-- R84: the oldest sweep that holds a frame gives it up. -/
def buildSweep (s : State) : State :=
  match s.sched.sweeps.find? sweepHolds with
  | none => lapse s
  | some w =>
    if w.kind = .lineup ∧ w.maps < 8 then
      sendMap w.maps
        { s with sched := { s.sched with
            sweeps := updateFirstSweep sweepHolds (fun v => { v with maps := v.maps + 1 }) s.sched.sweeps } }
    else
      match w.held with
      | some i =>
        sendUnacked i (removeEndedSweeps
          { s with sched := { s.sched with
              sweeps := updateFirstSweep sweepHolds (fun v => { v with held := none }) s.sched.sweeps } })
      | none => lapse s

/-- The refresh state is replaced. -/
def setRefresh (r : Refresh) (s : State) : State := { s with sched := { s.sched with refresh := r } }

/-- R87, R88: refresh's owed MAP frame, or the frame of its held subscriber. The rules give no order for a visit of record
4095 that both holds its subscriber and makes a batch owed: the eight MAP frames go first, and the subscriber stays held
(DESIGN CHOICE, log entry 33). -/
def buildRefresh (s : State) : State :=
  let r := s.sched.refresh
  if r.maps < 8 then sendMap r.maps (setRefresh { r with maps := r.maps + 1 } s)
  else
    match r.held with
    | some i => sendUnacked i (setRefresh { r with held := none } s)
    | none => lapse s

/-- R72: the build of a grant, by its class. -/
def buildFrame (c : FrameClass) (s : State) : State :=
  match c with
  | .reply => buildReply s
  | .retry => buildRetry s
  | .poll => buildPoll s
  | .retire => buildRetire s
  | .immediate => buildImmediate s
  | .sweep => buildSweep s
  | .refresh => buildRefresh s

/-- R72: the arbiter has granted the link to a class and the part is powered: the build is a record operation of its own,
which a power-fail warning and a reset let finish. Otherwise it is not this class's turn. -/
def grantStep (c : FrameClass) (build : State → State) (s : State) : State :=
  if s.power.vcc = true ∧ s.sched.link = .granted c then build s else s

/-- R73: a build in progress finishes. -/
def finishGrant (s : State) : State :=
  match s.sched.link with
  | .granted c => buildFrame c s
  | _ => s

/-! The visit engine (R83). -/

/-- R81: a requeue sweep. -/
def SweepKind.requeue : SweepKind → Bool
  | .restore _ | .resync => true
  | .lineup | .eventStart _ _ | .eventEnd _ _ => false

/-- R83: the first user: the oldest requeue sweep that is not stopped. -/
def wantsRequeue (w : Sweep) : Bool := w.kind.requeue && !w.stopped && decide (w.cursor < subscriberCount)

/-- R83: the second user: the oldest broadcast sweep that holds no frame and owes no MAP frame. -/
def wantsBroadcast (w : Sweep) : Bool := !w.kind.requeue && !sweepHolds w && decide (w.cursor < subscriberCount)

/-- R83: the third user: refresh, while it holds nothing, owes nothing and does not rest. -/
def refreshVisits (r : Refresh) : Bool := !refreshHolds r && !r.resting

/-- R83, R73: the visit engine runs. -/
def visitsRun (s : State) : Bool := running s && decide (s.part.state = .serving)

/-- R84: the predicate of a broadcast sweep. -/
def broadcastMatches (k : SweepKind) (s : State) (i : Nat) : Bool :=
  servable s i &&
    match k with
    | .lineup => true
    | .eventStart slot event | .eventEnd slot event => holdsEvent s i slot event
    | .restore _ | .resync => false

/-- R84: a visit of a broadcast sweep. -/
def visitBroadcast (s : State) (w : Sweep) : Sweep :=
  { w with cursor := w.cursor + 1, held := if broadcastMatches w.kind s w.cursor then some w.cursor else none }

/-- R85: the predicate of a requeue sweep. -/
def requeueMatches (k : SweepKind) (s : State) (i : Nat) : Bool :=
  let lit := !isDark s.plant.tree (subFeed s i)
  let status := (subStatus s i).link
  servable s i &&
    match k with
    | .restore e => decide (status = .held) && inSubtree s.plant.tree e (subFeed s i) && lit
    | .resync => decide (status = .unreached) || (decide (status = .held) && lit)
    | .lineup | .eventStart _ _ | .eventEnd _ _ => false

/-- The oldest sweep that satisfies `p` is changed in the table. -/
def changeSweep (p : Sweep → Bool) (f : Sweep → Sweep) (s : State) : State :=
  { s with sched := { s.sched with sweeps := updateFirstSweep p f s.sched.sweeps } }

/-- R85: a visit of a requeue sweep at record `i`. -/
def visitRequeue (w : Sweep) (s : State) : State :=
  let i := w.cursor
  let pass := changeSweep wantsRequeue (fun v => { v with cursor := v.cursor + 1 })
  if requeueMatches w.kind s i = false ∨ isWaiting s i = true then pass s
  else if s.sched.queue.length < queueCapacity then submit i (pass s)
  else changeSweep wantsRequeue (fun v => { v with stopped := true }) s

/-- R83: the engine's next visit, when it is a sweep's. Every visit reads its record in one held access. -/
def visitSweep (s : State) : State :=
  match s.sched.sweeps.find? wantsRequeue with
  | some w => settle (removeEndedSweeps (visitRequeue w (partRead s)))
  | none =>
    match s.sched.sweeps.find? wantsBroadcast with
    | some _ => settle (removeEndedSweeps (changeSweep wantsBroadcast (visitBroadcast s) (partRead s)))
    | none => s

/-- R83: some sweep has a visit to make. -/
def sweepWants (s : State) : Bool := s.sched.sweeps.any wantsRequeue || s.sched.sweeps.any wantsBroadcast

/-- What a refresh visit does with a record (R87). -/
inductive RefreshOutcome where
  | passed | submitted | held
  deriving DecidableEq, Repr

/-- R87. -/
def refreshOutcome (s : State) (i : Nat) : RefreshOutcome :=
  let dark := isDark s.plant.tree (subFeed s i)
  let st := subStatus s i
  if servable s i = false then .passed
  else if isWaiting s i then .passed
  else
    match st.link with
    | .awaiting => .passed
    | .settled => .held
    | .unreached => if s.sched.queue.length < queueCapacity then .submitted else .held
    | .held => if dark then .passed else if s.sched.queue.length < queueCapacity then .submitted else .held

/-- R88: refresh after a visit: the cursor, the held frame, the count of visits, the batch owed at a wrap, and the rest. -/
def refreshAfter (imageValid : Bool) (o : RefreshOutcome) (r : Refresh) : Refresh :=
  let wraps := decide (subscriberCount ≤ r.cursor + 1)
  let cursor := if wraps then 0 else r.cursor + 1
  if wraps = true ∧ imageValid = true then
    { cursor := cursor, held := if o = .held then some r.cursor else none, maps := 0, resting := false, visits := 0 }
  else if o = .held then { r with cursor := cursor, held := some r.cursor, visits := 0 }
  else
    { r with cursor := cursor, visits := r.visits + 1, resting := decide (subscriberCount ≤ r.visits + 1) }

/-- R87: a refresh visit, its record read in one held access (R83). The submission of a subscriber ends refresh's rest, should this visit have begun one. -/
def visitRefresh (s : State) : State :=
  let r := s.sched.refresh
  let o := refreshOutcome s r.cursor
  let s₁ := setRefresh (refreshAfter s.lineup.image.isSome o r) (partRead s)
  settle (if o = .submitted then submit r.cursor s₁ else s₁)

end Sys2Proof.Machine
end

