-- ==== Sys2Proof/Machine/StartOps.lean ====
section
/-!
DEFINITION. Plan and line-up checks at their completion (R21, R39), the start-up sequence (R26, R27, R176), power fail and
reset (R17, R18, R24, R136), the Clock's second and the minute tick (R130, R131), and the arrival of an upstream frame.
-/

namespace Sys2Proof.Machine

/-! Start-up steps (R26). -/

/-- R26: the part is STARTING and runs, and step `k` comes next. -/
def atStartStep (k : Nat) (s : State) : Bool :=
  running s && decide (s.part.state = .starting) && decide (s.part.startStep = k)

/-- R26: the next start-up step begins. -/
def toStartStep (k : Nat) (s : State) : State := { s with part := { s.part with startStep := k } }

/-- R26: one whole start-up step. -/
def startStep (k : Nat) (work : State → State) (s : State) : State :=
  if atStartStep k s then toStartStep (k + 1) (work s) else s

/-- R26 step 2: the commit check with the stored commit word as its expected value. -/
def beginStartupCommit (s : State) : State := startCommitCheck (rd s commitWord) s

/-! The completion of checks. -/

/-- R21: what a completed check does to the part state. -/
def afterPlanCheck (r : PlanResult) (s : State) : State :=
  match s.part.state with
  | .starting => if s.part.startStep = 1 then beginStartupCommit (toStartStep 2 s) else s
  | .unplanned => if r = .ok then settle (enterServing s) else s
  | _ => s

/-- R20, R21: the running check reads the rest of the plan words and completes over the 63 it has read. -/
def completePlanCheck (c : PlanCheck) (s : State) : State :=
  let ws := c.words ++ planWordsFrom s c.words.length
  let r := planOutcome c.expected ws
  let s₁ := if r = .ok then loadWorkingCopy ws s else s
  let s₂ := { s₁ with plan := { s₁.plan with check := none, last := some r } }
  afterPlanCheck r (logAppend .planCommit 0 r.code c.expected.toNat (crcOfWords ws).toNat s₂)

/-- R118: newly disabled warnings are cleared from every element that holds one, in ascending index. -/
def clearDisabledWarnings (s : State) : State :=
  let slow := s.plant.clearSlow
  let standby := s.plant.clearStandby
  let s₁ := (s.plant.tree.map fun p => p.1).foldl (clearWarnings slow standby) s
  { s₁ with plant := { s₁.plant with clearSlow := false, clearStandby := false } }

/-- R39, R40: a commit check completes; at start-up step 2 the next step follows. -/
def endCommitCheck (expected : Word) (s : State) : State :=
  let s₁ := completeCommitCheck expected s
  settle (if atStartStep 2 s₁ then toStartStep 3 s₁ else s₁)

/-! The censuses and the end of start-up. -/

/-- R67, R69: one census visit; after record 4095 the direct counts are written and census done is set. -/
def censusStep (s : State) : State :=
  let i := s.part.censusCursor
  let s₁ := censusVisit i s
  if i + 1 < subscriberCount then { s₁ with part := { s₁.part with censusCursor := i + 1 } }
  else
    let s₂ := writeDirectCounts s₁
    { s₂ with part := { s₂.part with censusCursor := 0, censusDone := true, startStep := 5 } }

/-- 12.9: START detail 1. -/
def StartCause.code : StartCause → Nat
  | .powerUp => 0
  | .reset => 1

/-- 12.9, R176: START detail 2: the conditions found at start-up. -/
def startConditions (s : State) : Nat :=
  let bit (b : Bool) (k : Nat) : Nat := if b then 2 ^ k else 0
  bit s.part.backupLost 0 + bit s.writer.logEmptied 1 + bit s.writer.journalEmptied 2 + bit s.writer.logTailSet 3 +
    bit s.writer.journalTailSet 4 + bit s.close.resumed 5 + bit s.plan.copy.isNone 6

/-- R176: START. -/
def logStart (s : State) : State := logAppend .start 0 s.part.cause.code (startConditions s) 0 s

/-- R24: the part leaves STARTING. -/
def leaveStarting (s : State) : State :=
  if s.plan.copy.isSome then enterServing s else { s with part := { s.part with state := .unplanned } }

/-- R27: the Event Slot Unit and the Close Engine take the tick or release they noted, if VALID is then set; the close
alarm is tested only when the part enters SERVING. -/
def takeNoted (s : State) : State :=
  let s₁ := if s.slots.noted = true ∧ s.clock.valid = true then evaluateSlots (currentStamp s) s else s
  let s₂ := if s.close.noted = true ∧ s.part.state = .serving then testAlarm (tickNow s₁) s₁ else s₁
  { s₂ with slots := { s₂.slots with noted := false }, close := { s₂.close with noted := false } }

/-- R26, R179: the end of start-up: the flags whose conditions hold are latched, the part leaves STARTING, and the noted
ticks are taken. The rules have all this happen when step 9 completes. It is a command of its own here, STARTUP_END, and
others may come between the request-slot scan and it, which find the part STARTING still (DESIGN CHOICE, log entry 38). -/
def endStartup (s : State) : State := settle (takeNoted (leaveStarting (latch (conditions s) s)))

/-! Power and reset. -/

/-- R18, R24 and each block's own rule: internal state as it stands after power-up and after RESET, before the start-up
sequence begins. Memory, the backup domain of the Clock, the pins and what waits outside the part are kept. -/
def clearInternal (s : State) : State :=
  { State.reset with
    pending := s.pending
    mem := s.mem
    power := s.power
    port := { last := none, grant := none, waiting := [], inactive := s.port.inactive }
    bus := s.bus
    part := { State.reset.part with startStep := 0, backupLost := false }
    plan := { State.reset.plan with check := none }
    clock := { s.clock with snapshot := none, ticks := [] }
    time := s.time
    freeCount := s.freeCount }

/-- R24, R26, R17: the part enters STARTING and step 1 begins with the stored check word. With PWRFAIL asserted the
power-fail condition is entered at once and no step begins. -/
def enterStarting (cause : StartCause) (lost : Bool) (s : State) : State :=
  let s₁ := { s with
    power := { s.power with resetting := false, failing := s.power.pwrfailAsserted }
    port := { last := none, grant := none, waiting := [], inactive := false }
    part := { s.part with state := .starting, startStep := 1, cause := cause, backupLost := lost } }
  if s.power.pwrfailAsserted then s₁ else startPlanCheck (rd s₁ planCheckWord) s₁

/-- R24, R136: power-up. -/
def powerUpPart (s : State) : State :=
  let s₁ := clearInternal { s with
    power := { s.power with vcc := true, resetting := false, failing := false }
    clock := clockAtPowerUp s.clock }
  enterStarting .powerUp (!s.clock.backupIntact) s₁

/-- R20, R43, R142: what a power-fail warning and a reset abandon: the running checks, the pass between its visits, and
the ticks owed. The cursor of the abandoned pass is put to 0 (DESIGN CHOICE, log entry 31). -/
def abandonWork (s : State) : State :=
  { s with
    plan := { s.plan with check := none }
    lineup := { s.lineup with check := none, candidate := [] }
    meter := { s.meter with owed := 0, running := false, cursor := 0 } }

/-- R17: a power-fail warning. The record operation a grant has begun is finished, and a host access that waits for the
port is completed without one. -/
def assertPwrfail (s : State) : State :=
  let s₁ := { s with power := { s.power with pwrfailAsserted := true } }
  if running s then
    finishGrant (abandonWork { s₁ with
      power := { s₁.power with failing := true }, port := dropHostRequest s.port })
  else s₁

/-- R18, R73: RESET asserts: the record operation a grant has begun is finished and its frame is not sent, the link stops,
the port is idled, and internal state is cleared. -/
def assertReset (s : State) : State :=
  if s.power.vcc then
    let s₁ := finishGrant { s with power := { s.power with resetting := true } }
    let s₂ := clearInternal s₁
    { s₂ with
      power := { s₂.power with failing := false }
      port := { last := none, grant := none, waiting := [], inactive := true } }
  else s

/-- R130: VCC goes absent: internal state is lost, and the backup domain is kept. -/
def losePower (s : State) : State :=
  let s₁ := clearInternal s
  { s₁ with
    power := { s₁.power with vcc := false, resetting := false, failing := false }
    port := { last := none, grant := none, waiting := [], inactive := false } }

/-! The Clock (R130, R131). -/

/-- R131: the part can receive a tick. -/
def takesTicks (s : State) : Bool := s.power.vcc && !s.power.resetting

/-- R130: the clock counts: SET is clear, and it is powered. -/
def clockCounts (s : State) : Bool := !s.clock.set && (s.power.vcc || s.clock.backupIntact)

/-- R130, R131: a whole second: the fields count, and the roll of the seconds from 59 to 0 produces a minute tick, which
carries the fields after the roll. -/
def countSecond (s : State) : State :=
  let c := nextSecond s.clock.now
  let rolled := decide (c.seconds = 0) && takesTicks s
  { s with clock := { s.clock with
      now := c
      ticks := if rolled then s.clock.ticks ++ [{ fields := c, valid := s.clock.valid }] else s.clock.ticks } }

/-- R131, R27: a tick that finds VALID set is taken by the Event Slot Unit and the Close Engine, or noted in STARTING. They
judge it by the fields it carries, those after its roll (R131, R138). -/
def validTick (k : Tick) (s : State) : State :=
  if k.valid = false then s
  else if s.part.state = .starting then
    { s with slots := { s.slots with noted := true }, close := { s.close with noted := true } }
  else testAlarm k (evaluateSlots (stampOf k.fields) s)

/-- R131, R17: a minute tick, the others waiting being `rest`, is handed to its receivers; after a power-fail warning no
receiver takes it. -/
def handTick (k : Tick) (rest : List Tick) (s : State) : State :=
  let s₁ := { s with clock := { s.clock with ticks := rest } }
  if running s then settle (validTick k (meterTick s₁)) else s₁

/-! Upstream frames (R91, R92). -/

/-- R92: the frame is judged and counted, and a good one is handed to its owner. -/
def judgeAndHand (f : UpFrame) (s : State) : State :=
  match judgeFrame f with
  | .bad => takeBadFrame s
  | .ack tap port sequence result => takeGoodFrame (takeAck tap port sequence result) s
  | .status address sequence status => takeGoodFrame (takeStatus address sequence status) s
  | .buy tap port slot token => takeGoodFrame (takeBuy tap port slot token) s

/-- R95: the frame began after the line had rested: the receiver has seen the line rest, or the line had been at mark for
`restBits` bit times when the frame began (log entry 30). -/
def frameSeen (f : UpFrame) (s : State) : Bool := s.receiver.rested || decide (restBits ≤ f.idle)

/-- R95: the line rests at the end of every frame and before one that the receiver sees (R91). -/
def lineRests (s : State) : State := { s with receiver := { s.receiver with rested := true } }

/-- R91, R95: an upstream frame has ended. The receiver runs after a power-fail warning too, but not in a reset. A frame
that was under way when the receiver came out of its reset is not collected: it is discarded uncounted. -/
def receiveFrame (f : UpFrame) (s : State) : State :=
  if s.power.vcc = true ∧ s.power.resetting = false then
    (if frameSeen f s then judgeAndHand f (lineRests s) else lineRests s)
  else s

end Sys2Proof.Machine
end

