-- ==== Sys2Proof/Machine/HostRows.lean ====
section
/-!
DEFINITION. The rows of the opcode table that are host accesses of chapters 1, 8 and 11. Each is a whole host access at the
address its row names. `latchArisen` adds the flags whose conditions the access made arise (R177).
-/

namespace Sys2Proof.Machine

/-- HOST_WRITE (R4). -/
def execHostWrite (a : Addr) (l : Lanes) (d : Word) (s : State) : Host.Outcome State Fault Refusal :=
  .next (latchArisen s (hostWrite a l d s))

/-- MASKED_WRITE (R10). -/
def execMaskedWrite (n : NoticeWord) (l : Lanes) (d : Word) (s : State) : Host.Outcome State Fault Refusal :=
  .next (latchArisen s (hostWrite (addrOf (noticeAddress n)) l d s))

/-- SQUASH_REASON_READ (R6). -/
def execSquashReasonRead (l : Lanes) (s : State) : Host.Outcome State Fault Refusal :=
  .next (hostRead (addrOf 0x09) l s)

/-- PAIR_LOW_READ (R12). -/
def execPairLowRead (a : Addr) (l : Lanes) (s : State) : Host.Outcome State Fault Refusal :=
  .next (hostRead a l s)

/-- PAIR_HIGH_READ (R13). -/
def execPairHighRead (a : Addr) (l : Lanes) (s : State) : Host.Outcome State Fault Refusal :=
  .next (hostRead a l s)

/-- CLUSTER_FLAG_READ (R178). -/
def execClusterFlagRead (l : Lanes) (s : State) : Host.Outcome State Fault Refusal :=
  .next (hostRead (addrOf 0x06) l s)

/-- CLOCK_SECONDS_READ (R137). -/
def execClockSecondsRead (l : Lanes) (s : State) : Host.Outcome State Fault Refusal :=
  .next (hostRead (addrOf 0x0B) l s)

/-- CLOCK_YEAR_READ (R137). -/
def execClockYearRead (l : Lanes) (s : State) : Host.Outcome State Fault Refusal :=
  .next (hostRead (addrOf 0x10) l s)

/-- CLOCK_CONTROL_WRITE (R133, R135). -/
def execClockControlWrite (l : Lanes) (d : Word) (s : State) : Host.Outcome State Fault Refusal :=
  .next (latchArisen s (hostWrite (addrOf 0x0A) l d s))

/-- CLOCK_WORD_WRITE (R134). -/
def execClockWordWrite (f : ClockField) (l : Lanes) (d : Word) (s : State) : Host.Outcome State Fault Refusal :=
  .next (latchArisen s (hostWrite (addrOf (clockFieldAddress f)) l d s))

end Sys2Proof.Machine
end

