-- ==== Sys2Proof/Machine/LinkRows.lean ====
section
/-!
DEFINITION. The rows of the downstream link (chapter 5): the completion of a frame, the build of each class's grant, and the
visits of the visit engine.
-/

namespace Sys2Proof.Machine

/-- FRAME_COMPLETION (R70). A frame in flight is sent to completion after a power-fail warning too (R73). -/
def execFrameCompletion (s : State) : Host.Outcome State Fault Refusal :=
  match s.sched.link with
  | .sending _ h ends => .next (latchArisen s (if s.power.vcc then completeFrame h ends s else s))
  | _ => .next s

/-- REPLY_GRANT (R74). -/
def execReplyGrant (s : State) : Host.Outcome State Fault Refusal :=
  .next (latchArisen s (grantStep .reply buildReply s))

/-- RETRY_GRANT (R75). -/
def execRetryGrant (s : State) : Host.Outcome State Fault Refusal :=
  .next (latchArisen s (grantStep .retry buildRetry s))

/-- POLL_GRANT (R113). -/
def execPollGrant (s : State) : Host.Outcome State Fault Refusal :=
  .next (latchArisen s (grantStep .poll buildPoll s))

/-- RETIRE_GRANT (R104). -/
def execRetireGrant (s : State) : Host.Outcome State Fault Refusal :=
  .next (latchArisen s (grantStep .retire buildRetire s))

/-- IMMEDIATE_GRANT (R79). -/
def execImmediateGrant (s : State) : Host.Outcome State Fault Refusal :=
  .next (latchArisen s (grantStep .immediate buildImmediate s))

/-- SWEEP_GRANT (R84). -/
def execSweepGrant (s : State) : Host.Outcome State Fault Refusal :=
  .next (latchArisen s (grantStep .sweep buildSweep s))

/-- REFRESH_GRANT (R88). -/
def execRefreshGrant (s : State) : Host.Outcome State Fault Refusal :=
  .next (latchArisen s (grantStep .refresh buildRefresh s))

/-- SWEEP_VISIT (R84, R85). -/
def execSweepVisit (s : State) : Host.Outcome State Fault Refusal :=
  .next (latchArisen s (if visitsRun s then visitSweep s else s))

/-- REFRESH_VISIT (R87). Refresh is the last user of the visit engine (R83). -/
def execRefreshVisit (s : State) : Host.Outcome State Fault Refusal :=
  .next (latchArisen s
    (if visitsRun s = true ∧ sweepWants s = false ∧ refreshVisits s.sched.refresh = true then visitRefresh s else s))

end Sys2Proof.Machine
end

