-- ==== Sys2Proof/Machine/PlanRows.lean ====
section
/-!
DEFINITION. The rows of the Plan Checker and of the Line-Up Unit (chapters 2 and 3), and the warnings a new plan clears
(R118).
-/

namespace Sys2Proof.Machine

/-- PLAN_CHECK_WORD_WRITE (R20). -/
def execPlanCheckWordWrite (l : Lanes) (d : Word) (s : State) : Host.Outcome State Fault Refusal :=
  .next (latchArisen s (hostWrite (addrOf planCheckWord) l d s))

/-- PLAN_CHECK_COMPLETE (R21). -/
def execPlanCheckComplete (s : State) : Host.Outcome State Fault Refusal :=
  match s.plan.check with
  | some c => .next (latchArisen s (if running s then completePlanCheck c s else s))
  | none => .next s

/-- WARNING_DISABLE_CLEAR (R118). -/
def execWarningDisableClear (s : State) : Host.Outcome State Fault Refusal :=
  .next (latchArisen s
    (if running s = true ∧ (s.plant.clearSlow || s.plant.clearStandby) = true then clearDisabledWarnings s else s))

/-- LINEUP_WORD_WRITE (R36, R41): word `k` of the line-up table. -/
def execLineupWordWrite (k : Fin 384) (l : Lanes) (d : Word) (s : State) : Host.Outcome State Fault Refusal :=
  .next (latchArisen s (hostWrite (addrOf (0x400 + k.val)) l d s))

/-- COMMIT_WORD_WRITE (R37). -/
def execCommitWordWrite (l : Lanes) (d : Word) (s : State) : Host.Outcome State Fault Refusal :=
  .next (latchArisen s (hostWrite (addrOf commitWord) l d s))

/-- LINEUP_CHECK_COMPLETE (R39, R40). -/
def execLineupCheckComplete (s : State) : Host.Outcome State Fault Refusal :=
  match s.lineup.check with
  | some expected => .next (latchArisen s (if running s then endCommitCheck expected s else s))
  | none => .next s

end Sys2Proof.Machine
end

