-- ==== Sys2Proof/Machine/PowerRows.lean ====
section
/-!
DEFINITION. The rows of power, reset and pins (R17, R18, R24, R130, R136), and the steps of start-up (R26).
-/

namespace Sys2Proof.Machine

/-- POWER_UP (R24, R136). -/
def execPowerUp (s : State) : Host.Outcome State Fault Refusal :=
  .next (powerUpPart s)

/-- PWRFAIL (R17). -/
def execPwrfail (s : State) : Host.Outcome State Fault Refusal :=
  .next (latchArisen s (assertPwrfail s))

/-- POWER_FAIL_PORT_IDLE (R17). -/
def execPowerFailPortIdle (s : State) : Host.Outcome State Fault Refusal :=
  .next
    (if s.power.vcc = true ∧ s.power.failing = true then { s with port := { s.port with inactive := true } } else s)

/-- RESET (R18). -/
def execReset (s : State) : Host.Outcome State Fault Refusal :=
  .next (assertReset s)

/-- RESET_END (R18, R24). -/
def execResetEnd (s : State) : Host.Outcome State Fault Refusal :=
  .next (if takesTicks s then s else if s.power.vcc then enterStarting .reset false s else s)

/-- ELEMENT_CENSUS (R128). -/
def execElementCensus (s : State) : Host.Outcome State Fault Refusal :=
  .next (startStep 3 elementCensus s)

/-- SUBSCRIBER_CENSUS_VISIT (R67, R69). -/
def execSubscriberCensusVisit (s : State) : Host.Outcome State Fault Refusal :=
  .next (if atStartStep 4 s then censusStep s else s)

/-- SLOT_RELOAD (R149). -/
def execSlotReload (s : State) : Host.Outcome State Fault Refusal :=
  .next (startStep 5 reloadSlots s)

/-- RING_CONTROL_VALIDATION (R172). -/
def execRingControlValidation (s : State) : Host.Outcome State Fault Refusal :=
  .next (startStep 6 validateRings s)

/-- CLOSE_RESUMPTION (R170). -/
def execCloseResumption (s : State) : Host.Outcome State Fault Refusal :=
  .next (startStep 7 resumeClose s)

/-- START (R176). -/
def execStart (s : State) : Host.Outcome State Fault Refusal :=
  .next (startStep 8 logStart s)

/-- REQUEST_SLOT_SCAN (R31). -/
def execRequestSlotScan (s : State) : Host.Outcome State Fault Refusal :=
  .next (startStep 9 scanSlots s)

/-- STARTUP_END (R26, R27, R179). -/
def execStartupEnd (s : State) : Host.Outcome State Fault Refusal :=
  .next (latchArisen s (if atStartStep 10 s then endStartup s else s))

/-- PWRFAIL_RETURNING_HIGH (R17). -/
def execPwrfailReturningHigh (s : State) : Host.Outcome State Fault Refusal :=
  .next ({ s with power := { s.power with pwrfailAsserted := false } })

/-- POWER_LOSS (R130). -/
def execPowerLoss (s : State) : Host.Outcome State Fault Refusal :=
  .next (losePower s)

/-- BACKUP_INTACT_LATCH_CLEARED (R136): with VCC present the backup domain is powered and keeps its latch. -/
def execBackupIntactLatchCleared (s : State) : Host.Outcome State Fault Refusal :=
  .next (if s.power.vcc then s else { s with clock := { s.clock with backupIntact := false } })

end Sys2Proof.Machine
end

