-- ==== Sys2Proof/Machine/RequestRows.lean ====
section
/-!
DEFINITION. The rows of the Request Engine: the posting of a request (R28), and each request as it is taken from the head of
the queue (R29, R30). A request row acts when the request at the head is its own.
-/

namespace Sys2Proof.Machine

/-- REQUEST_CODE_WRITE (R28). -/
def execRequestCodeWrite (n : Fin 8) (l : Lanes) (d : Word) (s : State) : Host.Outcome State Fault Refusal :=
  .next (latchArisen s (hostWrite (addrOf (requestWord n.val 0)) l d s))

/-- UNKNOWN_CODE (R29). -/
def execUnknownCode (s : State) : Host.Outcome State Fault Refusal :=
  .next (latchArisen s (failUnknown s))

/-- ADD_ELEMENT (R122). -/
def execAddElement (s : State) : Host.Outcome State Fault Refusal :=
  .next (latchArisen s (carryOut .addElement (fun n t => settle (addElement n t)) s))

/-- RETIRE_ELEMENT (R123). -/
def execRetireElement (s : State) : Host.Outcome State Fault Refusal :=
  .next (latchArisen s (carryOut .retireElement (fun n t => settle (retireElement n t)) s))

/-- SET_FEED (R124). -/
def execSetFeed (s : State) : Host.Outcome State Fault Refusal :=
  .next (latchArisen s (carryOut .setFeed (fun n t => settle (setFeed n t)) s))

/-- CLEAR_LATCH (R125). -/
def execClearLatch (s : State) : Host.Outcome State Fault Refusal :=
  .next (latchArisen s (carryOut .clearLatch (fun n t => settle (clearLatch n t)) s))

/-- ARM_EVENT (R145, R146). -/
def execArmEvent (s : State) : Host.Outcome State Fault Refusal :=
  .next (latchArisen s (carryOut .armEvent (fun n t => settle (armEvent n t)) s))

/-- DISARM_EVENT (R147). -/
def execDisarmEvent (s : State) : Host.Outcome State Fault Refusal :=
  .next (latchArisen s (carryOut .disarmEvent (fun n t => settle (disarmEvent n t)) s))

/-- DESK_PURCHASE (R152). -/
def execDeskPurchase (s : State) : Host.Outcome State Fault Refusal :=
  .next (latchArisen s (carryOut .deskPurchase (fun n t => settle (deskPurchase n t)) s))

/-- CANCEL_PURCHASE (R156). -/
def execCancelPurchase (s : State) : Host.Outcome State Fault Refusal :=
  .next (latchArisen s (carryOut .cancelPurchase (fun n t => settle (cancelPurchase n t)) s))

/-- CLOSE_NOW (R161). -/
def execCloseNow (s : State) : Host.Outcome State Fault Refusal :=
  .next (latchArisen s (carryOut .closeNow (fun n t => settle (closeNow n t)) s))

/-- QUIESCE (R32). -/
def execQuiesce (s : State) : Host.Outcome State Fault Refusal :=
  .next (latchArisen s (carryOut .quiesce (fun n t => settle (quiesce n t)) s))

/-- RESUME (R33). -/
def execResume (s : State) : Host.Outcome State Fault Refusal :=
  .next (latchArisen s (carryOut .resume (fun n t => settle (resume n t)) s))

end Sys2Proof.Machine
end

