-- ==== Sys2Proof/Machine/ReturnRows.lean ====
section
/-!
DEFINITION. The rows of the return link (R92, R97, R114, R151) and of the deadlines of chapters 6 and 7. A frame is judged by
what it holds; the row is named by what the spec judges such a frame to be.
-/

namespace Sys2Proof.Machine

/-- BAD_UPSTREAM_FRAME (R92). -/
def execBadUpstreamFrame (f : UpFrame) (s : State) : Host.Outcome State Fault Refusal :=
  .next (latchArisen s (receiveFrame f s))

/-- ACK (R97). -/
def execAck (f : UpFrame) (s : State) : Host.Outcome State Fault Refusal :=
  .next (latchArisen s (receiveFrame f s))

/-- STATUS (R114). The frame arrives `dt` bit times after the command before. -/
def execStatus (dt : Nat) (f : UpFrame) (s : State) : Host.Outcome State Fault Refusal :=
  .next (latchArisen s (receiveFrame f (reach (s.time + dt) s)))

/-- BUY (R151). -/
def execBuy (f : UpFrame) (s : State) : Host.Outcome State Fault Refusal :=
  .next (latchArisen s (receiveFrame f s))

/-- ACK_TIMEOUT (R100, R105): the AWAITING entry whose deadline comes first. -/
def execAckTimeout (s : State) : Host.Outcome State Fault Refusal :=
  match earliest .awaiting s.tracker.table with
  | some e => .next (latchArisen s (if started s then settle (entryTimeout e (reach e.deadline s)) else s))
  | none => .next s

/-- RETRY_WAIT_END (R101): the WAITING entry whose wait ends first. -/
def execRetryWaitEnd (s : State) : Host.Outcome State Fault Refusal :=
  match earliest .waiting s.tracker.table with
  | some e => .next (latchArisen s (if started s then settle (entryWaitEnd e (reach e.deadline s)) else s))
  | none => .next s

/-- POLL_DUE (R112). -/
def execPollDue (s : State) : Host.Outcome State Fault Refusal :=
  .next (latchArisen s
    (if started s = true ∧ s.plant.poll = none ∧ someEligible s.plant.tree = true
     then settle (reach s.plant.nextPollDue s) else s))

/-- POLL_TIMEOUT (R115). -/
def execPollTimeout (s : State) : Host.Outcome State Fault Refusal :=
  match s.plant.poll with
  | some p =>
    .next (latchArisen s
      (if started s = true ∧ p.phase = .awaiting then endPollByTimeout p (reach p.deadline s) else s))
  | none => .next s

end Sys2Proof.Machine
end

