-- ==== Sys2Proof/Machine/SubscriberRows.lean ====
section
/-!
DEFINITION. The rows of the Order Monitor: writes to the watched words of a subscriber record (chapter 4), and the release of
ring records (R175). A write is judged by what it finds; the row is named by the kind the spec gives such a write.
-/

namespace Sys2Proof.Machine

/-- UNUSED_WRITE (R55). -/
def execUnusedWrite (i : Fin 4096) (w : DropWord) (l : Lanes) (d : Word) (s : State) :
    Host.Outcome State Fault Refusal :=
  .next (latchArisen s (hostWrite (addrOf (dropWordAddress i w)) l d s))

/-- ACTIVATION (R59). -/
def execActivation (i : Fin 4096) (l : Lanes) (d : Word) (s : State) : Host.Outcome State Fault Refusal :=
  .next (latchArisen s (hostWrite (addrOf (dropWordAddress i .tap)) l d s))

/-- MOVE (R60). -/
def execMove (i : Fin 4096) (w : DropWord) (l : Lanes) (d : Word) (s : State) : Host.Outcome State Fault Refusal :=
  .next (latchArisen s (hostWrite (addrOf (dropWordAddress i w)) l d s))

/-- RETIRE (R61). -/
def execRetire (i : Fin 4096) (l : Lanes) (d : Word) (s : State) : Host.Outcome State Fault Refusal :=
  .next (latchArisen s (hostWrite (addrOf (dropWordAddress i .tap)) l d s))

/-- REWRITE (R62). -/
def execRewrite (i : Fin 4096) (w : DropWord) (l : Lanes) (d : Word) (s : State) : Host.Outcome State Fault Refusal :=
  .next (latchArisen s (hostWrite (addrOf (dropWordAddress i w)) l d s))

/-- FEED_CHANGE (R63). -/
def execFeedChange (i : Fin 4096) (l : Lanes) (d : Word) (s : State) : Host.Outcome State Fault Refusal :=
  .next (latchArisen s (hostWrite (addrOf (subscriberWord i.val 2)) l d s))

/-- ORDER_WRITE (R64). -/
def execOrderWrite (i : Fin 4096) (w : OrderWord) (l : Lanes) (d : Word) (s : State) :
    Host.Outcome State Fault Refusal :=
  .next (latchArisen s (hostWrite (addrOf (orderWordAddress i w)) l d s))

/-- RING_TAIL_WRITE (R175). -/
def execRingTailWrite (r : RingName) (l : Lanes) (d : Word) (s : State) : Host.Outcome State Fault Refusal :=
  .next (latchArisen s (hostWrite (addrOf (tailAddress r)) l d s))

end Sys2Proof.Machine
end

