-- ==== Sys2Proof/Machine/TimeRows.lean ====
section
/-!
DEFINITION. The rows of the Clock, the Meter Engine and the Close Engine (chapters 8 and 10).
-/

namespace Sys2Proof.Machine

/-- CLOCK_SECOND (R130). -/
def execClockSecond (s : State) : Host.Outcome State Fault Refusal :=
  .next (if clockCounts s then countSecond s else s)

/-- MINUTE_TICK (R131): the oldest tick that waits. -/
def execMinuteTick (s : State) : Host.Outcome State Fault Refusal :=
  match s.clock.ticks with
  | k :: rest => .next (latchArisen s (if takesTicks s then handTick k rest s else s))
  | [] => .next s

/-- METER_PASS_START (R140). -/
def execMeterPassStart (s : State) : Host.Outcome State Fault Refusal :=
  .next
    (if started s = true ∧ 0 < s.meter.owed ∧ s.meter.running = false then
      { s with meter := { s.meter with owed := s.meter.owed - 1, running := true, cursor := 0 } }
     else s)

/-- METERING_VISIT (R141). -/
def execMeteringVisit (s : State) : Host.Outcome State Fault Refusal :=
  .next (if started s = true ∧ s.meter.running = true then advancePass (meterVisit s.meter.cursor s) else s)

/-- CLOSE_VISIT (R165, R169). -/
def execCloseVisit (s : State) : Host.Outcome State Fault Refusal :=
  .next (latchArisen s (closeStep s))

end Sys2Proof.Machine
end

