-- ==== Sys2Proof/Machine/Dispatch.lean ====
section
/-!
DEFINITION. The meaning of every command: one arm per row of the opcode table.
-/

namespace Sys2Proof.Machine

/-- What a command does to everything but the queue it waits in. -/
def exec (i : Instr) (s : State) : Host.Outcome State Fault Refusal :=
  match i with
  | .hostWrite a l d => Sys2Proof.Machine.execHostWrite a l d s
  | .maskedWrite n l d => Sys2Proof.Machine.execMaskedWrite n l d s
  | .squashReasonRead l => Sys2Proof.Machine.execSquashReasonRead l s
  | .pairLowRead a l => Sys2Proof.Machine.execPairLowRead a l s
  | .pairHighRead a l => Sys2Proof.Machine.execPairHighRead a l s
  | .clusterFlagRead l => Sys2Proof.Machine.execClusterFlagRead l s
  | .clockSecondsRead l => Sys2Proof.Machine.execClockSecondsRead l s
  | .clockYearRead l => Sys2Proof.Machine.execClockYearRead l s
  | .clockControlWrite l d => Sys2Proof.Machine.execClockControlWrite l d s
  | .clockWordWrite f l d => Sys2Proof.Machine.execClockWordWrite f l d s
  | .planCheckWordWrite l d => Sys2Proof.Machine.execPlanCheckWordWrite l d s
  | .planCheckComplete => Sys2Proof.Machine.execPlanCheckComplete s
  | .warningDisableClear => Sys2Proof.Machine.execWarningDisableClear s
  | .requestCodeWrite n l d => Sys2Proof.Machine.execRequestCodeWrite n l d s
  | .unknownCode => Sys2Proof.Machine.execUnknownCode s
  | .addElement => Sys2Proof.Machine.execAddElement s
  | .retireElement => Sys2Proof.Machine.execRetireElement s
  | .setFeed => Sys2Proof.Machine.execSetFeed s
  | .clearLatch => Sys2Proof.Machine.execClearLatch s
  | .armEvent => Sys2Proof.Machine.execArmEvent s
  | .disarmEvent => Sys2Proof.Machine.execDisarmEvent s
  | .deskPurchase => Sys2Proof.Machine.execDeskPurchase s
  | .cancelPurchase => Sys2Proof.Machine.execCancelPurchase s
  | .closeNow => Sys2Proof.Machine.execCloseNow s
  | .quiesce => Sys2Proof.Machine.execQuiesce s
  | .resume => Sys2Proof.Machine.execResume s
  | .unusedWrite index w l d => Sys2Proof.Machine.execUnusedWrite index w l d s
  | .activation index l d => Sys2Proof.Machine.execActivation index l d s
  | .move index w l d => Sys2Proof.Machine.execMove index w l d s
  | .retire index l d => Sys2Proof.Machine.execRetire index l d s
  | .rewrite index w l d => Sys2Proof.Machine.execRewrite index w l d s
  | .feedChange index l d => Sys2Proof.Machine.execFeedChange index l d s
  | .orderWrite index w l d => Sys2Proof.Machine.execOrderWrite index w l d s
  | .lineupWordWrite k l d => Sys2Proof.Machine.execLineupWordWrite k l d s
  | .commitWordWrite l d => Sys2Proof.Machine.execCommitWordWrite l d s
  | .lineupCheckComplete => Sys2Proof.Machine.execLineupCheckComplete s
  | .ringTailWrite r l d => Sys2Proof.Machine.execRingTailWrite r l d s
  | .frameCompletion => Sys2Proof.Machine.execFrameCompletion s
  | .replyGrant => Sys2Proof.Machine.execReplyGrant s
  | .retryGrant => Sys2Proof.Machine.execRetryGrant s
  | .pollGrant => Sys2Proof.Machine.execPollGrant s
  | .retireGrant => Sys2Proof.Machine.execRetireGrant s
  | .immediateGrant => Sys2Proof.Machine.execImmediateGrant s
  | .sweepGrant => Sys2Proof.Machine.execSweepGrant s
  | .refreshGrant => Sys2Proof.Machine.execRefreshGrant s
  | .sweepVisit => Sys2Proof.Machine.execSweepVisit s
  | .refreshVisit => Sys2Proof.Machine.execRefreshVisit s
  | .badUpstreamFrame f => Sys2Proof.Machine.execBadUpstreamFrame f s
  | .ack f => Sys2Proof.Machine.execAck f s
  | .status dt f => Sys2Proof.Machine.execStatus dt f s
  | .buy f => Sys2Proof.Machine.execBuy f s
  | .ackTimeout => Sys2Proof.Machine.execAckTimeout s
  | .retryWaitEnd => Sys2Proof.Machine.execRetryWaitEnd s
  | .pollDue => Sys2Proof.Machine.execPollDue s
  | .pollTimeout => Sys2Proof.Machine.execPollTimeout s
  | .clockSecond => Sys2Proof.Machine.execClockSecond s
  | .minuteTick => Sys2Proof.Machine.execMinuteTick s
  | .meterPassStart => Sys2Proof.Machine.execMeterPassStart s
  | .meteringVisit => Sys2Proof.Machine.execMeteringVisit s
  | .closeVisit => Sys2Proof.Machine.execCloseVisit s
  | .powerUp => Sys2Proof.Machine.execPowerUp s
  | .pwrfail => Sys2Proof.Machine.execPwrfail s
  | .powerFailPortIdle => Sys2Proof.Machine.execPowerFailPortIdle s
  | .reset => Sys2Proof.Machine.execReset s
  | .resetEnd => Sys2Proof.Machine.execResetEnd s
  | .elementCensus => Sys2Proof.Machine.execElementCensus s
  | .subscriberCensusVisit => Sys2Proof.Machine.execSubscriberCensusVisit s
  | .slotReload => Sys2Proof.Machine.execSlotReload s
  | .ringControlValidation => Sys2Proof.Machine.execRingControlValidation s
  | .closeResumption => Sys2Proof.Machine.execCloseResumption s
  | .start => Sys2Proof.Machine.execStart s
  | .requestSlotScan => Sys2Proof.Machine.execRequestSlotScan s
  | .startupEnd => Sys2Proof.Machine.execStartupEnd s
  | .pwrfailReturningHigh => Sys2Proof.Machine.execPwrfailReturningHigh s
  | .powerLoss => Sys2Proof.Machine.execPowerLoss s
  | .backupIntactLatchCleared => Sys2Proof.Machine.execBackupIntactLatchCleared s

end Sys2Proof.Machine
end

