-- ==== Sys2Proof/WellFormed.lean ====
section
/-!
DEFINITION. Which commands are well formed: the operands fit the row the command names. Operand ranges (a slot number, a
record index, an address) are carried by their types. A host access under another row's name, or an upstream frame of
another kind, is ill formed.
-/

namespace Sys2Proof

open Machine

/-- The write has no row of its own in the opcode table: it is in a PLAIN or PART word, in a live word other than the
clock control and clock words, or in a WATCHED word whose observer takes no action at the write (R4, R64, R108, R143). -/
def hasNoWriteRow (a : Nat) : Bool :=
  match wordClass a with
  | .plain | .part => true
  | .masked => false
  | .live => !(decide (a = 0x0A)) && (clockFieldAt a).isNone
  | .watched =>
    (decide (0xA0 ≤ a) && decide (a < 0x120)) || (decide (0x1000 ≤ a) && decide (a < 0x2000)) ||
      (decide (0x10000 ≤ a) && (decide (a % 32 = 4) || decide (a % 32 = 5)))

/-- The command is well formed. -/
def Instr.wellFormed : Instr → Bool
  | .hostWrite a _ _ => hasNoWriteRow a.toNat
  | .pairLowRead a _ => isPairLow a.toNat
  | .pairHighRead a _ => isPairHigh a.toNat
  | .badUpstreamFrame f => decide (judgeFrame f = .bad)
  | .ack f => match judgeFrame f with | .ack _ _ _ _ => true | _ => false
  | .status _ f => match judgeFrame f with | .status _ _ _ => true | _ => false
  | .buy f => match judgeFrame f with | .buy _ _ _ _ => true | _ => false
  | .maskedWrite .. | .squashReasonRead .. | .clusterFlagRead .. | .clockSecondsRead .. | .clockYearRead ..
  | .clockControlWrite .. | .clockWordWrite .. | .planCheckWordWrite .. | .planCheckComplete | .warningDisableClear
  | .requestCodeWrite .. | .unknownCode | .addElement | .retireElement | .setFeed | .clearLatch | .armEvent
  | .disarmEvent | .deskPurchase | .cancelPurchase | .closeNow | .quiesce | .resume | .unusedWrite ..
  | .activation .. | .move .. | .retire .. | .rewrite .. | .feedChange .. | .orderWrite .. | .lineupWordWrite ..
  | .commitWordWrite .. | .lineupCheckComplete | .ringTailWrite .. | .frameCompletion | .replyGrant | .retryGrant
  | .pollGrant | .retireGrant | .immediateGrant | .sweepGrant | .refreshGrant | .sweepVisit | .refreshVisit
  | .ackTimeout | .retryWaitEnd | .pollDue | .pollTimeout | .clockSecond | .minuteTick | .meterPassStart
  | .meteringVisit | .closeVisit | .powerUp | .pwrfail | .powerFailPortIdle | .reset | .resetEnd | .elementCensus
  | .subscriberCensusVisit | .slotReload | .ringControlValidation | .closeResumption | .start | .requestSlotScan
  | .startupEnd | .pwrfailReturningHigh | .powerLoss | .backupIntactLatchCleared => true

end Sys2Proof
end

