-- ==== Sys2Proof/Safety.lean ====
section
/-!
DEFINITION. The terms in which claims are stated: what a command leaves unchanged, how a command that prompts the arbiter
concludes, and the laws that every step keeps.
-/

namespace Sys2Proof.Machine

/-! Frames. -/

/-- Every word outside `ws` reads as before. A word is its two lanes, so every byte of those words does. -/
def WordsKept (ws : List Nat) (s t : State) : Prop := ∀ a, a ∉ ws → rd t a = rd s a

/-- Every word outside the places `p` reads as before. -/
def KeptOutside (p : Nat → Bool) (s t : State) : Prop := ∀ a, p a = false → rd t a = rd s a

/-- The state a command ends in when it left `u`, having started in `s`: the quiet condition is tested, the arbiter
decides, and the flags whose conditions arose are latched. -/
def concluded (s u : State) : State := latchArisen s (settle u)

/-- The flags follow the conditions and nothing else: those that arose are latched, and STARTING takes none (R177, R179). -/
def FlagsFollow (s t : State) : Prop :=
  t.flags = if t.part.state = .starting then s.flags else s.flags ||| (conditions t &&& ~~~(conditions s))

/-- Words of the rings and of the ring control, which appends to the log and the journal write. -/
def ringPlace (a : Nat) : Bool :=
  (decide (logHeadWord ≤ a) && decide (a ≤ journalSequenceWord)) || (decide (0x2000 ≤ a) && decide (a < 0x3000)) ||
    (decide (0x4000 ≤ a) && decide (a < 0x8000))

/-- The words in a list, and the words of the rings. -/
def withRings (ws : List Nat) (a : Nat) : Bool := decide (a ∈ ws) || ringPlace a

/-- What a host read of word `b` finds when the pair latch does not serve it: the live value or the word in memory. -/
def hostSees (s : State) (b : Nat) : Word := if inLiveBlock b then liveWord s b else rd s b

/-- 12.9, R176: the eight words of a log record stand at position `p`, with a sequence and the time and VALID of `s`. -/
def RecordAt (p sequence : Nat) (k : LogKind) (subject d₁ d₂ d₃ : Nat) (s t : State) : Prop :=
  rd t (logWord p 0) = wordOf (k.code + (if s.clock.valid then 32768 else 0)) ∧
  rd t (logWord p 1) = wordOf sequence ∧
  rdPair t (logWord p 2) = currentStamp s % 4294967296 ∧
  rd t (logWord p 4) = wordOf subject ∧ rd t (logWord p 5) = wordOf d₁ ∧
  rd t (logWord p 6) = wordOf d₂ ∧ rd t (logWord p 7) = wordOf d₃

/-- R173: the first record appended to a log that had room stands at the old head; others may follow it. -/
def LoggedFirst (k : LogKind) (subject d₁ d₂ d₃ : Nat) (s t : State) : Prop :=
  ∀ r j, s.writer.log = some r → s.writer.journal = some j → ringFull .log r = false →
    RecordAt r.head r.sequence k subject d₁ d₂ d₃ s t

/-- R173, R176: exactly one record was appended to a log that had room: its eight words at the old head, with the time
and VALID of `s`, and the head and the next sequence advanced. -/
def Logged (k : LogKind) (subject d₁ d₂ d₃ : Nat) (s t : State) : Prop :=
  ∀ r j, s.writer.log = some r → s.writer.journal = some j → ringFull .log r = false →
    RecordAt r.head r.sequence k subject d₁ d₂ d₃ s t ∧
    t.writer.log = some { head := (r.head + 1) % 512, tail := r.tail, sequence := nextSequence r.sequence } ∧
    rd t logHeadWord = wordOf ((r.head + 1) % 512) ∧ rd t logSequenceWord = wordOf (nextSequence r.sequence)

/-- 12.9, R173, R176: a journal record of kind `code` stands at position `p`: its sequence, the time and VALID of `s`, and its
words from word 4 on. -/
def JournalAt (p sequence code : Nat) (body : List Nat) (s t : State) : Prop :=
  rd t (journalWord p 0) = wordOf (code + (if s.clock.valid then 32768 else 0)) ∧
  rd t (journalWord p 1) = wordOf sequence ∧
  rdPair t (journalWord p 2) = currentStamp s % 4294967296 ∧
  ∀ w n, body[w]? = some n → rd t (journalWord p (4 + w)) = wordOf n

/-! Counts that follow the words written. -/

/-- R66: the part a status has in the count of a link status: 1 for a record with that link status and no conflict mark. -/
def linkCount (l : LinkStatus) (r : RecordStatus) : Nat := if r.link = l ∧ r.conflict = false then 1 else 0

/-- R66: the UNREACHED and the HELD count have followed a record's status from `old` to `new`. -/
def CountsMoved (old new : RecordStatus) (s t : State) : Prop :=
  t.order.unreached = s.order.unreached + linkCount .unreached new - linkCount .unreached old ∧
  t.order.held = s.order.held + linkCount .held new - linkCount .held old

/-- 12.7: the part an element's warnings word has in a count: bit 0 in that of SLOW, bit 1 in that of STANDBY. -/
def warningCount (s : State) (i b : Nat) : Nat := if (rd s (elementWord i 7)).getLsbD b then 1 else 0

/-- R127, R118: the SLOW and the STANDBY count have followed the warnings word of an element. -/
def WarningsMoved (i : Nat) (s t : State) : Prop :=
  t.plant.slowCount = s.plant.slowCount + warningCount t i 0 - warningCount s i 0 ∧
  t.plant.standbyCount = s.plant.standbyCount + warningCount t i 1 - warningCount s i 1

/-! The laws that every step keeps. -/

/-- R171, R172: the copies of a ring's head and tail name positions of the ring, and the copies of both rings are loaded
together. -/
def RingLaw (s : State) : Prop :=
  (∀ n r, ringCopy s n = some r → r.head < ringSize n ∧ r.tail < ringSize n) ∧
    (s.writer.log = none ↔ s.writer.journal = none)

/-- R14: between two commands the port is free and no request waits for it. The spec has the arbiter so after power-up and
after RESET; that it is so at the end of every command is the model's choice, since each command is whole (log entry 3). -/
def PortIdle (s : State) : Prop := s.port.grant = none ∧ s.port.waiting = []

/-- R78: a subscriber index is at most once in the immediate queue and never also in the deferred map. -/
def QueueLaw (s : State) : Prop := (s.sched.queue ++ s.sched.deferred).Nodup

/-- R54, R74, R78, R81: the tables hold no more than their capacities; the marks of the deferred map are listed rising, and
the refill pointer is a subscriber index (R80). -/
def CapacityLaw (s : State) : Prop :=
  s.sched.queue.length ≤ 64 ∧ s.sched.replies.length ≤ 8 ∧ s.sched.sweeps.length ≤ 4 ∧ s.order.retires.length ≤ 16 ∧
    s.sched.deferred.Pairwise (· < ·) ∧ s.sched.refillPointer < 4096

/-- R96: the pending-ack table holds no more than 16 entries, and a grant of RETIRE or IMMEDIATE that has been given finds a
place in it: a free one, or for IMMEDIATE that of an entry it supersedes (R71, R79). -/
def AckLaw (s : State) : Prop :=
  s.tracker.table.length ≤ 16 ∧
  (s.sched.link = .granted .retire → s.tracker.table.length < 16) ∧
  (s.sched.link = .granted .immediate → ∃ i rest, s.sched.queue = i :: rest ∧
    (s.tracker.table.length < 16 ∨ s.tracker.table.any (isEntryOf i) = true))

/-- R67, R81, R84 to R88, R112, R164: the cursors stay in their tables, and the map counts do not pass 8: the subscriber
census, refresh, every sweep, the poll pointer, and the close while it is CLOSING. -/
def CursorLaw (s : State) : Prop :=
  s.part.censusCursor < 4096 ∧ s.sched.refresh.cursor < 4096 ∧ s.sched.refresh.maps ≤ 8 ∧
  (∀ w ∈ s.sched.sweeps, w.cursor ≤ 4096 ∧ w.maps ≤ 8) ∧
  1 ≤ s.plant.pollPointer ∧ s.plant.pollPointer ≤ 255 ∧
  ∀ k, s.close.copy = some k → k.status = .closing → k.cursor ≤ 4096

/-- R32: a running part that is QUIESCING does not meet its quiet condition: at the event that makes it hold, the part
becomes QUIESCED. -/
def QuietLaw (s : State) : Prop := running s = true → s.part.state = .quiescing → isQuiet s = false

/-- R32: the commands at which a pending entry, an outstanding poll or the frame in flight can come to an end, so that the
quiet condition comes to hold: completions and lapses, upstream frames, deadlines, and the host writes to words 0 and 1 of a
record, which supersede and cancel entries (R58, R103). -/
def canQuiet (c : Instr) : Bool :=
  match c with
  | .frameCompletion | .replyGrant | .retryGrant | .pollGrant | .retireGrant | .immediateGrant | .sweepGrant
  | .refreshGrant | .badUpstreamFrame _ | .ack _ | .status _ _ | .buy _ | .ackTimeout | .retryWaitEnd | .pollTimeout
  | .hostWrite .. | .unusedWrite .. | .activation .. | .move .. | .retire .. | .rewrite .. => true
  | .maskedWrite .. | .squashReasonRead .. | .pairLowRead .. | .pairHighRead .. | .clusterFlagRead ..
  | .clockSecondsRead .. | .clockYearRead .. | .clockControlWrite .. | .clockWordWrite .. | .planCheckWordWrite ..
  | .planCheckComplete | .warningDisableClear | .requestCodeWrite .. | .unknownCode | .addElement | .retireElement
  | .setFeed | .clearLatch | .armEvent | .disarmEvent | .deskPurchase | .cancelPurchase | .closeNow | .quiesce | .resume
  | .feedChange .. | .orderWrite .. | .lineupWordWrite .. | .commitWordWrite .. | .lineupCheckComplete
  | .ringTailWrite .. | .sweepVisit | .refreshVisit | .pollDue | .clockSecond | .minuteTick | .meterPassStart
  | .meteringVisit | .closeVisit | .powerUp | .pwrfail | .powerFailPortIdle | .reset | .resetEnd | .elementCensus
  | .subscriberCensusVisit | .slotReload | .ringControlValidation | .closeResumption | .start | .requestSlotScan
  | .startupEnd | .pwrfailReturningHigh | .powerLoss | .backupIntactLatchCleared => false

/-- R109, R111, R112: the tree copy lists elements 1 to 255 rising, and an outstanding poll names one of those indices. -/
def PlantLaw (s : State) : Prop :=
  s.plant.tree.Pairwise (fun x y => x.1 < y.1) ∧ (∀ p ∈ s.plant.tree, 1 ≤ p.1 ∧ p.1 ≤ 255) ∧
    ∀ p, s.plant.poll = some p → 1 ≤ p.index ∧ p.index ≤ 255

/-- R139, R140: the owed count, the lost-tick count and the cursor of the pass. That the cursor is below 4096 between two
passes too is the model's choice (log entry 31). -/
def MeterLaw (s : State) : Prop := s.meter.owed ≤ 15 ∧ s.meter.lost ≤ 65535 ∧ s.meter.cursor < 4096

/-- R130: the fields of a time that has been counted, not stored by the host. -/
def CalendarLaw (c : Calendar) : Prop :=
  c.seconds ≤ 59 ∧ c.minutes ≤ 59 ∧ c.hours ≤ 23 ∧ 1 ≤ c.day ∧ c.day ≤ monthLength c.month c.year ∧
    1 ≤ c.month ∧ c.month ≤ 12 ∧ c.year ≤ 99

/-- R130, R134: the fields are a time of the calendar while SET is clear, and the hold time is one while SET is held. -/
def ClockLaw (s : State) : Prop :=
  if s.clock.set then CalendarLaw s.clock.holdTime else CalendarLaw s.clock.now

/-- R28, R31: a slot is at most once in the request queue or in progress, and the close's bound slot is a slot; in a reset the
part is STARTING, and until the scan of the slots nothing is queued or in progress. -/
def SlotLaw (s : State) : Prop :=
  (s.part.queue ++ s.part.inProgress.map Prod.fst).Nodup ∧
  (∀ n ∈ s.part.queue, n < 8) ∧ (∀ p ∈ s.part.inProgress, p.1 < 8) ∧ (∀ n, s.close.bound = some n → n < 8) ∧
  (s.power.resetting = true → s.part.state = .starting ∧ s.part.startStep ≤ 9) ∧
  (s.part.state = .starting → s.part.startStep ≤ 9 → s.part.queue = [] ∧ s.part.inProgress = [])

/-! The plant and the return link. -/

/-- R116, R117: the state and the counter that a result leaves, from the limit, the largest value M, the state and the
counter before it. -/
def bandAfter (r : PollResult) (limit m : Nat) (st : ElementState) (c : Nat) : ElementState × Nat :=
  let up := min (min c m + 2) m
  let down := min c m - 1
  match r, st with
  | .exhausted, _ => (.latchedOut, m)
  | _, .latchedOut => (.latchedOut, m)
  | .failed, .out => (.out, max up (2 * limit))
  | .failed, _ => if 2 * limit ≤ up then (.out, m) else (st, up)
  | .good, .out => if down < 2 * limit then (.inService, down) else (.out, down)
  | .good, _ => (.inService, if 2 * limit ≤ down then 2 * limit - 1 else down)

/-- R119 steps 1 and 2: the outage start stamp of an element is the current minute, or all ones while the time is not valid,
and its outage count has risen by one, stopping at 65535. -/
def OutageStamped (i : Nat) (s t : State) : Prop :=
  rdPair t (elementWord i 9) = (if s.clock.valid then currentStamp s % 4294967296 else 4294967295) ∧
  rd t (elementWord i 12) = wordOf (min ((rd s (elementWord i 12)).toNat + 1) 65535)

/-- R120 step 1: the duration of an element's outage if it ends now; 65535 is unknown. -/
def durationNow (s : State) (i : Nat) : Nat :=
  if rdPair s (elementWord i 9) = 4294967295 ∨ s.clock.valid = false ∨ currentStamp s < rdPair s (elementWord i 9) then 65535
  else min (currentStamp s - rdPair s (elementWord i 9)) 65535

/-- R94: the receiver's part after a good frame: one step down, the band's other side of the limit while not noisy; the line
has rested at the frame's end (R91). -/
def GoodStep (s t : State) : Prop :=
  t.receiver.badFrames = s.receiver.badFrames ∧ t.receiver.rested = true ∧
  (s.plan.copy = none → t.receiver = { s.receiver with rested := true }) ∧
  ∀ p c, s.plan.copy = some p → c = min s.receiver.noise (2 * (p.noiseLimit + p.noiseHold)) - 1 →
    (s.receiver.noisy = true → t.receiver.noise = c ∧ t.receiver.noisy = decide (2 * p.noiseLimit ≤ c)) ∧
    (s.receiver.noisy = false → t.receiver.noisy = false ∧
      t.receiver.noise = if 2 * p.noiseLimit ≤ c then 2 * p.noiseLimit - 1 else c)

/-- R91, R95: the frame is one the receiver sees: the line has rested since the receiver's reset, or it rested for 20 bit
times before the frame began (log entry 30). -/
def LineRested (f : UpFrame) (s : State) : Prop := s.receiver.rested = true ∨ 20 ≤ f.idle

/-! The element census (R128), over the element table as memory holds it. -/

/-- R109: the head end, or an index whose record has a transponder address. -/
def usedInTable (s : State) (i : Nat) : Bool := decide (i = 0) || (decide (i ≤ 255) && decide (rd s (elementWord i 0) ≠ 0))

/-- The parent in an element's record; the head end is taken as its own. -/
def storedParent (s : State) (i : Nat) : Nat := if i = 0 then 0 else (rd s (elementWord i 1)).toNat

/-- R128 step 2: a parent that is not in use gives way to the head end. -/
def foundParent (s : State) (i : Nat) : Nat := if usedInTable s (storedParent s i) then storedParent s i else 0

/-- R128 step 3: the element lies on a cycle of parents and is its lowest index. -/
def lowestOfCycle (s : State) (i : Nat) : Bool :=
  decide (i ≠ 0) && ((List.range 256).any fun k => decide ((foundParent s)^[k + 1] i = i)) &&
    (List.range 256).all fun k => decide (i ≤ (foundParent s)^[k] i)

/-- R128 step 3: every cycle is opened at its lowest index. -/
def openedParent (s : State) (i : Nat) : Nat := if lowestOfCycle s i then 0 else foundParent s i

/-- The parent of an element in a tree; 0 for an index that is not listed. -/
def parentIn (t : Tree) (i : Nat) : Nat :=
  match tableGet t i with
  | some e => e.parent
  | none => 0

/-- R128 step 4: the element reaches the head end in at most 8 parents, in the tree as the resets of the elements below `i`
in index have left it. -/
def shallow (s : State) (t : Tree) (i : Nat) : Prop :=
  ∃ d, d ≤ 8 ∧ (fun j => if j < i then parentIn t j else openedParent s j)^[d] i = 0

/-- R128: the elements whose parents the census resets, in the order of its passes: a parent missing, the lowest of a cycle,
too deep. -/
def censusResets (s : State) (t : Tree) : List Nat :=
  let used := (List.range 256).filter fun i => decide (i ≠ 0) && usedInTable s i
  used.filter (fun i => !usedInTable s (storedParent s i)) ++ used.filter (lowestOfCycle s) ++
    used.filter fun i => decide (openedParent s i ≠ 0) && decide (parentIn t i = 0)

/-- The entries of the pending-ack table that do not hold a drop address. -/
def entriesBut (tap port : Nat) (t : List PendingAck) : List PendingAck :=
  t.filter fun e => !(decide (e.tap = tap) && decide (e.port = port))

/-- R103, R58: the entries left of the pending-ack table: those of a subscriber that is superseded leave it, and those at a
drop address whose retire is cancelled. -/
def entriesLeft (superseded cancelled : Bool) (i tap port : Nat) (t : List PendingAck) : List PendingAck :=
  t.filter fun e =>
    !(superseded && decide (e.kind = .subscriber) && decide (e.subscriber = i)) &&
      !(cancelled && decide (e.tap = tap) && decide (e.port = port))

/-- R57: a drop address waits in the retire list. -/
def retireWaits (s : State) (tap port : Nat) : Bool :=
  s.order.retires.any fun r => decide (r.tap = tap) && decide (r.port = port)

/-- The entries of the retire list at other drop addresses. -/
def retiresBut (tap port : Nat) (rs : List RetireEntry) : List RetireEntry :=
  rs.filter fun r => !(decide (r.tap = tap) && decide (r.port = port))

/-- R57, R104: the retire list after a drop of record `i` has retired, if it did. -/
def retiresJoined (s : State) (c : DropChange) : List RetireEntry :=
  s.order.retires ++ if isRetiring c then
    [{ tap := c.oldTap, port := c.oldPort, subscriber := c.sub, avoided := (subRd s c.sub 9).toNat, sent := false
       lastSequence := none }] else []

/-- R58: word 9 of a record that has taken a drop address: the sequence of the latest retire frame of that address, if a
retire of it that waited has been sent, and else as it was. -/
def lastSequenceAfter (s : State) (i tap port : Nat) : Word :=
  ((retireEntryAt s tap port).bind fun r => r.lastSequence).elim (subRd s i 9) wordOf

/-! The arbiter. -/

/-- R71: the place of a class in the order in which they are taken. -/
def classPlace : FrameClass → Nat
  | .reply => 1
  | .retry => 2
  | .poll => 3
  | .retire => 4
  | .immediate => 5
  | .sweep => 6
  | .refresh => 7

/-- R71, R112, R84, R88: the conditions under which a class is eligible, as its table gives them. -/
def Eligible (s : State) : FrameClass → Prop
  | .reply => s.sched.replies ≠ []
  | .retry => ∃ e ∈ s.tracker.table, e.phase = .candidate
  | .poll => s.plant.nextPollDue ≤ s.time ∧ s.plant.poll = none ∧
      ∃ i e, tableGet s.plant.tree i = some e ∧ e.state ≠ .latchedOut ∧ isShadowed s.plant.tree i = false
  | .retire => (∃ r ∈ s.order.retires, r.sent = false) ∧ s.tracker.table.length < 16
  | .immediate => ∃ i rest, s.sched.queue = i :: rest ∧
      (s.tracker.table.length < 16 ∨ ∃ e ∈ s.tracker.table, e.kind = .subscriber ∧ e.subscriber = i)
  | .sweep => ∃ w ∈ s.sched.sweeps, (w.kind = .lineup ∧ w.maps < 8) ∨ w.held ≠ none
  | .refresh => s.sched.refresh.maps < 8 ∨ s.sched.refresh.held ≠ none

/-- R71: the class is the first that is eligible. -/
def FirstEligible (s : State) (c : FrameClass) : Prop :=
  Eligible s c ∧ ∀ d, classPlace d < classPlace c → ¬Eligible s d

/-! Sweeps and slots. -/

/-- R88: refresh as it goes on when it leaves its rest. -/
def Refresh.woken (r : Refresh) : Refresh := if r.resting then { r with resting := false, visits := 0 } else r

/-- R65, R88: a subscriber has been submitted: one that waits stays where it is, another joins the tail of the queue if there
is room and the deferred map if there is none; refresh leaves its rest. -/
def Submitted (i : Nat) (s t : State) : Prop :=
  (isWaiting s i = true → t.sched.queue = s.sched.queue ∧ t.sched.deferred = s.sched.deferred) ∧
  (isWaiting s i = false → s.sched.queue.length < 64 →
    t.sched.queue = s.sched.queue ++ [i] ∧ t.sched.deferred = s.sched.deferred) ∧
  (isWaiting s i = false → 64 ≤ s.sched.queue.length →
    t.sched.queue = s.sched.queue ∧ ∀ x, x ∈ t.sched.deferred ↔ x = i ∨ x ∈ s.sched.deferred) ∧
  t.sched.refresh = s.sched.refresh.woken

/-- The scheduler has changed in its queue, its deferred map and its refresh state alone. -/
def SubmissionOnly (s t : State) : Prop :=
  t.sched = { s.sched with queue := t.sched.queue, deferred := t.sched.deferred, refresh := t.sched.refresh }

/-- R84, R85: the sweeps left: one whose cursor has passed the table ends, once it holds no frame and owes no MAP frame. -/
def sweepsLeft (ws : List Sweep) : List Sweep :=
  ws.filter fun w => !(decide (4096 ≤ w.cursor) && w.held.isNone && !(decide (w.kind = .lineup) && decide (w.maps < 8)))

/-- R79, R80, R85: the scheduler after the head of the queue has been removed, `rest` being left: refill follows with 32 or
fewer left, and with room in the queue no requeue sweep is stopped. -/
def afterPop (rest : List Nat) (s : State) : Scheduler :=
  let popped : State := { s with sched := { s.sched with queue := rest } }
  let p := if rest.length ≤ 32 then (refill popped).sched else popped.sched
  { p with sweeps := if p.queue.length < 64 then p.sweeps.map (fun w => { w with stopped := false }) else p.sweeps }

/-- R81, R82: a sweep of an optional kind, with details 1 to 3 of its SWEEP_DROP record. -/
def DropDetails (k : SweepKind) (d₁ d₂ d₃ : Nat) : Prop :=
  (k = .lineup ∧ d₁ = 0 ∧ d₂ = 65535 ∧ d₃ = 0) ∨ (k = .eventStart d₂ d₃ ∧ d₁ = 1) ∨ (k = .eventEnd d₂ d₃ ∧ d₁ = 2)

/-- R81, R82: the scheduler after sweeps have been opened one after another. -/
def sweepsOpened (ks : List SweepKind) (s : State) : Scheduler := (ks.foldl (fun v k => openSweep k v) s).sched

/-- R148: the state of a slot after an evaluation at a stamp. -/
def slotAfter (stamp : Nat) (a : ArmedSlot) : SlotState :=
  if (a.state = .open ∨ a.state = .showing) ∧ a.endStamp ≤ stamp then .closed
  else if a.state = .open ∧ a.startStamp ≤ stamp then .showing else a.state

/-- R148: the sweeps one slot's evaluation opens, EVENT_START first. -/
def slotSweeps (s : State) (stamp j : Nat) : List SweepKind :=
  match tableGet s.slots.armed j with
  | some a =>
    (if a.state = .open ∧ a.startStamp ≤ stamp then [.eventStart j a.event] else []) ++
      if (a.state = .open ∨ a.state = .showing) ∧ a.endStamp ≤ stamp then [.eventEnd j a.event] else []
  | none => []

/-- R148: the sweeps an evaluation opens, slots 0 to 7 in turn. -/
def openedSweeps (s : State) (stamp : Nat) : List SweepKind := (List.range 8).flatMap (slotSweeps s stamp)

/-- R148: the slots have been evaluated at a stamp: each armed copy has its state after, and a slot that moved has it in its
state word; the state word of any other slot reads as before. -/
def SlotsEvaluated (stamp : Nat) (s t : State) : Prop :=
  ∀ j, j < 8 →
    (tableGet s.slots.armed j = none →
      tableGet t.slots.armed j = none ∧ rd t (slotWord j 6) = rd s (slotWord j 6)) ∧
    ∀ a, tableGet s.slots.armed j = some a →
      tableGet t.slots.armed j = some { a with state := slotAfter stamp a } ∧
      rd t (slotWord j 6) =
        if slotAfter stamp a = a.state then rd s (slotWord j 6) else wordOf (slotAfter stamp a).code

/-- The slots and their state words are as they were. -/
def SlotsKept (s t : State) : Prop :=
  t.slots.armed = s.slots.armed ∧ ∀ j, j < 8 → rd t (slotWord j 6) = rd s (slotWord j 6)

/-! The close alarm. -/

/-- R138: the alarm matches the fields of a time: each close field is ANY or equals its field. -/
def AlarmMatches (p : Plan) (c : Calendar) : Prop :=
  (p.closeDay = none ∨ p.closeDay = some c.day) ∧ (p.closeHour = none ∨ p.closeHour = some c.hours) ∧
    (p.closeMinute = none ∨ p.closeMinute = some c.minutes)

/-- R160, R162, R163: what a test of the close alarm leaves, a match or none: an idle Close Engine begins a close that is
bound to no slot, and writes its number, cursor and status; a close in progress stands, and CLOSE_LATE is flagged; with no
match nothing changes. The noted indication is not this rule's. -/
def AlarmTaken (isMatch : Prop) (s t : State) : Prop :=
  (isMatch → ∀ k n, s.close.copy = some k → n = (if 65535 ≤ k.number then 1 else k.number + 1) →
    (k.status = .idle →
      t.close = { s.close with
        copy := some { status := .closing, cursor := 0, number := n }
        bound := none, statements := 0, resumed := false, stalled := false, noted := t.close.noted } ∧
      rd t 0x126 = 1 ∧ rd t 0x127 = 0 ∧ rd t 0x128 = wordOf n) ∧
    (k.status = .closing →
      t.close = { s.close with noted := t.close.noted } ∧ t.flags.getLsbD 15 = true ∧
        ∀ a, 0x126 ≤ a → a ≤ 0x128 → rd t a = rd s a)) ∧
  (s.close.copy = none → t.close.copy = none) ∧
  (¬isMatch → t.close = { s.close with noted := t.close.noted } ∧ ∀ a, 0x126 ≤ a → a ≤ 0x128 → rd t a = rd s a)

/-! Requests. -/

/-- The row of the opcode table of each request (12.4). -/
def Request.command : Request → Instr
  | .addElement => .addElement
  | .retireElement => .retireElement
  | .setFeed => .setFeed
  | .clearLatch => .clearLatch
  | .armEvent => .armEvent
  | .disarmEvent => .disarmEvent
  | .deskPurchase => .deskPurchase
  | .cancelPurchase => .cancelPurchase
  | .closeNow => .closeNow
  | .quiesce => .quiesce
  | .resume => .resume

/-- R29: slot `n` is at the head of the queue with request `r`, and the part is not STARTING. -/
def AtHead (r : Request) (n : Nat) (rest : List Nat) (s : State) : Prop :=
  started s = true ∧ s.part.queue = n :: rest ∧ n < 8 ∧ requestCode s n = r.code

/-- R29: the part after the request of slot `n` has ended, the queue's rest being `rest`. -/
def afterRequest (n : Nat) (rest : List Nat) (p : Part) : Part :=
  { p with queue := rest, inProgress := p.inProgress.filter fun q => q.1 != n }

/-- R102: a RETRY candidate holds the drop address, so that its entry is given up at the entry to QUIESCING. -/
def givenUp (s : State) (tap port : Nat) : Bool :=
  s.tracker.table.any fun e => decide (e.phase = .candidate) && decide (e.tap = tap) && decide (e.port = port)

/-- R102: a RETIRE entry that is a RETRY candidate holds the drop address. -/
def retireGivenUp (s : State) (tap port : Nat) : Bool :=
  s.tracker.table.any fun e =>
    decide (e.kind = .retire) && decide (e.phase = .candidate) && decide (e.tap = tap) && decide (e.port = port)

/-- R102: the status words of the subscribers whose entries are RETRY candidates. -/
def givenUpWords (s : State) : List Nat :=
  (s.tracker.table.filter fun e => decide (e.kind = .subscriber) && decide (e.phase = .candidate)).map fun e =>
    subscriberWord e.subscriber 8

/-- The two words of slot `n` that the part writes: the code word and the result. -/
def slotWords (n : Nat) : List Nat := [requestWord n 0, requestWord n 3]

/-- 12.4: the code word of slot `n` holds a status and an error code, its request code kept. -/
def SlotShows (n status error : Nat) (s t : State) : Prop :=
  requestCode t n = requestCode s n ∧ requestStatus t n = status ∧ field (rd t (requestWord n 0)) 11 5 = error

end Sys2Proof.Machine
end

