-- ==== Sys2Proof/Certificates/Slice0/Obligations.lean ====
section
/-!
DEFINITION. The statements for the provers, family by family. Each says which rules of the spec it formalises.
-/

section Statements

open Sys2Proof Sys2Proof.Machine

/-! ## The machine as a whole -/

/-- A step takes the command at the front of the queue and carries it out on the state with the queue's rest; on an empty
queue nothing happens. -/
def Obligations.StepRunsTheFrontCommand : Prop :=
  (∀ (c : Instr) (rest : List Instr) (s : State),
    step { s with pending := c :: rest } = exec c { s with pending := rest }) ∧
  ∀ s : State, s.pending = [] → step s = .next s

/-- No command stops the part, and none touches the queue of those that wait (log entry 1). -/
def Obligations.EveryCommandCompletesAndKeepsTheQueue : Prop :=
  ∀ (c : Instr) (s : State), ∃ t, exec c s = .next t ∧ t.pending = s.pending

/-- The laws hold in the state after reset. Which state that is, State.reset, is the model's choice: the power-up that finds
the backup lost, with the hold time the model names and start-up step 1 begun (log entry 18). -/
def Obligations.ResetStateKeepsTheLaws : Prop :=
  MemWf State.reset.mem ∧ RingLaw State.reset ∧ QueueLaw State.reset ∧ CapacityLaw State.reset ∧
    MeterLaw State.reset ∧ ClockLaw State.reset ∧ PlantLaw State.reset ∧ SlotLaw State.reset ∧
    AckLaw State.reset ∧ CursorLaw State.reset ∧ QuietLaw State.reset ∧ PortIdle State.reset

/-- The memory keeps its canonical form at every step. The form is the model's own representation of the subscriber memory:
places rising, and a byte of 0, which is what an unlisted place reads as, not listed (log entry 2). -/
def Obligations.MemoryStaysCanonical : Prop :=
  ∀ s t : State, MemWf s.mem → step s = .next t → MemWf t.mem

/-- R78: at every step, a subscriber index stays at most once in the immediate queue and never also in the deferred
map. -/
def Obligations.QueueAndMapStayDisjoint : Prop :=
  ∀ s t : State, QueueLaw s → step s = .next t → QueueLaw t

/-- R54, R74, R78, R80, R81: at every step the queue, the reply queue, the sweep table and the retire list stay within their
capacities; R171: the heads and tails of the rings stay positions of their rings; R109, R111: the tree and the outstanding
poll stay within indices 1 to 255; R28, R31: a slot stays at most once in the request queue or in progress; R139, R140: the
Meter Engine's counts stay in their ranges; R96: the pending-ack table holds at most 16 entries; R67, R84, R86, R112, R164:
the cursors of the census, refresh, the sweeps and the close and the poll pointer stay in their tables; R32: a running part
that is QUIESCING does not meet its quiet condition. That the deferred map and the tree are listed rising is the model's own
representation; so is the clause of the slot law that a reset holds the part in STARTING (log entry 23), that the port is
free with nothing waiting for it between two commands (R14; log entry 3), and that the cursor of the metering pass stays below
4096 between two passes too (R140; log entry 31).
R130, R133 to R135: at every step the calendar stays a calendar time while it counts, and the hold time while it is
held; that the hold time after reset is such a time is the model's choice (log entry 18). -/
def Obligations.EveryStepKeepsTheBounds : Prop :=
  ((∀ s t : State, CapacityLaw s → step s = .next t → CapacityLaw t) ∧
   (∀ s t : State, RingLaw s → step s = .next t → RingLaw t) ∧
   (∀ s t : State, PlantLaw s → step s = .next t → PlantLaw t) ∧
   (∀ s t : State, SlotLaw s → step s = .next t → SlotLaw t) ∧
   (∀ s t : State, AckLaw s → step s = .next t → AckLaw t) ∧
   (∀ s t : State, CursorLaw s → step s = .next t → CursorLaw t) ∧
   (∀ s t : State, QuietLaw s → step s = .next t → QuietLaw t) ∧
   (∀ s t : State, PortIdle s → step s = .next t → PortIdle t) ∧
   ∀ s t : State, MeterLaw s → step s = .next t → MeterLaw t) ∧
  (∀ s t : State, ClockLaw s → step s = .next t → ClockLaw t)

/-- R24: the part changes state only as the table of R24 gives, each change at its own event. R32: QUIESCE ends in QUIESCED
when the quiet condition holds at once and in QUIESCING when it does not; the part goes on from QUIESCING to QUIESCED at a
command that brings the condition about, with every QUIESCE in progress ended. That the part counts as STARTING from the
loss of power on, and from the assertion of RESET on, is the model's choice (log entries 22 and 23). -/
def Obligations.PartStateMovesOnlyAsGiven : Prop :=
  ∀ (c : Instr) (s t : State), exec c s = .next t → s.part.state ≠ t.part.state →
    (t.part.state = .starting ∧ (c = .powerUp ∨ c = .reset ∨ c = .resetEnd ∨ c = .powerLoss)) ∨
    (s.part.state = .starting ∧ c = .startupEnd ∧
      t.part.state = (if s.plan.copy.isSome then .serving else .unplanned)) ∨
    (s.part.state = .unplanned ∧ t.part.state = .serving ∧ c = .planCheckComplete) ∨
    (s.part.state = .serving ∧ c = .quiesce ∧
      t.part.state = (if isQuiet t then .quiesced else .quiescing) ∧
      (t.part.state = .quiesced → quiesceSlots t = [])) ∨
    (s.part.state = .quiescing ∧ t.part.state = .quiesced ∧ isQuiet t = true ∧ quiesceSlots t = [] ∧
      (isQuiet s = true ∨ canQuiet c = true)) ∨
    ((s.part.state = .quiescing ∨ s.part.state = .quiesced) ∧ t.part.state = .serving ∧ c = .resume)

/-- R177: a flag already latched stays latched at every command but a read of the flag word, a reset and the loss of
power.
R177: once the part has left STARTING, a flag whose condition goes from not holding to holding is latched by the
step in which it arises.
R180: ALERT is asserted exactly when some latched flag is in the mask: the working copy's mask, or all sixteen flags
with no copy valid. -/
def Obligations.FlagsLatchAndDriveAlert : Prop :=
  (∀ (c : Instr) (s t : State), c.wellFormed = true → exec c s = .next t →
     (∀ l, c ≠ .clusterFlagRead l) → c ≠ .powerUp → c ≠ .reset → c ≠ .powerLoss →
     ∀ f : Flag, s.flags.getLsbD f.bit = true → t.flags.getLsbD f.bit = true) ∧
  (∀ (c : Instr) (s t : State) (f : Flag), c.wellFormed = true → exec c s = .next t →
     s.part.state ≠ .starting → t.part.state ≠ .starting →
     condition s f = false → condition t f = true → t.flags.getLsbD f.bit = true) ∧
  (∀ s : State, alertAsserted s = true ↔
     ∃ f : Flag, s.flags.getLsbD f.bit = true ∧
       (s.plan.copy = none ∨ ∃ p, s.plan.copy = some p ∧ p.alertMask.getLsbD f.bit = true))

/-- R4, R5: while the part is STARTING no host write changes a word that is not PLAIN, but for the log that a release of
the clock's hold appends to. -/
def Obligations.StartingHostWritesReachPlainWordsOnly : Prop :=
  ∀ (a : Addr) (l : Lanes) (d : Word) (s t : State), s.part.state = .starting → a.toNat ≠ 0x0A →
    exec (.hostWrite a l d) s = .next t →
    ∀ b, wordClass b ≠ .plain → rd t b = rd s b

/-! ## Host accesses -/

/-- R1, R17, R18: with no lane strobed, after a power-fail warning and in a reset, a host write changes nothing at all,
and a read leaves all ones and has no other effect.
R4, R5: a squashed HOST_WRITE leaves memory as it is, latches ACCESS, and fills the squash latch only if it is
empty. Each reason stands with the step of R4 that raises it. -/
def Obligations.DeadAndSquashedAccesses : Prop :=
  (∀ (a : Addr) (l : Lanes) (d : Word) (s : State), s.power.vcc = true →
     (running s = false ∨ noLanes l = true) →
     exec (.hostWrite a l d) s = .next s ∧
     exec (.pairLowRead a l) s = .next { s with bus := { data := 0xFFFF, lanes := l } } ∧
     exec (.clusterFlagRead l) s = .next { s with bus := { data := 0xFFFF, lanes := l } }) ∧
  (∀ (a : Addr) (l : Lanes) (d : Word) (s : State) (r : SquashReason),
     running s = true → noLanes l = false →
     ((inLiveBlock a.toNat = true ∧ a.toNat ≠ 0x0A ∧ clockFieldAt a.toNat = none ∧ r = .readOnlyLive) ∨
      (inLiveBlock a.toNat = true ∧ clockFieldAt a.toNat ≠ none ∧ s.clock.set = false ∧ r = .clockNotHeld) ∨
      (inHeadEndRecord a.toNat = true ∧ r = .headEndRecord) ∨
      (inLiveBlock a.toNat = false ∧ inHeadEndRecord a.toNat = false ∧ wordClass a.toNat ≠ .plain ∧
         s.part.state = .starting ∧ r = .starting) ∨
      (inHeadEndRecord a.toNat = false ∧ wordClass a.toNat = .part ∧ s.part.state ≠ .starting ∧ r = .partWord)) →
     ∃ t, exec (.hostWrite a l d) s = .next t ∧
       t.flags = s.flags ||| 0x0100 ∧
       (s.path.squash = none → t.path.squash = some (a, r)) ∧
       (s.path.squash ≠ none → t.path.squash = s.path.squash) ∧
       t = { s with flags := t.flags, path := { s.path with squash := t.path.squash } })

/-- R9: HOST_WRITE to a PLAIN word, with the port granted to the host (R14).
R20: a HOST_WRITE to a plan word under a running check lands, and the words the check has read by then are the words
as they stood before it, however many there are.
R7, R8, R108: the WATCHED words with no row of their own are words 0 to 5 of an event slot, words 2 and 3 of an element
and words 4 and 5 of a subscriber. Outside STARTING a HOST_WRITE to one of them always passes: the merged word is stored, in
one access of the host (R14), and nothing else follows. -/
def Obligations.PlainWritesLand : Prop :=
  (∀ (a : Addr) (l : Lanes) (d : Word) (s : State),
     MemWf s.mem → running s = true → noLanes l = false →
     wordClass a.toNat = .plain → inHeadEndRecord a.toNat = false →
     (s.plan.check = none ∨ isPlanWord a.toNat = false) →
     ∃ t, exec (.hostWrite a l d) s = .next t ∧
       rd t a.toNat = mergeLanes l (rd s a.toNat) d ∧ WordsKept [a.toNat] s t ∧
       (PortIdle s → t.port = { s.port with last := some .host }) ∧ t = { s with mem := t.mem, port := t.port }) ∧
  (∀ (a : Addr) (l : Lanes) (d : Word) (s : State) (k : PlanCheck),
     MemWf s.mem → running s = true → noLanes l = false → isPlanWord a.toNat = true → s.plan.check = some k →
     ∃ t more, exec (.hostWrite a l d) s = .next t ∧
       rd t a.toNat = mergeLanes l (rd s a.toNat) d ∧ WordsKept [a.toNat] s t ∧
       t.plan = { s.plan with check := some { k with words := k.words ++ more } } ∧
       more <+: planWordsFrom s k.words.length ∧
       t = { s with mem := t.mem, port := t.port, plan := t.plan, freeCount := t.freeCount }) ∧
  (∀ (a : Addr) (l : Lanes) (d : Word) (s : State),
     MemWf s.mem → running s = true → noLanes l = false → s.part.state ≠ .starting →
     ((∃ k w, k < 8 ∧ w < 6 ∧ a.toNat = slotWord k w) ∨
       (∃ i w, 1 ≤ i ∧ i < 256 ∧ (w = 2 ∨ w = 3) ∧ a.toNat = elementWord i w) ∨
       (∃ i w, i < 4096 ∧ (w = 4 ∨ w = 5) ∧ a.toNat = subscriberWord i w)) →
     wordClass a.toNat = .watched ∧
     ∃ t, exec (.hostWrite a l d) s = .next t ∧
       rd t a.toNat = mergeLanes l (rd s a.toNat) d ∧ WordsKept [a.toNat] s t ∧
       (PortIdle s → t.port = { s.port with last := some .host }) ∧ t = { s with mem := t.mem, port := t.port })

/-- R10: the MASKED words are the notice words of the subscriber and element records, and a MASKED_WRITE that is not squashed
gives each bit of the lower byte whose mask bit is set its value bit and keeps every other bit and the upper byte; an
unstrobed lane counts as zero, and a mask of zero writes nothing at all. -/
def Obligations.MaskedWriteMergesByMask : Prop :=
  (∀ a, wordClass a = .masked ↔ ∃ n, noticeAddress n = a) ∧
  ∀ (n : NoticeWord) (l : Lanes) (d : Word) (s : State),
    MemWf s.mem → running s = true → noLanes l = false → s.part.state ≠ .starting → n ≠ .element 0 →
    ∃ t, exec (.maskedWrite n l d) s = .next t ∧
      (∀ k, k < 8 → (rd t (noticeAddress n)).getLsbD k =
        if l.upper = true ∧ d.getLsbD (8 + k) = true then (l.lower && d.getLsbD k)
        else (rd s (noticeAddress n)).getLsbD k) ∧
      wordHi (rd t (noticeAddress n)) = wordHi (rd s (noticeAddress n)) ∧
      WordsKept [noticeAddress n] s t ∧
      (l.upper = false ∨ wordHi d = 0 → t = s) ∧
      t = { s with mem := t.mem, port := t.port }

/-- R6: SQUASH_REASON_READ.
R178: CLUSTER_FLAG_READ returns the latched flags, and clears the flags in the strobed lanes whose condition does not
hold.
R137: CLOCK_SECONDS_READ captures the snapshot, CLOCK_YEAR_READ serves it and empties it. -/
def Obligations.LiveReadsHaveTheirEffects : Prop :=
  (∀ (l : Lanes) (s : State), running s = true → noLanes l = false →
     ∃ t, exec (.squashReasonRead l) s = .next t ∧
       t.bus.lanes = l ∧
       (∀ a r, s.path.squash = some (a, r) → t.bus.data = BitVec.ofNat 16 r.code) ∧
       (s.path.squash = none → t.bus.data = 0) ∧
       (l.lower = true → t.path.squash = none) ∧
       (l.lower = false → t.path.squash = s.path.squash) ∧
       t = { s with bus := t.bus, path := { s.path with squash := t.path.squash } }) ∧
  (∀ (l : Lanes) (s : State), running s = true → noLanes l = false →
     ∃ t, exec (.clusterFlagRead l) s = .next t ∧
       t.bus = { data := s.flags, lanes := l } ∧
       (∀ f : Flag, t.flags.getLsbD f.bit =
         (s.flags.getLsbD f.bit && (condition s f || !(if f.bit < 8 then l.lower else l.upper)))) ∧
       t = { s with bus := t.bus, flags := t.flags }) ∧
  (∀ (l : Lanes) (s : State), running s = true → noLanes l = false →
     exec (.clockSecondsRead l) s =
       .next { s with
         bus := { data := BitVec.ofNat 16 s.clock.now.seconds, lanes := l }
         clock := { s.clock with snapshot := some s.clock.now } } ∧
     exec (.clockYearRead l) s =
       .next { s with
         bus := { data := BitVec.ofNat 16 ((s.clock.snapshot.getD s.clock.now).year), lanes := l }
         clock := { s.clock with snapshot := none } })

/-- R12: PAIR_LOW_READ returns the low word and captures the pair's address and its high word of that instant.
That words 2, 10 and 13 of every journal position are low words of pairs, whatever its record, is the model's reading (log
entry 11).
R3, R6, R70, R89, R106, 12.2: what the live pairs hold: the squashed address, 0 while the latch is empty, the frames sent,
the ACKs matched and the bad upstream frames; every other pair is read from memory.
R13: PAIR_HIGH_READ is answered from the latch, which it empties, if the latch holds that pair; otherwise from
memory or the live state, and the latch is left as it was. Which words are pairs is read as for PAIR_LOW_READ (log entry
11). -/
def Obligations.PairReadsUseTheLatch : Prop :=
  (∀ (a : Addr) (l : Lanes) (s : State), running s = true → noLanes l = false → isPairLow a.toNat = true →
     ∃ t, exec (.pairLowRead a l) s = .next t ∧
       t.bus = { data := hostSees s a.toNat, lanes := l } ∧
       t.path = { s.path with pair := some (a, hostSees s (a.toNat + 1)) } ∧
       t = { s with bus := t.bus, path := t.path, port := t.port }) ∧
  ((∀ (s : State) (pair : Nat → Nat), (∀ a, pair a = pairValue (hostSees s a) (hostSees s (a + 1))) →
     (∀ a r, s.path.squash = some (a, r) → pair 0x07 = a.toNat) ∧ (s.path.squash = none → pair 0x07 = 0) ∧
     pair 0x14 = s.sched.framesSent.toNat ∧ pair 0x16 = s.tracker.matched.toNat ∧
     pair 0x18 = s.receiver.badFrames.toNat) ∧
   ∀ (s : State) (a : Nat), isPairLow a = true →
     a = 0x07 ∨ a = 0x14 ∨ a = 0x16 ∨ a = 0x18 ∨ (hostSees s a = rd s a ∧ hostSees s (a + 1) = rd s (a + 1))) ∧
  (∀ (a : Addr) (l : Lanes) (s : State), running s = true → noLanes l = false → isPairLow a.toNat = true →
     (∀ h, s.path.pair = some (a, h) →
       exec (.pairHighRead (a + 1) l) s =
         .next { s with bus := { data := h, lanes := l }, path := { s.path with pair := none } }) ∧
     ((∀ h, s.path.pair ≠ some (a, h)) →
       ∃ t, exec (.pairHighRead (a + 1) l) s = .next t ∧
         t.bus = { data := hostSees s (a.toNat + 1), lanes := l } ∧
         t = { s with bus := t.bus, port := t.port }))

/-- R12, R13: the halves that a low read and then a high read return belong to one instant, whatever the part and the
host did between them that left the latch alone; and no host write touches the latch. That words 10 and 13 of every journal
position are low words of pairs, those of PURCHASE and REFUND records too, is the model's reading (log entry 11). -/
def Obligations.PairHalvesBelongTogether : Prop :=
  (∀ (a : Addr) (l l' : Lanes) (s t u : State), running s = true → noLanes l = false → noLanes l' = false →
    isPairLow a.toNat = true → exec (.pairLowRead a l) s = .next t →
    running u = true → u.path.pair = t.path.pair →
    ∃ v, exec (.pairHighRead (a + 1) l') u = .next v ∧
      pairValue t.bus.data v.bus.data = pairValue (hostSees s a.toNat) (hostSees s (a.toNat + 1))) ∧
  ∀ (a : Addr) (l : Lanes) (d : Word) (s t : State), exec (.hostWrite a l d) s = .next t → t.path.pair = s.path.pair

/-- R133: CLOCK_CONTROL_WRITE: a write that leaves SET as it stands has no effect, and one that sets it stops counting and
captures the hold time.
R134: CLOCK_WORD_WRITE stores the lower lane unclamped while SET is held and releases the snapshot; while SET is
clear it is squashed with CLOCK_NOT_HELD. -/
def Obligations.ClockWritesNeedTheHold : Prop :=
  (∀ (l : Lanes) (d : Word) (s : State), running s = true → noLanes l = false →
     ((l.lower = false ∨ d.getLsbD 0 = s.clock.set) → exec (.clockControlWrite l d) s = .next s) ∧
     (l.lower = true → d.getLsbD 0 = true → s.clock.set = false →
       exec (.clockControlWrite l d) s =
         .next { s with clock := { s.clock with set := true, divider := 0, holdTime := s.clock.now } })) ∧
  (∀ (f : ClockField) (l : Lanes) (d : Word) (s : State), running s = true → noLanes l = false →
     (s.clock.set = true →
       ∃ t, exec (.clockWordWrite f l d) s = .next t ∧
         (l.lower = true → calendarField t.clock.now f = (wordLo d).toNat) ∧
         (l.lower = false → calendarField t.clock.now f = calendarField s.clock.now f % 256) ∧
         (∀ g, g ≠ f → calendarField t.clock.now g = calendarField s.clock.now g) ∧
         t = { s with clock := { s.clock with now := t.clock.now, snapshot := none } }) ∧
     (s.clock.set = false →
       ∃ t, exec (.clockWordWrite f l d) s = .next t ∧ t.flags = s.flags ||| 0x0100 ∧
         (s.path.squash = none → t.path.squash = some (addrOf (clockFieldAddress f), .clockNotHeld)) ∧
         t = { s with flags := t.flags, path := { s.path with squash := t.path.squash } }))

/-- R135: CLOCK_CONTROL_WRITE that clears SET: the fields are clamped, VALID is set and counting restarts; CLOCK_SET is logged
with the stamp of the hold time and the VALID of before the release, under the time of after it; outside STARTING the slots
are evaluated at the stamp of the time released, each sweep opened in its turn (R148), and in STARTING the release is noted
(R27); it is no minute tick, so it meters nothing and closes nothing; it writes nothing but its log record, slot states and
the records of sweeps that are dropped. -/
def Obligations.ControlWriteReleasesTheClock : Prop :=
  ∀ (l : Lanes) (d : Word) (s : State), MemWf s.mem → RingLaw s → running s = true →
    l.lower = true → d.getLsbD 0 = false → s.clock.set = true →
    ∃ u, exec (.clockControlWrite l d) s = .next (concluded s u) ∧
      u.clock.set = false ∧ u.clock.valid = true ∧ u.clock.divider = 0 ∧
      u.clock.now.year = min 99 s.clock.now.year ∧
      u.clock.now.month = max 1 (min 12 s.clock.now.month) ∧
      u.clock.now.day =
        max 1 (min (monthLength u.clock.now.month u.clock.now.year) s.clock.now.day) ∧
      u.clock.now.hours = min 23 s.clock.now.hours ∧
      u.clock.now.minutes = min 59 s.clock.now.minutes ∧
      u.clock.now.seconds = min 59 s.clock.now.seconds ∧
      u.clock.snapshot = s.clock.snapshot ∧ u.clock.backupIntact = s.clock.backupIntact ∧
      u.clock.ticks = s.clock.ticks ∧ u.clock.holdTime = s.clock.holdTime ∧
      KeptOutside (withRings ((List.range 8).map fun k => slotWord k 6)) s u ∧
      LoggedFirst .clockSet 0 (stampOf s.clock.holdTime % 65536) (stampOf s.clock.holdTime / 65536)
        (if s.clock.valid then 1 else 0) { s with clock := u.clock } u ∧
      (s.part.state = .starting → u.slots.noted = true ∧ SlotsKept s u ∧ u.sched = s.sched) ∧
      (s.part.state ≠ .starting → u.slots.noted = s.slots.noted ∧ SlotsEvaluated (stampOf u.clock.now) s u ∧
        u.sched = sweepsOpened (openedSweeps s (stampOf u.clock.now)) s) ∧
      ((s.part.state = .starting ∨ openedSweeps s (stampOf u.clock.now) = []) →
        Logged .clockSet 0 (stampOf s.clock.holdTime % 65536) (stampOf s.clock.holdTime / 65536)
          (if s.clock.valid then 1 else 0) { s with clock := u.clock } u) ∧
      u = { s with
        mem := u.mem, port := u.port, clock := u.clock, slots := u.slots, sched := u.sched, writer := u.writer
        flags := u.flags }

/-! ## Plan and line-up -/

/-- R20, R37: PLAN_CHECK_WORD_WRITE and COMMIT_WORD_WRITE store the merged word and start a check with it as the expected
value, whatever the value and whatever check was running. That the commit check takes all 384 words into its candidate at
once is the model's reading of R38 (log entry 8).
R36, R41: LINEUP_WORD_WRITE stores the merged word, sets the edited flag and leaves the image; a running check is
aborted with EDITED. R42: the abort is logged as LINEUP_COMMIT with the position of the word written, the result EDITED, the
value expected and 0 for the CRC that was not computed. -/
def Obligations.PlanAndLineupWritesAreObserved : Prop :=
  (∀ (l : Lanes) (d : Word) (s : State), MemWf s.mem → running s = true → noLanes l = false →
     s.part.state ≠ .starting →
     (∃ t, exec (.planCheckWordWrite l d) s = .next t ∧
       rd t 0x7F = mergeLanes l (rd s 0x7F) d ∧ WordsKept [0x7F] s t ∧
       t.plan = { s.plan with check := some { expected := rd t 0x7F, words := [] } } ∧
       t = { s with mem := t.mem, port := t.port, plan := t.plan }) ∧
     (∃ t, exec (.commitWordWrite l d) s = .next t ∧
       rd t 0x580 = mergeLanes l (rd s 0x580) d ∧ WordsKept [0x580] s t ∧
       t.lineup.check = some (rd t 0x580) ∧ t.lineup.image = s.lineup.image ∧ t.lineup.edited = s.lineup.edited ∧
       t.lineup.last = s.lineup.last ∧
       (∀ k, k < 384 → t.lineup.candidate[k]? = some (rd s (0x400 + k))) ∧
       t = { s with mem := t.mem, port := t.port, lineup := t.lineup })) ∧
  (∀ (k : Fin 384) (l : Lanes) (d : Word) (s : State), MemWf s.mem → RingLaw s → running s = true →
     noLanes l = false → s.part.state ≠ .starting →
     ∃ t, exec (.lineupWordWrite k l d) s = .next t ∧
       rd t (0x400 + k.val) = mergeLanes l (rd s (0x400 + k.val)) d ∧
       t.lineup.edited = true ∧ t.lineup.check = none ∧ t.lineup.image = s.lineup.image ∧
       (s.lineup.check = none →
         t.lineup = { s.lineup with edited := true } ∧ WordsKept [0x400 + k.val] s t ∧ FlagsFollow s t ∧
         t = { s with mem := t.mem, port := t.port, lineup := t.lineup, flags := t.flags }) ∧
       (s.lineup.check ≠ none →
         t.lineup = { s.lineup with edited := true, check := none, candidate := [], last := some .edited } ∧
         (∀ e, s.lineup.check = some e → Logged .lineupCommit (k.val / 4) 7 e.toNat 0 s t) ∧
         KeptOutside (withRings [0x400 + k.val]) s t ∧
         t = { s with mem := t.mem, port := t.port, lineup := t.lineup, writer := t.writer, flags := t.flags }))

/-- R21, R19, R118, R26, R176: PLAN_CHECK_COMPLETE: the outcome over the 63 words read, 0 OK, 1 CRC or 2 FORMAT, is held and
logged as PLAN_COMMIT with the value expected and the value computed. A failed check keeps the working copy, the plant, the
sweeps and the part state. A good one loads the fields, marks a warning newly disabled to be cleared, and takes UNPLANNED to
SERVING with a RESYNC sweep opened. At start-up step 1 the line-up check of step 2 starts with the stored commit word. That
the words not yet read are read at the completion is the model's choice (log entry 7), so is that a warning newly disabled is
marked to be cleared at a WARNING_DISABLE_CLEAR of its own (log entry 34), and so is that the commit check takes its candidate
at once (log entry 8).
R19, 12.3: the working copy that is loaded: each field is its word of the plan block brought into its range, a close field
of 0xFFFF is ANY, and the rates, the warning disables and the ALERT mask are taken as they stand.
R118: WARNING_DISABLE_CLEAR clears each newly disabled warning from every element of the tree that holds it. R127: its
count falls by the number of those elements. -/
def Obligations.PlanCheckLoadsAndClearsWarnings : Prop :=
  (∀ (k : PlanCheck) (ws : List Word) (c : Nat) (s : State), MemWf s.mem → RingLaw s → running s = true →
     s.plan.check = some k → ws = k.words ++ planWordsFrom s k.words.length →
     c = (if crcOfWords ws ≠ k.expected then 1 else if (ws.getD 0 0).toNat ≠ 1 then 2 else 0) →
     ∃ t, exec .planCheckComplete s = .next t ∧
       (c ≠ 0 → t.plan = { s.plan with check := none, last := some (if c = 1 then .crc else .format) } ∧
         t.plant = s.plant) ∧
       (c = 0 → t.plan = { s.plan with check := none, last := some .ok, copy := some (loadPlan ws) } ∧
         (∀ b₁ b₂ : Bool,
           (b₁ = true ↔ (loadPlan ws).slowDisabled = true ∧ ∃ p, s.plan.copy = some p ∧ p.slowDisabled = false) →
           (b₂ = true ↔ (loadPlan ws).standbyDisabled = true ∧ ∃ p, s.plan.copy = some p ∧ p.standbyDisabled = false) →
           t.plant = { s.plant with
             clearSlow := s.plant.clearSlow || b₁, clearStandby := s.plant.clearStandby || b₂ })) ∧
       t.part = { s.part with
         state := if s.part.state = .unplanned ∧ c = 0 then .serving else s.part.state
         startStep := if s.part.state = .starting ∧ s.part.startStep = 1 then 2 else s.part.startStep } ∧
       (s.part.state = .starting → s.part.startStep = 1 →
         t.lineup = { s.lineup with
           check := some (rd s 0x580), candidate := (List.range 384).map fun j => rd s (0x400 + j) }) ∧
       ((s.part.state ≠ .starting ∨ s.part.startStep ≠ 1) → t.lineup = s.lineup) ∧
       ((s.part.state ≠ .unplanned ∨ c ≠ 0) → t.sched = s.sched) ∧
       (s.part.state = .unplanned → c = 0 → t.sched.refresh.resting = false ∧
         t.sched.sweeps = (sweepsOpened [.resync] s).sweeps) ∧
       LoggedFirst .planCommit 0 c k.expected.toNat (crcOfWords ws).toNat s t ∧
       ((s.part.state ≠ .unplanned ∨ c ≠ 0 ∨ s.sched.sweeps.length < 4) →
         Logged .planCommit 0 c k.expected.toNat (crcOfWords ws).toNat s t) ∧
       KeptOutside ringPlace s t ∧
       t = { s with
         mem := t.mem, port := t.port, part := t.part, plan := t.plan, plant := t.plant, sched := t.sched
         lineup := t.lineup, writer := t.writer, flags := t.flags }) ∧
  (∀ (ws : List Word) (w : Nat → Nat) (p : Plan), (∀ j, w j = (ws.getD j 0).toNat) → p = loadPlan ws →
     (∀ x ∈ [(p.pollInterval, 1, 0, 7), (p.pollTimeout, 2, 1, 255), (p.latencyRange, 3, 0, 3),
         (p.slowThreshold, 4, 1, 255), (p.ackTimeout, 6, 1, 255), (p.retryWait, 7, 0, 255), (p.maxAttempts, 8, 1, 7),
         (p.grace, 9, 0, 1440), (p.noiseLimit, 30, 1, 127), (p.noiseHold, 31, 0, 127)],
       x.1 = max x.2.2.1 (min x.2.2.2 (w x.2.1)) ∧ x.2.2.1 ≤ x.1 ∧ x.1 ≤ x.2.2.2) ∧
     (∀ x ∈ [(p.closeDay, 26, 1, 28), (p.closeHour, 27, 0, 23), (p.closeMinute, 28, 0, 59)],
       x.1 = if w x.2.1 = 65535 then none else some (max x.2.2.1 (min x.2.2.2 (w x.2.1)))) ∧
     p.rates.length = 16 ∧ (∀ j, j < 16 → p.rates[j]? = some (w (10 + j))) ∧
     p.slowDisabled = (ws.getD 5 0).getLsbD 0 ∧ p.standbyDisabled = (ws.getD 5 0).getLsbD 1 ∧
     p.alertMask = ws.getD 29 0) ∧
  (∀ s : State, MemWf s.mem → running s = true → (s.plant.clearSlow = true ∨ s.plant.clearStandby = true) →
     (s.plant.tree.map Prod.fst).Nodup →
     ∃ t, exec .warningDisableClear s = .next t ∧
       t.plant = { s.plant with
         clearSlow := false, clearStandby := false
         slowCount := s.plant.slowCount - (if s.plant.clearSlow then
           (s.plant.tree.filter fun p => (rd s (elementWord p.1 7)).getLsbD 0).length else 0)
         standbyCount := s.plant.standbyCount - (if s.plant.clearStandby then
           (s.plant.tree.filter fun p => (rd s (elementWord p.1 7)).getLsbD 1).length else 0) } ∧
       (∀ p ∈ s.plant.tree,
         ((rd t (elementWord p.1 7)).getLsbD 0 = ((rd s (elementWord p.1 7)).getLsbD 0 && !s.plant.clearSlow)) ∧
         ((rd t (elementWord p.1 7)).getLsbD 1 =
           ((rd s (elementWord p.1 7)).getLsbD 1 && !s.plant.clearStandby))) ∧
       WordsKept (s.plant.tree.map fun p => elementWord p.1 7) s t ∧
       t = { s with mem := t.mem, port := t.port, plant := t.plant, flags := t.flags })

/-- R39, R40, R42, R25: LINEUP_CHECK_COMPLETE, in whatever part state the check completes: a good check loads the image and
clears the edited flag, and a LINEUP sweep is open unless it was dropped; a failed one keeps image and flag and holds its
reason. Each outcome is logged as LINEUP_COMMIT with its subject, its result, the value expected and the value computed.
R38: a line-up passes validation exactly when every position passes the five tests of the rule. -/
def Obligations.LineupCheckValidatesAndLoads : Prop :=
  (∀ (e : Word) (s : State), MemWf s.mem → RingLaw s → QuietLaw s → running s = true → s.lineup.check = some e →
     ∃ t, exec .lineupCheckComplete s = .next t ∧ t.lineup.check = none ∧
       (crcOfWords s.lineup.candidate ≠ e →
         t.lineup.last = some .crc ∧ t.lineup.image = s.lineup.image ∧ t.lineup.edited = s.lineup.edited ∧
         Logged .lineupCommit 65535 1 e.toNat (crcOfWords s.lineup.candidate).toNat s t) ∧
       (crcOfWords s.lineup.candidate = e →
         (∀ r c, validateEntries [] (lineupEntries s.lineup.candidate) = some (r, c) → r ≠ .ok →
           t.lineup.last = some r ∧ t.lineup.image = s.lineup.image ∧ t.lineup.edited = s.lineup.edited ∧
           Logged .lineupCommit c r.code e.toNat e.toNat s t) ∧
         (validateEntries [] (lineupEntries s.lineup.candidate) = none →
           t.lineup.last = some .ok ∧ t.lineup.image = some (lineupEntries s.lineup.candidate) ∧
           t.lineup.edited = false ∧ t.sched.refresh.resting = false ∧
           LoggedFirst .lineupCommit 65535 0 e.toNat e.toNat s t ∧
           (s.sched.sweeps.length < 4 → Logged .lineupCommit 65535 0 e.toNat e.toNat s t) ∧
           (s.sched.sweeps.length < 4 → ∃ w ∈ t.sched.sweeps, w.kind = .lineup ∧ w.cursor = 0 ∧ w.maps = 0))) ∧
       t.part = (if atStartStep 2 s then { s.part with startStep := 3 } else s.part) ∧
       KeptOutside ringPlace s t ∧
       t = { s with
         mem := t.mem, port := t.port, part := t.part, lineup := t.lineup, sched := t.sched, writer := t.writer
         flags := t.flags }) ∧
  (∀ es : List LineupEntry, validateEntries [] es = none ↔
     ∀ (k : Nat) (e : LineupEntry), es[k]? = some e →
       (e.enabled = true → 1 ≤ e.channel ∧ e.channel ≤ 999 ∧
         ∀ (j : Nat) (f : LineupEntry), j < k → es[j]? = some f → f.enabled = true → f.channel ≠ e.channel) ∧
       (e.kind = .event → e.argument ≤ 7) ∧ (e.kind = .tier → e.argument ≤ 15) ∧ e.frequency ≤ 1023)

/-- R46, R47: the command is FULL for an order of CONNECT, BARKER for SUSPEND, and OFF for every other; position c of the
vector, for each kind of entry; nothing is passed when the command is OFF or no image is valid. -/
def Obligations.EntitlementFollowsTheRule : Prop :=
  (∀ (s : State) (i order : Nat), order = field (subRd s i 6) 0 2 →
    (order = 1 → subCommand s i = .full) ∧ (order = 2 → subCommand s i = .barker) ∧
    (order ≠ 1 → order ≠ 2 → subCommand s i = .off)) ∧
  (∀ (s : State) (i : Nat) (c : PortState), (c = .off ∨ s.lineup.image = none) → entitlement s i c = 0) ∧
  ∀ (s : State) (i : Nat) (c : PortState) (im : List LineupEntry) (k : Nat) (e : LineupEntry),
    s.lineup.image = some im → im.length = 96 → im[k]? = some e → c ≠ .off →
    ((entitlement s i c).getLsbD k = true ↔
      e.enabled = true ∧
      ((e.kind = .barker) ∨
       (c = .full ∧ e.zones.getLsbD (subZone s i) = false ∧
         (e.kind = .basic ∨
          (e.kind = .tier ∧ (subRd s i 3).getLsbD e.argument = true) ∨
          (e.kind = .event ∧ slotState s e.argument = .showing ∧
            ∃ j, j < 4 ∧ (purchaseAt s i j).valid = true ∧ (purchaseAt s i j).slot = e.argument ∧
              (purchaseAt s i j).event = slotEvent s e.argument)))))

/-! ## Requests -/

/-- R28: REQUEST_CODE_WRITE: squashed with SLOT_QUEUED for a slot queued or in progress; otherwise stored, and queued when
the merged status is REQUESTED. -/
def Obligations.RequestCodeWritePostsOrSquashes : Prop :=
  ∀ (n : Fin 8) (l : Lanes) (d : Word) (s : State), MemWf s.mem → running s = true → noLanes l = false →
    s.part.state ≠ .starting →
    ((n.val ∈ s.part.queue ∨ ∃ r, (n.val, r) ∈ s.part.inProgress) →
      ∃ t, exec (.requestCodeWrite n l d) s = .next t ∧ t.flags = s.flags ||| 0x0100 ∧
        (s.path.squash = none → t.path.squash = some (addrOf (requestWord n.val 0), .slotQueued)) ∧
        t = { s with port := t.port, flags := t.flags, path := { s.path with squash := t.path.squash } }) ∧
    ((n.val ∉ s.part.queue ∧ ∀ r, (n.val, r) ∉ s.part.inProgress) →
      ∃ t, exec (.requestCodeWrite n l d) s = .next t ∧
        rd t (requestWord n.val 0) = mergeLanes l (rd s (requestWord n.val 0)) d ∧
        WordsKept [requestWord n.val 0] s t ∧
        t.part.queue = (if requestStatus t n.val = 1 then s.part.queue ++ [n.val] else s.part.queue) ∧
        t = { s with mem := t.mem, port := t.port, part := { s.part with queue := t.part.queue } })

/-- R29 step 1: UNKNOWN_CODE: a request whose code names none ends FAILED with error 1, its result kept.
R30: a request taken in a part state that its row of the table does not mark ends FAILED with WRONG_STATE, and
nothing else changes. -/
def Obligations.RefusedRequestsFail : Prop :=
  (∀ (n : Nat) (rest : List Nat) (s : State), MemWf s.mem → started s = true → s.part.queue = n :: rest → n < 8 →
     (requestCode s n = 0 ∨ 11 < requestCode s n) →
     ∃ t, exec .unknownCode s = .next t ∧ SlotShows n 4 1 s t ∧ WordsKept [requestWord n 0] s t ∧
       t.part = afterRequest n rest s.part ∧ t = { s with mem := t.mem, port := t.port, part := t.part }) ∧
  (∀ (r : Request) (n : Nat) (rest : List Nat) (s : State), MemWf s.mem → AtHead r n rest s →
     (s.part.state = .unplanned ∨
      ((r = .deskPurchase ∨ r = .cancelPurchase) ∧ s.part.state ≠ .serving) ∨
      (r = .resume ∧ s.part.state = .serving)) →
     ∃ t, exec r.command s = .next t ∧ SlotShows n 4 2 s t ∧ WordsKept [requestWord n 0] s t ∧
       t.part = afterRequest n rest s.part ∧ t = { s with mem := t.mem, port := t.port, part := t.part })

/-- R122: ADD_ELEMENT that passes its tests.
R123, R127: RETIRE_ELEMENT of an element without children and without subscribers; the four counts of the Plant Monitor
follow its state and its warnings.
R122, R123: the tests of ADD_ELEMENT and those of RETIRE_ELEMENT, the first that fails naming the error; a request that
fails one changes nothing but its slot.
R110: the tree as it stands, from the parents of its elements: an element's depth is the number of elements on its chain;
it is dark when one of them, itself counted, is OUT or LATCHED_OUT, and shadowed when one above it is; a feed lies within an
element's subtree when its chain passes through it, and the levels of a subtree are counted from its top as one. -/
def Obligations.ElementsJoinAndLeaveTheTree : Prop :=
  (∀ (n i address parent : Nat) (rest : List Nat) (s : State), MemWf s.mem → RingLaw s →
     AtHead .addElement n rest s → s.part.state ≠ .unplanned →
     argA s n = i → argB s n = address → argResult s n = parent →
     1 ≤ i → i ≤ 255 → parent ≤ 255 → elementInUse s.plant.tree i = false →
     address ≠ 0 → (∀ p ∈ s.plant.tree, p.2.address ≠ address) →
     elementInUse s.plant.tree parent = true → depthOf s.plant.tree parent < 8 →
     ∃ u, exec .addElement s = .next (concluded s u) ∧
       tableGet u.plant.tree i = some { address := address, parent := parent, state := .unpolled } ∧
       (∀ j, j ≠ i → tableGet u.plant.tree j = tableGet s.plant.tree j) ∧
       rd u (elementWord i 0) = wordOf address ∧ rd u (elementWord i 1) = wordOf parent ∧
       rd u (elementWord i 4) = 1 ∧ (∀ w, 5 ≤ w → w ≤ 12 → rd u (elementWord i w) = 0) ∧
       SlotShows n 3 0 s u ∧ rd u (requestWord n 3) = wordOf (depthOf u.plant.tree i) ∧
       Logged .topology i 0 0 parent s u ∧
       KeptOutside (withRings (slotWords n ++ [0, 1, 4, 5, 6, 7, 8, 9, 10, 11, 12].map (elementWord i))) s u ∧
       u.part = afterRequest n rest s.part ∧
       u = { s with
         mem := u.mem, port := u.port, part := u.part, plant := { s.plant with tree := u.plant.tree }
         writer := u.writer, flags := u.flags }) ∧
  (∀ (n i : Nat) (e : Element) (rest : List Nat) (s : State), MemWf s.mem → RingLaw s →
     AtHead .retireElement n rest s → s.part.state ≠ .unplanned → argA s n = i → 1 ≤ i → i ≤ 255 →
     tableGet s.plant.tree i = some e → (∀ p ∈ s.plant.tree, p.2.parent ≠ i) → countOf s.order.direct i = 0 →
     ∃ u, exec .retireElement s = .next (concluded s u) ∧
       tableGet u.plant.tree i = none ∧ (∀ j, j ≠ i → tableGet u.plant.tree j = tableGet s.plant.tree j) ∧
       rd u (elementWord i 0) = 0 ∧ rd u (elementWord i 4) = 0 ∧ rd u (elementWord i 5) = 0 ∧
       rd u (elementWord i 7) = 0 ∧
       u.plant.outCount = s.plant.outCount - (if e.state = .out then 1 else 0) ∧
       u.plant.latchedCount = s.plant.latchedCount - (if e.state = .latchedOut then 1 else 0) ∧
       WarningsMoved i s u ∧
       u.plant = { s.plant with
         tree := u.plant.tree, outCount := u.plant.outCount, latchedCount := u.plant.latchedCount
         slowCount := u.plant.slowCount, standbyCount := u.plant.standbyCount } ∧
       SlotShows n 3 0 s u ∧ rd u (requestWord n 3) = 0 ∧ Logged .topology i 1 e.parent 0 s u ∧
       KeptOutside (withRings (slotWords n ++ [0, 4, 5, 7].map (elementWord i))) s u ∧
       u.part = afterRequest n rest s.part ∧
       u = { s with
         mem := u.mem, port := u.port, part := u.part, plant := u.plant, writer := u.writer, flags := u.flags }) ∧
  ((∀ (n i address parent e : Nat) (rest : List Nat) (s : State), MemWf s.mem →
     AtHead .addElement n rest s → s.part.state ≠ .unplanned →
     argA s n = i → argB s n = address → argResult s n = parent →
     (if i = 0 ∨ 255 < i ∨ 255 < parent then e = 3
      else if elementInUse s.plant.tree i = true then e = 5
      else if address = 0 ∨ ∃ p ∈ s.plant.tree, p.2.address = address then e = 6
      else if elementInUse s.plant.tree parent = false then e = 4
      else 8 ≤ depthOf s.plant.tree parent ∧ e = 8) →
     ∃ u, exec .addElement s = .next (concluded s u) ∧ SlotShows n 4 e s u ∧ WordsKept [requestWord n 0] s u ∧
       u.part = afterRequest n rest s.part ∧ u = { s with mem := u.mem, port := u.port, part := u.part }) ∧
   ∀ (n i e : Nat) (rest : List Nat) (s : State), MemWf s.mem →
     AtHead .retireElement n rest s → s.part.state ≠ .unplanned →
     argA s n = i →
     (if i = 0 ∨ 255 < i then e = 3
      else if elementInUse s.plant.tree i = false then e = 4
      else ((∃ p ∈ s.plant.tree, p.2.parent = i) ∨ 0 < countOf s.order.direct i) ∧ e = 9) →
     ∃ u, exec .retireElement s = .next (concluded s u) ∧ SlotShows n 4 e s u ∧ WordsKept [requestWord n 0] s u ∧
       u.part = afterRequest n rest s.part ∧ u = { s with mem := u.mem, port := u.port, part := u.part }) ∧
  (∀ (t : Tree) (i : Nat) (on : Nat → Nat → Prop),
     (∀ k j, on k j ↔ k < 256 ∧ (∀ m, m ≤ k → tableGet t ((parentIn t)^[m] i) ≠ none) ∧ (parentIn t)^[k] i = j) →
     (∀ d, depthOf t i = d ↔ d ≤ 256 ∧ (∀ k, k < d → ∃ j, on k j) ∧ ∀ j, ¬on d j) ∧
     (isDark t i = true ↔
       ∃ k j e, on k j ∧ tableGet t j = some e ∧ (e.state = .out ∨ e.state = .latchedOut)) ∧
     (isShadowed t i = true ↔
       ∃ k j e, 1 ≤ k ∧ on k j ∧ tableGet t j = some e ∧ (e.state = .out ∨ e.state = .latchedOut)) ∧
     (∀ e, e ≠ 0 → (inSubtree t e i = true ↔ ∃ k, on k e)) ∧
     (∀ l, levelsOf t i ≤ l ↔ ∀ p ∈ t, inSubtree t i p.1 = true → depthOf t p.1 + 1 ≤ depthOf t i + l))

/-- R124: SET_FEED to another parent that passes its tests, with its TOPOLOGY record; an element that goes from dark to lit has
its RESTORE sweep, or the RESYNC it was folded into, and for any other no sweep is opened.
R124: the tests of SET_FEED, the first that fails naming the error; a request that fails one changes nothing but its
slot, and one whose element already has that parent ends DONE with its depth and changes nothing else. -/
def Obligations.SetFeedMovesTheElement : Prop :=
  (∀ (n i parent : Nat) (e : Element) (rest : List Nat) (s : State), MemWf s.mem → RingLaw s →
     AtHead .setFeed n rest s → s.part.state ≠ .unplanned → argA s n = i → argB s n = parent →
     1 ≤ i → i ≤ 255 → parent ≤ 255 →
     tableGet s.plant.tree i = some e → elementInUse s.plant.tree parent = true →
     inSubtree s.plant.tree i parent = false →
     depthOf s.plant.tree parent + levelsOf s.plant.tree i ≤ 8 → e.parent ≠ parent →
     ∃ u, exec .setFeed s = .next (concluded s u) ∧
       tableGet u.plant.tree i = some { e with parent := parent } ∧
       (∀ j, j ≠ i → tableGet u.plant.tree j = tableGet s.plant.tree j) ∧
       rd u (elementWord i 1) = wordOf parent ∧
       SlotShows n 3 0 s u ∧ rd u (requestWord n 3) = wordOf (depthOf u.plant.tree i) ∧
       (isDark s.plant.tree i = false → Logged .topology i 2 e.parent parent s u ∧ u.sched = s.sched) ∧
       (isDark s.plant.tree i = true → isDark u.plant.tree i = false →
         ∃ w ∈ u.sched.sweeps, w.kind = .restore i ∨ w.kind = .resync) ∧
       LoggedFirst .topology i 2 e.parent parent s u ∧
       (isDark s.plant.tree i = true → isDark u.plant.tree i = true →
         Logged .topology i 2 e.parent parent s u ∧ u.sched = s.sched) ∧
       (isDark s.plant.tree i = true → isDark u.plant.tree i = false → s.sched.sweeps.length < 4 →
         Logged .topology i 2 e.parent parent s u ∧
         ∃ w ∈ u.sched.sweeps, w.kind = .restore i ∧ w.cursor = 0) ∧
       KeptOutside (withRings (slotWords n ++ [elementWord i 1])) s u ∧
       u.part = afterRequest n rest s.part ∧
       u = { s with
         mem := u.mem, port := u.port, part := u.part, plant := { s.plant with tree := u.plant.tree }
         sched := u.sched, writer := u.writer, flags := u.flags }) ∧
  ((∀ (n i parent e : Nat) (rest : List Nat) (s : State), MemWf s.mem →
     AtHead .setFeed n rest s → s.part.state ≠ .unplanned →
     argA s n = i → argB s n = parent →
     (if i = 0 ∨ 255 < i ∨ 255 < parent then e = 3
      else if elementInUse s.plant.tree i = false ∨ elementInUse s.plant.tree parent = false then e = 4
      else if inSubtree s.plant.tree i parent = true then e = 7
      else 8 < depthOf s.plant.tree parent + levelsOf s.plant.tree i ∧ e = 8) →
     ∃ u, exec .setFeed s = .next (concluded s u) ∧ SlotShows n 4 e s u ∧ WordsKept [requestWord n 0] s u ∧
       u.part = afterRequest n rest s.part ∧ u = { s with mem := u.mem, port := u.port, part := u.part }) ∧
   ∀ (n i parent : Nat) (e : Element) (rest : List Nat) (s : State), MemWf s.mem →
     AtHead .setFeed n rest s → s.part.state ≠ .unplanned → argA s n = i → argB s n = parent →
     1 ≤ i → i ≤ 255 → parent ≤ 255 →
     tableGet s.plant.tree i = some e → elementInUse s.plant.tree parent = true →
     inSubtree s.plant.tree i parent = false →
     depthOf s.plant.tree parent + levelsOf s.plant.tree i ≤ 8 → e.parent = parent →
     ∃ u, exec .setFeed s = .next (concluded s u) ∧ SlotShows n 3 0 s u ∧
       rd u (requestWord n 3) = wordOf (depthOf s.plant.tree i) ∧ WordsKept (slotWords n) s u ∧
       u.part = afterRequest n rest s.part ∧ u = { s with mem := u.mem, port := u.port, part := u.part })

/-- R125, R120: CLEAR_LATCH of a LATCHED_OUT element: the outage ends with its duration, UNLATCH is logged with the affected
count as it then stands, and an element that is now lit has its RESTORE sweep, or the RESYNC it was folded into.
R125: the tests of CLEAR_LATCH, the first that fails naming the error; a request that fails one changes nothing but its
slot. -/
def Obligations.ClearLatchReleasesTheElement : Prop :=
  (∀ (n i duration : Nat) (e : Element) (rest : List Nat) (s : State), MemWf s.mem → RingLaw s →
     AtHead .clearLatch n rest s → s.part.state ≠ .unplanned → argA s n = i → 1 ≤ i → i ≤ 255 →
     tableGet s.plant.tree i = some e → e.state = .latchedOut →
     duration = (if rdPair s (elementWord i 9) = 4294967295 ∨ s.clock.valid = false ∨
         currentStamp s < rdPair s (elementWord i 9) then 65535
       else min (currentStamp s - rdPair s (elementWord i 9)) 65535) →
     ∃ u, exec .clearLatch s = .next (concluded s u) ∧
       tableGet u.plant.tree i = some { e with state := .unpolled } ∧
       (∀ j, j ≠ i → tableGet u.plant.tree j = tableGet s.plant.tree j) ∧
       rd u (elementWord i 4) = 1 ∧ rd u (elementWord i 5) = 0 ∧
       rd u (elementWord i 11) = wordOf duration ∧
       LoggedFirst .unlatch i duration (affectedCount u.plant.tree s.order.direct i) e.address s u ∧
       (isDark u.plant.tree i = true ∨ s.sched.sweeps.length < 4 →
         Logged .unlatch i duration (affectedCount u.plant.tree s.order.direct i) e.address s u) ∧
       (isDark u.plant.tree i = false → ∃ w ∈ u.sched.sweeps, w.kind = .restore i ∨ w.kind = .resync) ∧
       (isDark u.plant.tree i = true → u.sched = s.sched) ∧
       (isDark u.plant.tree i = false → s.sched.sweeps.length < 4 →
         ∃ w ∈ u.sched.sweeps, w.kind = .restore i ∧ w.cursor = 0) ∧
       u.plant.latchedCount = s.plant.latchedCount - 1 ∧
       SlotShows n 3 0 s u ∧ rd u (requestWord n 3) = 0 ∧
       KeptOutside (withRings (slotWords n ++ [4, 5, 11].map (elementWord i))) s u ∧
       u.part = afterRequest n rest s.part ∧
       u = { s with
         mem := u.mem, port := u.port, part := u.part
         plant := { s.plant with tree := u.plant.tree, latchedCount := u.plant.latchedCount }
         sched := u.sched, writer := u.writer, flags := u.flags }) ∧
  (∀ (n i e : Nat) (rest : List Nat) (s : State), MemWf s.mem →
     AtHead .clearLatch n rest s → s.part.state ≠ .unplanned →
     argA s n = i →
     (if i = 0 ∨ 255 < i then e = 3
      else (tableGet s.plant.tree i = none ∧ e = 4) ∨
        ∃ x, tableGet s.plant.tree i = some x ∧ x.state ≠ .latchedOut ∧ e = 10) →
     ∃ u, exec .clearLatch s = .next (concluded s u) ∧ SlotShows n 4 e s u ∧ WordsKept [requestWord n 0] s u ∧
       u.part = afterRequest n rest s.part ∧ u = { s with mem := u.mem, port := u.port, part := u.part })

/-- R145, R146: ARM_EVENT that passes its tests; from event number 65535 the purchase entries of the slot are cleared
across the table: each is written with its valid mark cleared, its slot and its event number kept, and no other word of any
record is changed.
R145: the tests of ARM_EVENT, the first that fails naming the error; a request that fails one changes nothing but its
slot. -/
def Obligations.ArmEventArmsTheSlot : Prop :=
  (∀ (n k start finish cutoff event : Nat) (rest : List Nat) (s : State), MemWf s.mem →
     AtHead .armEvent n rest s → s.part.state ≠ .unplanned → argA s n = k → k ≤ 7 → s.clock.valid = true →
     start = rdPair s (slotWord k 0) → finish = rdPair s (slotWord k 2) → cutoff = (rd s (slotWord k 4)).toNat →
     start < finish → currentStamp s < finish → cutoff ≤ finish - start →
     (∃ im e, s.lineup.image = some im ∧ e ∈ im ∧ e.kind = .event ∧ e.argument = k) → slotState s k = .idle →
     event = (if (rd s (slotWord k 7)).toNat = 65535 then 1 else (rd s (slotWord k 7)).toNat + 1) →
     ∃ u, exec .armEvent s = .next (concluded s u) ∧
       tableGet u.slots.armed k = some
         { state := if currentStamp s < start then .open else .showing, event := event, startStamp := start
           endStamp := finish, cutoff := cutoff, price := (rd s (slotWord k 5)).toNat } ∧
       (∀ j, j ≠ k → tableGet u.slots.armed j = tableGet s.slots.armed j) ∧
       rd u (slotWord k 6) = (if currentStamp s < start then 1 else 2) ∧ rd u (slotWord k 7) = wordOf event ∧
       rd u (slotWord k 8) = 0 ∧ rd u (slotWord k 9) = 0 ∧ rd u (slotWord k 10) = 0 ∧
       SlotShows n 3 0 s u ∧ rd u (requestWord n 3) = wordOf event ∧
       ((rd s (slotWord k 7)).toNat ≠ 65535 →
         WordsKept (slotWords n ++ [6, 7, 8, 9, 10].map (slotWord k)) s u) ∧
       ((rd s (slotWord k 7)).toNat = 65535 →
         (∀ i j, i < 4096 → j < 4 → (purchaseAt s i j).slot = k →
           purchaseAt u i j = { purchaseAt s i j with valid := false }) ∧
         (∀ i w, i < 4096 → w < 32 → (∀ j, j < 4 → (purchaseAt s i j).slot = k → w ≠ 14 + 2 * j) →
           subRd u i w = subRd s i w) ∧
         KeptOutside
           (fun a => decide (a ∈ slotWords n ++ [6, 7, 8, 9, 10].map (slotWord k)) ||
             (decide (0x10000 ≤ a) && decide (a < 0x30000))) s u) ∧
       u.part = afterRequest n rest s.part ∧
       u = { s with
         mem := u.mem, port := u.port, part := u.part, slots := { s.slots with armed := u.slots.armed } }) ∧
  (∀ (n k start finish cutoff e : Nat) (named : Bool) (rest : List Nat) (s : State), MemWf s.mem →
     AtHead .armEvent n rest s → s.part.state ≠ .unplanned →
     argA s n = k →
     start = rdPair s (slotWord k 0) → finish = rdPair s (slotWord k 2) → cutoff = (rd s (slotWord k 4)).toNat →
     (named = true ↔ ∃ im x, s.lineup.image = some im ∧ x ∈ im ∧ x.kind = .event ∧ x.argument = k) →
     (if 7 < k then e = 3
      else if s.clock.valid = false then e = 19
      else if finish ≤ start ∨ finish ≤ currentStamp s ∨ finish < start + cutoff then e = 11
      else if named = false then e = 12
      else slotState s k ≠ .idle ∧ e = 2) →
     ∃ u, exec .armEvent s = .next (concluded s u) ∧ SlotShows n 4 e s u ∧ WordsKept [requestWord n 0] s u ∧
       u.part = afterRequest n rest s.part ∧ u = { s with mem := u.mem, port := u.port, part := u.part })

/-- R147: DISARM_EVENT in SERVING, QUIESCING or QUIESCED: of a CLOSED slot, or of an OPEN slot without purchases, it makes
the slot IDLE and ends DONE with result 0, the event number, the count and the revenue stay in the slot record, and every
entry that names the slot is stale; of an OPEN slot with purchases or a SHOWING slot it fails with HAS_PURCHASES, of an
IDLE slot with WRONG_STATE, and of a slot number above 7 with BAD_INDEX. -/
def Obligations.DisarmEventFreesTheSlot : Prop :=
  ∀ (n k : Nat) (rest : List Nat) (s : State), MemWf s.mem →
    AtHead .disarmEvent n rest s → s.part.state ≠ .unplanned → argA s n = k →
    (k ≤ 7 → (slotState s k = .closed ∨ (slotState s k = .open ∧ rd s (slotWord k 8) = 0)) →
      ∃ u, exec .disarmEvent s = .next (concluded s u) ∧
        slotState u k = .idle ∧ rd u (slotWord k 6) = 0 ∧ slotEvent u k = slotEvent s k ∧
        (∀ j, j ≠ k → tableGet u.slots.armed j = tableGet s.slots.armed j) ∧
        (∀ i j, (purchaseAt u i j).slot = k → isLive u (purchaseAt u i j) = false) ∧
        SlotShows n 3 0 s u ∧ rd u (requestWord n 3) = 0 ∧ WordsKept (slotWords n ++ [slotWord k 6]) s u ∧
        u.part = afterRequest n rest s.part ∧
        u = { s with
          mem := u.mem, port := u.port, part := u.part, slots := { s.slots with armed := u.slots.armed } }) ∧
    (∀ e, ((7 < k ∧ e = 3) ∨ (k ≤ 7 ∧ slotState s k = .idle ∧ e = 2) ∨
        (k ≤ 7 ∧ (slotState s k = .showing ∨ (slotState s k = .open ∧ rd s (slotWord k 8) ≠ 0)) ∧ e = 20)) →
      ∃ u, exec .disarmEvent s = .next (concluded s u) ∧ SlotShows n 4 e s u ∧
        WordsKept [requestWord n 0] s u ∧ u.part = afterRequest n rest s.part ∧
        u = { s with mem := u.mem, port := u.port, part := u.part })

/-- R152, R154: DESK_PURCHASE that passes every check: the entry, the PPV spent, the journal record, the slot's count and
revenue, and the submission while the slot shows.
R152, R153: the checks of DESK_PURCHASE, the first that fails naming the error; a refusal changes nothing but its slot,
and a refusal for CREDIT sets the notice. -/
def Obligations.DeskPurchaseChecksThenFills : Prop :=
  (∀ (n i k j price : Nat) (rest : List Nat) (r l : RingCopy) (s : State), MemWf s.mem → RingLaw s →
     AtHead .deskPurchase n rest s → s.part.state = .serving → argA s n = i → argB s n = k → i < 4096 → k ≤ 7 →
     s.clock.valid = true → servable s i = true → (subStatus s i).confirmed = .full →
     (slotState s k = .open ∨
       (slotState s k = .showing ∧ currentStamp s < (armedOf s k).startStamp + (armedOf s k).cutoff)) →
     livePlaceOf s i k = none → freePlace s i = some j → price = (armedOf s k).price →
     (subRd s i 13).toNat + price ≤ (subRd s i 5).toNat →
     s.writer.log = some l → s.writer.journal = some r → ringFull .journal r = false →
     ∃ u, exec .deskPurchase s = .next (concluded s u) ∧
       subRd u i (14 + 2 * j) = wordOf (k + 32768) ∧ subRd u i (15 + 2 * j) = wordOf (slotEvent s k) ∧
       (subRd u i 13).toNat = (subRd s i 13).toNat + price ∧
       rd u (slotWord k 8) = wordOf ((rd s (slotWord k 8)).toNat + 1) ∧
       rdPair u (slotWord k 9) = (rdPair s (slotWord k 9) + price) % 4294967296 ∧
       JournalAt r.head r.sequence 1 [i, k, slotEvent s k, price, 1, 0, 0, 0, 0, 0, 0, 0] s u ∧
       u.writer.journal =
         some { head := (r.head + 1) % 1024, tail := r.tail, sequence := nextSequence r.sequence } ∧
       (slotState s k = .showing → Submitted i s u ∧ isWaiting u i = true) ∧ SubmissionOnly s u ∧
       (slotState s k = .open → u.sched = s.sched) ∧
       SlotShows n 3 0 s u ∧ rd u (requestWord n 3) = wordOf r.sequence ∧
       KeptOutside
         (withRings (slotWords n ++ [13, 14 + 2 * j, 15 + 2 * j].map (subscriberWord i) ++
           [8, 9, 10].map (slotWord k))) s u ∧
       u.part = afterRequest n rest s.part ∧
       u = { s with
         mem := u.mem, port := u.port, part := u.part, sched := u.sched
         writer := { s.writer with journal := u.writer.journal, taken := false } }) ∧
  (∀ (n i k e : Nat) (rest : List Nat) (r l : RingCopy) (s : State), MemWf s.mem →
     AtHead .deskPurchase n rest s → s.part.state = .serving → argA s n = i → argB s n = k →
     s.writer.log = some l → s.writer.journal = some r →
     (if 4096 ≤ i ∨ 7 < k then e = 3
      else if s.clock.valid = false then e = 19
      else if servable s i = false ∨ (subStatus s i).confirmed ≠ .full then e = 17
      else if purchasable s k = false then e = 13
      else if livePlaceOf s i k ≠ none then e = 14
      else if freePlace s i = none then e = 15
      else if (subRd s i 5).toNat < (subRd s i 13).toNat + (armedOf s k).price then e = 16
      else ringFull .journal r = true ∧ e = 18) →
     ∃ u, exec .deskPurchase s = .next (concluded s u) ∧ SlotShows n 4 e s u ∧
       (e ≠ 16 → WordsKept [requestWord n 0] s u) ∧
       (e = 16 → WordsKept [requestWord n 0, subscriberWord i 7] s u ∧
         subRd u i 7 = subRd s i 7 ||| 4) ∧
       (e ≠ 18 → u.flags = s.flags) ∧ (e = 18 → u.flags = s.flags ||| 0x1000) ∧
       u.part = afterRequest n rest s.part ∧
       u = { s with mem := u.mem, port := u.port, part := u.part, flags := u.flags })

/-- R156: CANCEL_PURCHASE of a live entry of an OPEN slot refunds it, conflicted record or not; otherwise the first test that
fails names the error, and the failure changes nothing but the slot. -/
def Obligations.CancelPurchaseRefunds : Prop :=
  (∀ (n i k j price : Nat) (rest : List Nat) (r l : RingCopy) (s : State), MemWf s.mem → RingLaw s →
     AtHead .cancelPurchase n rest s → s.part.state = .serving → argA s n = i → argB s n = k → i < 4096 → k ≤ 7 →
     inUse s i = true → slotState s k = .open → livePlaceOf s i k = some j → price = (armedOf s k).price →
     s.writer.log = some l → s.writer.journal = some r → ringFull .journal r = false →
     ∃ u, exec .cancelPurchase s = .next (concluded s u) ∧
       (purchaseAt u i j).valid = false ∧
       (subRd u i 13).toNat = (subRd s i 13).toNat - price ∧
       rd u (slotWord k 8) = wordOf ((rd s (slotWord k 8)).toNat - 1) ∧
       rdPair u (slotWord k 9) = rdPair s (slotWord k 9) - price ∧
       JournalAt r.head r.sequence 2 [i, k, slotEvent s k, price, 1, 0, 0, 0, 0, 0, 0, 0] s u ∧
       u.writer.journal =
         some { head := (r.head + 1) % 1024, tail := r.tail, sequence := nextSequence r.sequence } ∧
       SlotShows n 3 0 s u ∧ rd u (requestWord n 3) = wordOf r.sequence ∧
       KeptOutside
         (withRings (slotWords n ++ [13, 14 + 2 * j].map (subscriberWord i) ++ [8, 9, 10].map (slotWord k))) s u ∧
       u.part = afterRequest n rest s.part ∧
       u = { s with
         mem := u.mem, port := u.port, part := u.part
         writer := { s.writer with journal := u.writer.journal, taken := false } }) ∧
  ∀ (n i k e : Nat) (rest : List Nat) (r l : RingCopy) (s : State), MemWf s.mem →
    AtHead .cancelPurchase n rest s → s.part.state = .serving → argA s n = i → argB s n = k →
    s.writer.log = some l → s.writer.journal = some r →
    (if 4096 ≤ i ∨ 7 < k then e = 3
     else if inUse s i = false then e = 4
     else if slotState s k ≠ .open ∨ livePlaceOf s i k = none then e = 13
     else ringFull .journal r = true ∧ e = 18) →
    ∃ u, exec .cancelPurchase s = .next (concluded s u) ∧ SlotShows n 4 e s u ∧ WordsKept [requestWord n 0] s u ∧
      (e ≠ 18 → u.flags = s.flags) ∧ (e = 18 → u.flags = s.flags ||| 0x1000) ∧
      u.part = afterRequest n rest s.part ∧
      u = { s with mem := u.mem, port := u.port, part := u.part, flags := u.flags }

/-- R161, R162: CLOSE_NOW begins a close bound to its slot when the Close Engine is IDLE, and ends FAILED with BUSY when
it is CLOSING. -/
def Obligations.CloseNowBeginsAClose : Prop :=
  ∀ (n : Nat) (k : CloseCopy) (rest : List Nat) (s : State), MemWf s.mem → RingLaw s →
    AtHead .closeNow n rest s → s.part.state ≠ .unplanned → s.close.copy = some k →
    (k.status = .idle →
      ∃ u, exec .closeNow s = .next (concluded s u) ∧
        u.close = { s.close with
          copy := some
            { status := .closing, cursor := 0, number := if 65535 ≤ k.number then 1 else k.number + 1 }
          bound := some n, statements := 0, resumed := false, stalled := false } ∧
        rd u 0x126 = 1 ∧ rd u 0x127 = 0 ∧
        rd u 0x128 = wordOf (if 65535 ≤ k.number then 1 else k.number + 1) ∧
        Logged .closeBegin (if 65535 ≤ k.number then 1 else k.number + 1) 1 n 0 s u ∧
        SlotShows n 2 0 s u ∧
        KeptOutside (withRings [requestWord n 0, 0x126, 0x127, 0x128]) s u ∧
        u.part = { s.part with queue := rest, inProgress := s.part.inProgress ++ [(n, .closeNow)] } ∧
        u = { s with
          mem := u.mem, port := u.port, part := u.part, close := u.close, writer := u.writer, flags := u.flags }) ∧
    (k.status = .closing →
      ∃ u, exec .closeNow s = .next (concluded s u) ∧ SlotShows n 4 21 s u ∧ WordsKept [requestWord n 0] s u ∧
        u.part = afterRequest n rest s.part ∧ u = { s with mem := u.mem, port := u.port, part := u.part })

/-- R32, R102: QUIESCE: in QUIESCED it ends DONE with the HELD count; in QUIESCING it stays in progress; in SERVING the
candidates are given up: their entries are freed, a subscriber's record becomes HELD with the rest of its status kept, and a
retire goes back to not yet sent. With a frame in flight, an entry left or a poll outstanding the part is then QUIESCING and
the request in progress. With none of them it is QUIESCED at once and every QUIESCE ends DONE with the HELD count of that
moment. No other word of memory changes. R66: the HELD count rises by the candidates that were not HELD, the UNREACHED count
falls by those that were UNREACHED, where no record has two candidates (R96).
R33: RESUME: the part enters SERVING, a RESYNC sweep is open, every QUIESCE in progress ends FAILED with SUPERSEDED,
and RESUME ends DONE with result 0; but for these slots and the log's record of a sweep that gives its place up, memory is
as it was. -/
def Obligations.QuiesceAndResume : Prop :=
  (∀ (n : Nat) (rest : List Nat) (s : State), MemWf s.mem → AtHead .quiesce n rest s →
     (s.part.state = .quiesced →
       ∃ t, exec .quiesce s = .next t ∧ t.part = afterRequest n rest s.part ∧ SlotShows n 3 0 s t ∧
         rd t (requestWord n 3) = wordOf s.order.held ∧ WordsKept (slotWords n) s t ∧
         t = { s with mem := t.mem, port := t.port, part := t.part }) ∧
     (s.part.state = .quiescing → isQuiet s = false →
       ∃ t, exec .quiesce s = .next t ∧ SlotShows n 2 0 s t ∧ WordsKept [requestWord n 0] s t ∧
         t.part = { s.part with queue := rest, inProgress := s.part.inProgress ++ [(n, .quiesce)] } ∧
         t = { s with mem := t.mem, port := t.port, part := t.part }) ∧
     (s.part.state = .serving → SlotLaw s →
       ∃ t, exec .quiesce s = .next t ∧
         t.tracker = { s.tracker with table := s.tracker.table.filter fun x => !givenUp s x.tap x.port } ∧
         t.order = { s.order with
           unreached := t.order.unreached, held := t.order.held
           retires := s.order.retires.map fun x => if retireGivenUp s x.tap x.port then { x with sent := false } else x } ∧
         (∀ e ∈ s.tracker.table, e.phase = .candidate → e.kind = .subscriber →
           subStatus t e.subscriber = { subStatus s e.subscriber with link := .held }) ∧
         (∀ given : List Nat,
           given = (s.tracker.table.filter fun e =>
             decide (e.kind = .subscriber) && decide (e.phase = .candidate)).map (fun e => e.subscriber) → given.Nodup →
           t.order.held = s.order.held + (given.filter fun i =>
             !(subStatus s i).conflict && decide ((subStatus s i).link ≠ .held)).length ∧
           t.order.unreached = s.order.unreached - (given.filter fun i =>
             !(subStatus s i).conflict && decide ((subStatus s i).link = .unreached)).length) ∧
         (isQuiet { s with tracker := t.tracker } = false →
           SlotShows n 2 0 s t ∧
           t.part = { s.part with
             state := .quiescing, queue := rest, inProgress := s.part.inProgress ++ [(n, .quiesce)] } ∧
           WordsKept (requestWord n 0 :: givenUpWords s) s t) ∧
         (isQuiet { s with tracker := t.tracker } = true →
           (∀ m, m = n ∨ (m, .quiesce) ∈ s.part.inProgress →
             SlotShows m 3 0 s t ∧ rd t (requestWord m 3) = wordOf t.order.held) ∧
           t.part = { s.part with
             state := .quiesced, queue := rest
             inProgress := s.part.inProgress.filter fun q => decide (q.2 = .closeNow) } ∧
           WordsKept (slotWords n ++ (quiesceSlots s).flatMap slotWords ++ givenUpWords s) s t) ∧
         FlagsFollow s t ∧
         t = { s with
           mem := t.mem, port := t.port, part := t.part, order := t.order, tracker := t.tracker, flags := t.flags })) ∧
  (∀ (n : Nat) (rest : List Nat) (s : State), MemWf s.mem → RingLaw s → AtHead .resume n rest s →
     SlotLaw s → (s.part.state = .quiescing ∨ s.part.state = .quiesced) →
     ∃ u, exec .resume s = .next (concluded s u) ∧ u.part.state = .serving ∧ u.part.queue = rest ∧
       (∃ w ∈ u.sched.sweeps, w.kind = .resync ∧ w.cursor = 0) ∧ u.sched.refresh.resting = false ∧
       (∀ m, (m, .quiesce) ∈ s.part.inProgress → SlotShows m 4 22 s u ∧ ∀ r, (m, r) ∉ u.part.inProgress) ∧
       SlotShows n 3 0 s u ∧ rd u (requestWord n 3) = 0 ∧
       u.part = { s.part with
         state := .serving, queue := rest
         inProgress := s.part.inProgress.filter fun q => decide (q.2 = .closeNow) } ∧
       KeptOutside (withRings (slotWords n ++ (quiesceSlots s).map fun m => requestWord m 0)) s u ∧
       (s.sched.sweeps.length < 4 →
         WordsKept (slotWords n ++ (quiesceSlots s).map fun m => requestWord m 0) s u ∧ u.writer = s.writer) ∧
       u = { s with
         mem := u.mem, port := u.port, part := u.part, sched := u.sched, writer := u.writer, flags := u.flags })

/-! ## Subscriber records and ring tails -/

/-- R55: UNUSED_WRITE: a write to word 0 or 1 that finds the tap id 0 and leaves it 0 is stored and nothing else
happens.
R62: REWRITE that keeps the address of a record without the conflict mark stores the word and submits the subscriber;
a conflicted record claims an address that no other record holds, and is in neither count before or after (R66); a retire that
waits for that address is cancelled with its pending entry, and leaves the sequence of its latest frame in word 9 (R58). -/
def Obligations.UnusedWriteAndRewrite : Prop :=
  (∀ (i : Fin 4096) (w : DropWord) (l : Lanes) (d m : Word) (s : State), MemWf s.mem → running s = true →
     noLanes l = false → s.part.state ≠ .starting →
     m = mergeLanes l (rd s (dropWordAddress i w)) d →
     subTap s i.val = 0 → (w = .tap → m = 0) →
     ∃ t, exec (.unusedWrite i w l d) s = .next t ∧ rd t (dropWordAddress i w) = m ∧
       WordsKept [dropWordAddress i w] s t ∧ t = { s with mem := t.mem, port := t.port }) ∧
  (∀ (i : Fin 4096) (w : DropWord) (l : Lanes) (d m : Word) (c : DropChange) (s : State), MemWf s.mem →
     running s = true → noLanes l = false → s.part.state ≠ .starting →
     m = mergeLanes l (rd s (dropWordAddress i w)) d → c = dropChange i.val w m s →
     c.oldTap ≠ 0 → c.newTap ≠ 0 →
     (c.status.conflict = false → c.oldTap = c.newTap → c.oldPort = c.newPort →
       ∃ u, exec (.rewrite i w l d) s = .next (concluded s u) ∧ rd u (dropWordAddress i w) = m ∧
         isWaiting u i.val = true ∧ Submitted i.val s u ∧ SubmissionOnly s u ∧ WordsKept [dropWordAddress i w] s u ∧
         u.order = { s.order with outstanding := none } ∧
         u = { s with mem := u.mem, port := u.port, order := u.order, sched := u.sched }) ∧
     (c.status.conflict = true →
       (holderOf s c.newTap c.newPort = none ∨ holderOf s c.newTap c.newPort = some i.val) →
       ∃ u, exec (.rewrite i w l d) s = .next (concluded s u) ∧ rd u (dropWordAddress i w) = m ∧
         subRd u i.val 8 = 0 ∧
         u.order.directory = tableSet s.order.directory (8 * c.newTap + c.newPort) i.val ∧
         u.order.direct = s.order.direct ∧ isWaiting u i.val = true ∧
         u.order = { s.order with
           directory := u.order.directory, outstanding := none,
           retires := retiresBut c.newTap c.newPort s.order.retires } ∧
         u.tracker = { s.tracker with
           table := entriesLeft false (retireWaits s c.newTap c.newPort) i.val c.newTap c.newPort s.tracker.table } ∧
         subRd u i.val 9 = lastSequenceAfter s i.val c.newTap c.newPort ∧ Submitted i.val s u ∧ SubmissionOnly s u ∧
         WordsKept [dropWordAddress i w, subscriberWord i.val 8, subscriberWord i.val 9] s u ∧
         u = { s with
           mem := u.mem, port := u.port, order := u.order, sched := u.sched, tracker := u.tracker }))

/-- R59, R58, R56, R63, R65: ACTIVATION at an address that no other record holds: words 8 to 24 are cleared, the directory
and the direct count follow, a waiting retire of that address is cancelled with its pending entry, and the subscriber is
submitted.
R55, R62: a write that would give a record an address held by another is squashed with DUPLICATE_DROP, and nothing but
the latch and the flag records it: an ACTIVATION, a MOVE, and the REWRITE by which a conflicted record claims an address. -/
def Obligations.ActivationOrSquash : Prop :=
  (∀ (i : Fin 4096) (l : Lanes) (d m : Word) (s : State), MemWf s.mem → running s = true → noLanes l = false →
     s.part.state ≠ .starting → m = mergeLanes l (rd s (subscriberWord i.val 0)) d →
     subTap s i.val = 0 → m ≠ 0 →
     (holderOf s m.toNat (subPort s i.val) = none ∨ holderOf s m.toNat (subPort s i.val) = some i.val) →
     ∃ u, exec (.activation i l d) s = .next (concluded s u) ∧
       subRd u i.val 0 = m ∧
       (∀ w, 8 ≤ w → w ≤ 24 → w ≠ 9 → subRd u i.val w = 0) ∧
       subRd u i.val 9 = (match retireEntryAt s m.toNat (subPort s i.val) with
         | some r => wordOf (r.lastSequence.getD 0)
         | none => 0) ∧
       u.order = { s.order with
         directory := tableSet s.order.directory (8 * m.toNat + subPort s i.val) i.val
         direct := setCount s.order.direct (subFeed s i.val) (countOf s.order.direct (subFeed s i.val) + 1)
         retires := s.order.retires.filter fun r =>
           !(decide (r.tap = m.toNat) && decide (r.port = subPort s i.val))
         outstanding := none } ∧
       rd u (elementWord (subFeed s i.val) 13) = wordOf (countOf s.order.direct (subFeed s i.val) + 1) ∧
       u.tracker = { s.tracker with
         table := entriesLeft false (retireWaits s m.toNat (subPort s i.val)) i.val m.toNat (subPort s i.val) s.tracker.table } ∧
       isWaiting u i.val = true ∧ Submitted i.val s u ∧ SubmissionOnly s u ∧
       WordsKept ([0, 8, 9, 10, 11, 12, 13, 14, 15, 16, 17, 18, 19, 20, 21, 22, 23, 24].map (subscriberWord i.val) ++
         [elementWord (subFeed s i.val) 13]) s u ∧
       u = { s with
         mem := u.mem, port := u.port, order := u.order, sched := u.sched, tracker := u.tracker }) ∧
  ((∀ (i : Fin 4096) (l : Lanes) (d m : Word) (j : Nat) (s : State), running s = true → noLanes l = false →
     s.part.state ≠ .starting → m = mergeLanes l (rd s (subscriberWord i.val 0)) d →
     subTap s i.val = 0 → m ≠ 0 → holderOf s m.toNat (subPort s i.val) = some j → j ≠ i.val →
     ∃ t, exec (.activation i l d) s = .next t ∧ t.flags = s.flags ||| 0x0100 ∧
       (s.path.squash = none → t.path.squash = some (addrOf (subscriberWord i.val 0), .duplicateDrop)) ∧
       t = { s with port := t.port, flags := t.flags, path := { s.path with squash := t.path.squash } }) ∧
   ∀ (i : Fin 4096) (w : DropWord) (l : Lanes) (d m : Word) (c : DropChange) (j : Nat) (x : Instr) (s : State),
     running s = true → noLanes l = false → s.part.state ≠ .starting →
     m = mergeLanes l (rd s (dropWordAddress i w)) d → c = dropChange i.val w m s → c.oldTap ≠ 0 → c.newTap ≠ 0 →
     ((x = .move i w l d ∧ c.status.conflict = false ∧ (c.oldTap ≠ c.newTap ∨ c.oldPort ≠ c.newPort)) ∨
       (x = .rewrite i w l d ∧ c.status.conflict = true)) →
     holderOf s c.newTap c.newPort = some j → j ≠ i.val →
     ∃ t, exec x s = .next t ∧ t.flags = s.flags ||| 0x0100 ∧
       (s.path.squash = none → t.path.squash = some (addrOf (dropWordAddress i w), .duplicateDrop)) ∧
       t = { s with port := t.port, flags := t.flags, path := { s.path with squash := t.path.squash } })

/-- R60, R57, R58, R55: MOVE of a record without the conflict mark to an address that no other record holds: word 8 is
cleared, the directory follows, the old drop joins the retire list if it is retiring, and the subscriber is submitted; a
full list takes it when the new address waits in the list, whose entry is cancelled, and otherwise the write is squashed
with RETIRE_LIST_FULL. R103: the pending entry of an AWAITING subscriber is dropped, and a cancelled retire takes its pending
entry with it and leaves the sequence of its latest frame in word 9. -/
def Obligations.MoveChangesTheDrop : Prop :=
  ∀ (i : Fin 4096) (w : DropWord) (l : Lanes) (d m : Word) (c : DropChange) (s : State), MemWf s.mem →
    running s = true → noLanes l = false → s.part.state ≠ .starting →
    m = mergeLanes l (rd s (dropWordAddress i w)) d → c = dropChange i.val w m s →
    c.oldTap ≠ 0 → c.newTap ≠ 0 → c.status.conflict = false →
    (c.oldTap ≠ c.newTap ∨ c.oldPort ≠ c.newPort) →
    (holderOf s c.newTap c.newPort = none ∨ holderOf s c.newTap c.newPort = some i.val) →
    ((s.order.retires.length < 16 ∨ isRetiring c = false ∨
        (s.order.retires.length = 16 ∧ ∃ r ∈ s.order.retires, r.tap = c.newTap ∧ r.port = c.newPort)) →
    ∃ u, exec (.move i w l d) s = .next (concluded s u) ∧
      rd u (dropWordAddress i w) = m ∧ subRd u i.val 8 = 0 ∧
      u.order.directory =
        tableSet (tableErase s.order.directory (8 * c.oldTap + c.oldPort)) (8 * c.newTap + c.newPort) i.val ∧
      (isRetiring c = true →
        ∃ r ∈ u.order.retires, r.tap = c.oldTap ∧ r.port = c.oldPort ∧ r.subscriber = i.val ∧ r.sent = false ∧
          r.avoided = (subRd s i.val 9).toNat) ∧
      (∀ r ∈ u.order.retires, ¬(r.tap = c.newTap ∧ r.port = c.newPort)) ∧
      u.order.unreached = s.order.unreached - (if c.status.link = .unreached then 1 else 0) ∧
      u.order.held = s.order.held - (if c.status.link = .held then 1 else 0) ∧
      u.order.direct = s.order.direct ∧
      u.order = { s.order with
        directory := u.order.directory, unreached := u.order.unreached, held := u.order.held, outstanding := none
        retires := retiresBut c.newTap c.newPort (retiresJoined s c) } ∧
      u.tracker = { s.tracker with
        table := entriesLeft (decide (c.status.link = .awaiting)) (retireWaits s c.newTap c.newPort) i.val c.newTap
          c.newPort s.tracker.table } ∧
      subRd u i.val 9 = lastSequenceAfter s i.val c.newTap c.newPort ∧
      isWaiting u i.val = true ∧ Submitted i.val s u ∧ SubmissionOnly s u ∧
      WordsKept [dropWordAddress i w, subscriberWord i.val 8, subscriberWord i.val 9] s u ∧
      u = { s with
        mem := u.mem, port := u.port, order := u.order, sched := u.sched, tracker := u.tracker }) ∧
    (isRetiring c = true → 16 ≤ s.order.retires.length →
      (∀ r ∈ s.order.retires, ¬(r.tap = c.newTap ∧ r.port = c.newPort)) →
      ∃ t, exec (.move i w l d) s = .next t ∧ t.flags = s.flags ||| 0x0100 ∧
        (s.path.squash = none → t.path.squash = some (addrOf (dropWordAddress i w), .retireListFull)) ∧
        t = { s with port := t.port, flags := t.flags, path := { s.path with squash := t.path.squash } })

/-- R61, R55, R57: RETIRE: refused with LIVE_PURCHASES while the list holds a live entry, and with RETIRE_LIST_FULL when the
drop is retiring and the retire list is full; otherwise the record leaves use, and with it the UNREACHED or HELD count
(R66). R63: the direct count of its feed falls by one, in the element's record too, and no other does. R103: the pending entry of an AWAITING subscriber is dropped. -/
def Obligations.RetireLeavesUse : Prop :=
  ∀ (i : Fin 4096) (l : Lanes) (d : Word) (c : DropChange) (s : State), MemWf s.mem →
    running s = true → noLanes l = false → s.part.state ≠ .starting →
    mergeLanes l (rd s (subscriberWord i.val 0)) d = 0 → c = dropChange i.val .tap 0 s → c.oldTap ≠ 0 →
    (hasLiveEntry s i.val = true →
      ∃ t, exec (.retire i l d) s = .next t ∧ t.flags = s.flags ||| 0x0100 ∧
        (s.path.squash = none → t.path.squash = some (addrOf (subscriberWord i.val 0), .livePurchases)) ∧
        t = { s with port := t.port, flags := t.flags, path := { s.path with squash := t.path.squash } }) ∧
    (hasLiveEntry s i.val = false → isRetiring c = true → 16 ≤ s.order.retires.length →
      ∃ t, exec (.retire i l d) s = .next t ∧ t.flags = s.flags ||| 0x0100 ∧
        (s.path.squash = none → t.path.squash = some (addrOf (subscriberWord i.val 0), .retireListFull)) ∧
        t = { s with port := t.port, flags := t.flags, path := { s.path with squash := t.path.squash } }) ∧
    (hasLiveEntry s i.val = false → (s.order.retires.length < 16 ∨ isRetiring c = false) →
      ∃ u, exec (.retire i l d) s = .next (concluded s u) ∧
        subRd u i.val 0 = 0 ∧ subRd u i.val 8 = 0 ∧
        countOf u.order.direct (subFeed s i.val) = countOf s.order.direct (subFeed s i.val) - 1 ∧
        (c.status.conflict = false →
          u.order.directory = tableErase s.order.directory (8 * c.oldTap + c.oldPort)) ∧
        (c.status.conflict = true → u.order.directory = s.order.directory) ∧
        (isRetiring c = true →
          ∃ r ∈ u.order.retires, r.tap = c.oldTap ∧ r.port = c.oldPort ∧ r.subscriber = i.val ∧ r.sent = false) ∧
        (isRetiring c = false → u.order.retires = s.order.retires) ∧
        rd u (elementWord (subFeed s i.val) 13) = wordOf (countOf s.order.direct (subFeed s i.val) - 1) ∧
        (∀ e, e ≠ subFeed s i.val → countOf u.order.direct e = countOf s.order.direct e) ∧
        u.order = { s.order with
          directory := u.order.directory, unreached := u.order.unreached, held := u.order.held, outstanding := none,
          direct := u.order.direct, retires := retiresJoined s c } ∧
        u.tracker = { s.tracker with
          table := entriesLeft (decide (c.status.link = .awaiting)) false i.val 0 0 s.tracker.table } ∧
        CountsMoved (subStatus s i.val) (subStatus u i.val) s u ∧
        WordsKept [subscriberWord i.val 0, subscriberWord i.val 8, elementWord (subFeed s i.val) 13] s u ∧
        u = { s with mem := u.mem, port := u.port, order := u.order, tracker := u.tracker })

/-- R63: FEED_CHANGE of an in-use record moves one count from the old feed to the new; a record not in use, or a write that
keeps the feed, moves none.
R64, R65: ORDER_WRITE submits an in-use, non-conflicted subscriber: at the tail of the queue if it waits nowhere and
there is room, in the deferred map if there is none; any other record is only written.
R175: RING_TAIL_WRITE stores a value within the window from the tail forward to the head, and the head for any other;
the copy takes it. R168: a journal tail that moves sets a stalled close going, and nothing else follows: its visit is the
engine's next, at a CLOSE_VISIT (log entry 13). -/
def Obligations.FeedOrderAndTailWrites : Prop :=
  (∀ (i : Fin 4096) (l : Lanes) (d m : Word) (old new : Nat) (s : State), MemWf s.mem → running s = true →
     noLanes l = false → s.part.state ≠ .starting →
     m = mergeLanes l (rd s (subscriberWord i.val 2)) d → old = subFeed s i.val → new = m.toNat % 256 →
     ∃ t, exec (.feedChange i l d) s = .next t ∧ subRd t i.val 2 = m ∧
       (inUse s i.val = true → old ≠ new →
         countOf t.order.direct old = countOf s.order.direct old - 1 ∧
         countOf t.order.direct new = countOf s.order.direct new + 1 ∧
         (∀ e, e ≠ old → e ≠ new → countOf t.order.direct e = countOf s.order.direct e) ∧
         rd t (elementWord old 13) = wordOf (countOf s.order.direct old - 1) ∧
         rd t (elementWord new 13) = wordOf (countOf s.order.direct new + 1) ∧
         WordsKept [subscriberWord i.val 2, elementWord old 13, elementWord new 13] s t ∧
         t = { s with mem := t.mem, port := t.port
                      order := { s.order with direct := t.order.direct, outstanding := none } }) ∧
       ((inUse s i.val = false ∨ old = new) →
         WordsKept [subscriberWord i.val 2] s t ∧ t = { s with mem := t.mem, port := t.port })) ∧
  (∀ (i : Fin 4096) (w : OrderWord) (l : Lanes) (d m : Word) (s : State), MemWf s.mem → running s = true →
     noLanes l = false → s.part.state ≠ .starting → m = mergeLanes l (rd s (orderWordAddress i w)) d →
     (servable s i.val = false →
       ∃ t, exec (.orderWrite i w l d) s = .next t ∧ rd t (orderWordAddress i w) = m ∧
         WordsKept [orderWordAddress i w] s t ∧ t = { s with mem := t.mem, port := t.port }) ∧
     (servable s i.val = true →
       ∃ u, exec (.orderWrite i w l d) s = .next (concluded s u) ∧ rd u (orderWordAddress i w) = m ∧
         WordsKept [orderWordAddress i w] s u ∧
         Submitted i.val s u ∧ SubmissionOnly s u ∧ u.sched.refresh.resting = false ∧
         u = { s with mem := u.mem, port := u.port, sched := u.sched
                      order := { s.order with outstanding := none } })) ∧
  (∀ (n : RingName) (l : Lanes) (d : Word) (r : RingCopy) (v : Nat) (s : State), MemWf s.mem → RingLaw s →
     running s = true → noLanes l = false → s.part.state ≠ .starting → ringCopy s n = some r →
     v = (mergeLanes l (rd s (tailAddress n)) d).toNat →
     ∃ t, exec (.ringTailWrite n l d) s = .next t ∧
       ((∃ k, k ≤ (r.head + ringSize n - r.tail) % ringSize n ∧ v = (r.tail + k) % ringSize n) →
         (rd t (tailAddress n)).toNat = v ∧ (∀ r', ringCopy t n = some r' → r'.tail = v)) ∧
       ((¬ ∃ k, k ≤ (r.head + ringSize n - r.tail) % ringSize n ∧ v = (r.tail + k) % ringSize n) →
         (rd t (tailAddress n)).toNat = r.head ∧ (∀ r', ringCopy t n = some r' → r'.tail = r.head)) ∧
       ringCopy t n = some { r with tail := (rd t (tailAddress n)).toNat } ∧
       WordsKept [tailAddress n] s t ∧ FlagsFollow s t ∧
       (n = .journal → (rd t (tailAddress n)).toNat ≠ r.tail → t.close = { s.close with stalled := false }) ∧
       ((n = .log ∨ (rd t (tailAddress n)).toNat = r.tail) → t.close = s.close) ∧
       t = { s with mem := t.mem, port := t.port, writer := t.writer, close := t.close, flags := t.flags })

/-! ## Downstream link -/

/-- R70, R99, R113: FRAME_COMPLETION: link time reaches the frame's end, the counter rises by one and wraps, the link is
idle, and the completion is handed on: an acked frame starts its entry's timeout, a POLL frame its poll's. Link time is the
model's (log entry 4).
R71, R32, R177: how a command that prompts the arbiter concludes, from the state `u` it leaves: with the link IDLE in
SERVING the arbiter grants the first class in its order that is eligible, and none if none is; otherwise the link stays as it
is. When the quiet condition holds in QUIESCING, the part is QUIESCED, and every QUIESCE in progress ends DONE: its slot shows
DONE with error OK and the HELD count as result, and is in progress no more; nothing else of the part is changed, and no other
word of memory. But for this and the grant nothing is changed but the flags, which latch the conditions that arose, and the
port, which carried the writes (R14). That this is one with the command's step (log entries 6 and 24), and that after a power-fail warning
there is neither grant nor quiet transition (log entry 26), are the model's. -/
def Obligations.FrameCompletionHandsOn : Prop :=
  (∀ (frame : List Byte) (h : HandOff) (ends : Nat) (s : State), s.power.vcc = true →
     s.sched.link = .sending frame h ends →
     ∃ u, exec .frameCompletion s = .next (concluded s u) ∧
       u.time = max s.time ends ∧
       u.sched = { s.sched with link := .idle, framesSent := s.sched.framesSent + 1 } ∧
       (h = .nobody → u.tracker = s.tracker ∧ u.plant = s.plant) ∧
       (∀ tap port q, h = .ack tap port q → u.plant = s.plant ∧
         u.tracker = { s.tracker with table := s.tracker.table.map fun e =>
           if e.tap = tap ∧ e.port = port ∧ e.sequence = q ∧ e.phase = .sending then
             { e with
               phase := .awaiting, deadline := max s.time ends + 640 * (planOf s).ackTimeout
               completed := max s.time ends }
           else e }) ∧
       (h = .poll → u.tracker = s.tracker ∧
         u.plant = { s.plant with poll := s.plant.poll.map fun p =>
           { p with
             phase := .awaiting, completed := max s.time ends
             deadline := max s.time ends + 640 * (planOf s).pollTimeout } }) ∧
       u = { s with time := u.time, sched := u.sched, tracker := u.tracker, plant := u.plant }) ∧
  (∀ (s u t : State), t = concluded s u →
     (running u = true → u.part.state = .serving → u.sched.link = .idle →
       (∀ c, t.sched.link = .granted c ↔ FirstEligible u c) ∧ ((∀ c, ¬Eligible u c) → t.sched.link = .idle)) ∧
     ((running u = false ∨ u.part.state ≠ .serving ∨ u.sched.link ≠ .idle) → t.sched = u.sched) ∧
     t.sched = { u.sched with link := t.sched.link } ∧
     ((running u = true ∧ u.part.state = .quiescing ∧ u.sched.link = .idle ∧ u.tracker.table = [] ∧ u.plant.poll = none) →
       t.part = { u.part with
         state := .quiesced, inProgress := u.part.inProgress.filter fun p => decide ((p.1, .quiesce) ∉ u.part.inProgress) } ∧
       (MemWf u.mem →
         (∀ n, (n, .quiesce) ∈ u.part.inProgress →
           SlotShows n 3 0 u t ∧ rd t (requestWord n 3) = wordOf u.order.held) ∧
         WordsKept ((quiesceSlots u).flatMap slotWords) u t) ∧
       (PortIdle u → t.port = if quiesceSlots u = [] then u.port else { u.port with last := some .part }) ∧
       (quiesceSlots u = [] → t.mem = u.mem)) ∧
     (¬(running u = true ∧ u.part.state = .quiescing ∧ u.sched.link = .idle ∧ u.tracker.table = [] ∧
         u.plant.poll = none) →
       t = { u with sched := t.sched, flags := t.flags }) ∧
     t.flags = (if t.part.state = .starting then u.flags else u.flags ||| (conditions t &&& ~~~(conditions s))) ∧
     t = { u with mem := t.mem, port := t.port, part := t.part, sched := t.sched, flags := t.flags })

/-- R74, 12.10: REPLY_GRANT sends the oldest reply.
R84, R48: SWEEP_GRANT: the oldest sweep that holds a frame gives it up: a MAP frame of a LINEUP sweep's batch, or an
unacked AUTH frame with sequence 0, which changes no record and no pending entry. An AUTH build reads the record (R14,
R72).
R87, R88: REFRESH_GRANT: an owed MAP frame first, then the held subscriber's unacked AUTH frame, whose build reads the
record (R14, R72). That the MAP frames go before a subscriber held at the wrap is the model's choice (log entry 33).
R45, R46, R48, R113, 12.10: the bytes of the frames. AUTH: kind, tap id, port, sequence, command, the twelve bytes of
the vector, in which position c is bit c mod 8 of byte c / 8; one built for a subscriber takes its record's tap, port,
command and entitlement. MAP frame n of a batch: kind, first position 12n, count 12, and for each of the twelve positions its
channel number, frequency code and flags. POLL: kind, address, sequence. Two-byte fields go high byte first, and so does the
CRC over all the bytes before it. -/
def Obligations.SchedulerGrantsSendWhatTheyHold : Prop :=
  (∀ (r : Reply) (rest : List Reply) (s : State), s.power.vcc = true → s.power.resetting = false →
     s.sched.link = .granted .reply → s.sched.replies = r :: rest →
     exec .replyGrant s = .next { s with sched := { s.sched with
       replies := rest
       link := .sending
         (withCrc [0x14, BitVec.ofNat 8 (r.tap / 256), BitVec.ofNat 8 r.tap, r.port, r.token, r.result]) .nobody
           (s.time + 64) } }) ∧
  (∀ (w : Sweep) (s : State), s.power.vcc = true → s.power.resetting = false → s.sched.link = .granted .sweep →
     s.sched.sweeps.find? sweepHolds = some w →
     (∀ im, w.kind = .lineup → w.maps < 8 → s.lineup.image = some im →
       ∃ t, exec .sweepGrant s = .next t ∧
         t.sched.link = .sending (mapFor im w.maps) .nobody (s.time + frameBits (mapFor im w.maps)) ∧
         ({ w with maps := w.maps + 1 } : Sweep) ∈ t.sched.sweeps ∧
         t.sched.sweeps.length = s.sched.sweeps.length ∧ t = { s with sched := t.sched }) ∧
     (∀ i, w.held = some i → (w.kind ≠ .lineup ∨ 8 ≤ w.maps) → servable s i = true →
       ∃ t, exec .sweepGrant s = .next t ∧
         t.sched.link = .sending (authFor s i 0) .nobody (s.time + 160) ∧
         (w.cursor < 4096 → ({ w with held := none } : Sweep) ∈ t.sched.sweeps) ∧
         (∀ v ∈ t.sched.sweeps, ¬(4096 ≤ v.cursor ∧ v.held = none ∧ (v.kind ≠ .lineup ∨ 8 ≤ v.maps))) ∧
         (PortIdle s → t.port = { s.port with last := some .part }) ∧ t = { s with sched := t.sched, port := t.port }) ∧
     (∀ i, w.held = some i → (w.kind ≠ .lineup ∨ 8 ≤ w.maps) → servable s i = false →
       ∃ u, exec .sweepGrant s = .next (concluded s u) ∧ u.sched.link = .idle ∧
         (w.cursor < 4096 → ({ w with held := none } : Sweep) ∈ u.sched.sweeps) ∧
         (PortIdle s → u.port = { s.port with last := some .part }) ∧ u = { s with sched := u.sched, port := u.port })) ∧
  (∀ s : State, s.power.vcc = true → s.power.resetting = false → s.sched.link = .granted .refresh →
     (∀ im, s.sched.refresh.maps < 8 → s.lineup.image = some im →
       exec .refreshGrant s = .next { s with sched := { s.sched with
         refresh := { s.sched.refresh with maps := s.sched.refresh.maps + 1 }
         link := .sending (mapFor im s.sched.refresh.maps) .nobody
           (s.time + frameBits (mapFor im s.sched.refresh.maps)) } }) ∧
     (∀ i, 8 ≤ s.sched.refresh.maps → s.sched.refresh.held = some i → servable s i = true →
       ∃ t, exec .refreshGrant s = .next t ∧ (PortIdle s → t.port = { s.port with last := some .part }) ∧
         t = { s with
           port := t.port
           sched := { s.sched with
             refresh := { s.sched.refresh with held := none }
             link := .sending (authFor s i 0) .nobody (s.time + 160) } }) ∧
     (∀ i, 8 ≤ s.sched.refresh.maps → s.sched.refresh.held = some i → servable s i = false →
       ∃ u, exec .refreshGrant s = .next (concluded s u) ∧ (PortIdle s → u.port = { s.port with last := some .part }) ∧
         u = { s with
           port := u.port
           sched := { s.sched with refresh := { s.sched.refresh with held := none }, link := .idle } })) ∧
  (∀ (byte : Nat → Byte) (checked : List Byte → List Byte), (∀ n, byte n = BitVec.ofNat 8 n) →
     (∀ b, checked b = b ++ [byte ((crc16 b).toNat / 256), byte (crc16 b).toNat]) →
     (∀ (tap port q c : Nat) (v : BitVec 96), ∃ bits : List Byte,
       authFrame tap port q c v = checked ([0x11, byte (tap / 256), byte tap, byte port, byte q, byte c] ++ bits) ∧
       bits.length = 12 ∧
       ∀ (p : Nat) (b : Byte), p < 96 → bits[p / 8]? = some b → b.getLsbD (p % 8) = v.getLsbD p) ∧
     (∀ (s : State) (i q c : Nat),
       c = (match subCommand s i with | .off => 0 | .full => 1 | .barker => 2) →
       authFor s i q = authFrame (subTap s i) (subPort s i) q c (entitlement s i (subCommand s i))) ∧
     (∀ (im : List LineupEntry) (n : Nat), im.length = 96 → n < 8 → ∃ fields : List Byte,
       mapFor im n = checked ([0x12, byte (12 * n), 12] ++ fields) ∧ fields.length = 60 ∧
       ∀ (j : Nat) (e : LineupEntry), j < 12 → im[12 * n + j]? = some e →
         (fields.drop (5 * j)).take 5 =
           [byte (e.channel / 256), byte e.channel, byte (e.frequency / 256), byte e.frequency,
            byte ((if e.enabled then 128 else 0) +
              match e.kind with | .basic => 0 | .tier => 1 | .event => 2 | .barker => 3)]) ∧
     ∀ address q, pollFrame address q = checked [0x13, byte (address / 256), byte address, byte q])

/-- R75, R101: RETRY_GRANT of a SUBSCRIBER candidate: its attempts rise in the entry and in word 8, its command is that of
the new build, its sequence and word 9 stay; a record no longer served frees the entry and is left SETTLED. Of a RETIRE
candidate: the same OFF frame, and its attempts rise. R66: the counts follow a status that is left SETTLED. That a
retried entry keeps its deadline and its completion time until the frame completes is the model's choice (log entry 39). -/
def Obligations.RetryGrantSendsAgain : Prop :=
  (∀ (e : PendingAck) (s : State), s.power.vcc = true → s.power.resetting = false →
    s.sched.link = .granted .retry → firstCandidate s.tracker.table = some e → e.kind = .retire →
    exec .retryGrant s = .next { s with
      sched := { s.sched with link :=
        (.sending (authFrame e.tap e.port e.sequence 0 0) (.ack e.tap e.port e.sequence) (s.time + 160)) }
      tracker := { s.tracker with table := s.tracker.table.map fun x =>
        if x.tap = e.tap ∧ x.port = e.port then { x with attempts := x.attempts + 1, phase := .sending } else x } }) ∧
  ∀ (e : PendingAck) (i : Nat) (s : State), MemWf s.mem → s.power.vcc = true → s.power.resetting = false →
    s.sched.link = .granted .retry → firstCandidate s.tracker.table = some e → e.kind = .subscriber →
    e.subscriber = i →
    (servable s i = true → e.attempts < 7 →
      ∃ t, exec .retryGrant s = .next t ∧
        t.sched = { s.sched with link :=
          (.sending (authFor s i e.sequence) (.ack e.tap e.port e.sequence) (s.time + 160)) } ∧
        t.tracker = { s.tracker with table := s.tracker.table.map fun x =>
          if x.tap = e.tap ∧ x.port = e.port then
            { x with attempts := x.attempts + 1, command := subCommand s i, phase := .sending }
          else x } ∧
        subStatus t i = { subStatus s i with attempts := e.attempts + 1 } ∧
        WordsKept [subscriberWord i 8] s t ∧ FlagsFollow s t ∧
        t = { s with
          mem := t.mem, port := t.port, sched := t.sched, tracker := t.tracker, flags := t.flags }) ∧
    (servable s i = false →
      ∃ u, exec .retryGrant s = .next (concluded s u) ∧ u.sched.link = .idle ∧
        (∀ x ∈ u.tracker.table, ¬(x.tap = e.tap ∧ x.port = e.port)) ∧
        (subStatus u i).link = .settled ∧ (subStatus u i).confirmed = (subStatus s i).confirmed ∧
        (subStatus u i).attempts = (subStatus s i).attempts ∧ CountsMoved (subStatus s i) (subStatus u i) s u ∧
        WordsKept [subscriberWord i 8] s u ∧
        u = { s with
          mem := u.mem, port := u.port, sched := u.sched, tracker := u.tracker
          order := { s.order with unreached := u.order.unreached, held := u.order.held } })

/-- R112, R113: POLL_GRANT polls the first eligible element from the pointer. That the record's completion time and deadline
are 0 until the frame completes is the model's choice (log entry 39).
R77, R104: RETIRE_GRANT sends an OFF frame for the oldest unsent entry with the counter's sequence, or the one after it
where that is the avoided one. That the deadline and the completion time of a new pending entry are 0 until its frame completes
is the model's choice (log entry 39). -/
def Obligations.PollAndRetireGrants : Prop :=
  (∀ (i : Nat) (e : Element) (s : State), MemWf s.mem → s.power.vcc = true → s.power.resetting = false →
     s.sched.link = .granted .poll → s.plant.poll = none →
     choosePoll s.plant.tree s.plant.pollPointer = some i → tableGet s.plant.tree i = some e →
     pollEligible s.plant.tree i = true ∧
     ∃ t, exec .pollGrant s = .next t ∧ rd t (elementWord i 6) = 0 ∧ WordsKept [elementWord i 6] s t ∧
       t.plant = { s.plant with
         pollPointer := if i = 255 then 1 else i + 1
         pollSequence := if 255 ≤ s.plant.pollSequence then 1 else s.plant.pollSequence + 1
         poll := some
           { index := i, address := e.address, sequence := s.plant.pollSequence, phase := .sending, completed := 0
             deadline := 0 } } ∧
       t.sched = { s.sched with link :=
         (.sending (pollFrame e.address s.plant.pollSequence) .poll (s.time + 48)) } ∧
       t = { s with mem := t.mem, port := t.port, plant := t.plant, sched := t.sched }) ∧
  (∀ (r : RetireEntry) (q : Nat) (s : State), s.power.vcc = true → s.power.resetting = false →
     s.sched.link = .granted .retire → s.order.retires.find? (fun x => !x.sent) = some r →
     q = (if s.tracker.retireSequence ≠ r.avoided then s.tracker.retireSequence
          else if s.tracker.retireSequence ≥ 255 then 1 else s.tracker.retireSequence + 1) →
     ∃ t, exec .retireGrant s = .next t ∧
       t.tracker = { s.tracker with
         retireSequence := if q ≥ 255 then 1 else q + 1
         table := s.tracker.table ++
           [{ kind := .retire, subscriber := r.subscriber, tap := r.tap, port := r.port, sequence := q
              command := .off, attempts := 1, phase := .sending, deadline := 0, completed := 0 }] } ∧
       (∀ x ∈ t.order.retires, x.tap = r.tap → x.port = r.port → x.sent = true ∧ x.lastSequence = some q) ∧
       t.order.retires.length = s.order.retires.length ∧
       t.sched = { s.sched with link :=
         (.sending (authFrame r.tap r.port q 0 0) (.ack r.tap r.port q) (s.time + 160)) } ∧
       t = { s with
         tracker := t.tracker, sched := t.sched, order := { s.order with retires := t.order.retires } })

/-- R79, R103: IMMEDIATE_GRANT serves the head of the queue: a new sequence in word 9, a new pending entry in place of any
it had, and AWAITING with attempts 1 in word 8, so that the record leaves the UNREACHED or HELD count it was in (R66); for a record no longer served the grant lapses and its status stands. Either
way the part has read the record (R14, R72), refill follows with 32 or fewer left in the queue, a queue with room lets stopped
sweeps go on (R85), and nothing else of the scheduler changes. That a word 9 above 255 is followed by 1 is the model's choice (log entry 37), and so are the deadline and the completion
time of 0 that a new pending entry has until its frame completes (log entry 39).
R80: refill moves marks to the tail of the queue, upward from the pointer and wrapping, until the queue holds 64 or no
mark is left; the marks left behind come later in that order, and the pointer then stands after the last one moved. -/
def Obligations.ImmediateGrantAndRefill : Prop :=
  (∀ (i q : Nat) (rest : List Nat) (s : State), MemWf s.mem → s.power.vcc = true → s.power.resetting = false →
     s.sched.link = .granted .immediate → s.sched.queue = i :: rest → i < 4096 →
     q = (if (subRd s i 9).toNat = 0 ∨ 255 ≤ (subRd s i 9).toNat then 1 else (subRd s i 9).toNat + 1) →
     (servable s i = true →
       ∃ t, exec .immediateGrant s = .next t ∧ subRd t i 9 = wordOf q ∧
         subStatus t i = { subStatus s i with link := .awaiting, attempts := 1 } ∧
         t.tracker = { s.tracker with table :=
           (s.tracker.table.filter fun e => !(decide (e.kind = .subscriber) && decide (e.subscriber = i))) ++
             [{ kind := .subscriber, subscriber := i, tap := subTap s i, port := subPort s i, sequence := q
                command := subCommand s i, attempts := 1, phase := .sending, deadline := 0, completed := 0 }] } ∧
         t.sched.link =
           .sending (authFor s i q) (.ack (subTap s i) (subPort s i) q) (s.time + 160) ∧
         (32 < rest.length → t.sched.queue = rest) ∧
         (rest.length ≤ 32 →
           t.sched.queue = (refill { s with sched := { s.sched with queue := rest } }).sched.queue) ∧
         t.sched = { afterPop rest s with link := t.sched.link } ∧
         CountsMoved (subStatus s i) (subStatus t i) s t ∧
         WordsKept [subscriberWord i 8, subscriberWord i 9] s t ∧ FlagsFollow s t ∧
         t = { s with
           mem := t.mem, port := t.port, sched := t.sched, tracker := t.tracker, flags := t.flags
           order := { s.order with unreached := t.order.unreached, held := t.order.held } }) ∧
     (servable s i = false →
       ∃ u, exec .immediateGrant s = .next (concluded s u) ∧ u.sched.link = .idle ∧
         (32 < rest.length → u.sched.queue = rest) ∧ u.sched = { afterPop rest s with link := .idle } ∧
         (PortIdle s → u.port = { s.port with last := some .part }) ∧ u = { s with sched := u.sched, port := u.port })) ∧
  (∀ (p : Nat) (before : Nat → Nat → Prop) (s : State), CapacityLaw s → p = s.sched.refillPointer →
     (∀ x y, before x y ↔ (p ≤ x ∧ y < p) ∨ (x < y ∧ (y < p ∨ p ≤ x))) →
     ∃ moved, (refill s).sched.queue = s.sched.queue ++ moved ∧ moved.Pairwise before ∧
       (∀ x, x ∈ s.sched.deferred ↔ x ∈ moved ∨ x ∈ (refill s).sched.deferred) ∧
       (∀ x ∈ moved, ∀ y ∈ (refill s).sched.deferred, before x y) ∧
       ((refill s).sched.queue.length = 64 ∨ (refill s).sched.deferred = []) ∧
       (moved = [] → refill s = s) ∧
       (∀ x, moved.getLast? = some x → (refill s).sched.refillPointer = (x + 1) % 4096) ∧
       refill s = { s with sched := { s.sched with
         queue := (refill s).sched.queue, deferred := (refill s).sched.deferred
         refillPointer := (refill s).sched.refillPointer } })

/-- R83 to R85: SWEEP_VISIT: the oldest requeue sweep that is not stopped passes, submits, or stops at a full queue; with
none, the oldest broadcast sweep that holds nothing holds a record that matches. A sweep whose cursor has passed the table
ends; the other sweeps and the rest of the scheduler stay. The record is read (R14), and none is written.
R87, R88: REFRESH_VISIT: what is done with the record at the cursor, by its status; the cursor wraps from 4095 to 0,
owing a MAP batch if an image is valid; a visit that holds a frame or owes a batch starts the count of visits again, another
raises it, and refresh rests after 4096 of them in a row; the rest of the scheduler stays. The record is read (R14), and none
is written.
R83, R84, R85, R50: which sweep a visit is made for, and which record matches it: a requeue sweep visits unless it is
stopped at a full queue, a broadcast sweep while it holds no frame and owes no MAP frame. A record matches only in use and
not conflicted: RESTORE one that is HELD behind a lit feed in its element's subtree, RESYNC one that is UNREACHED or HELD
behind a lit feed, LINEUP any, EVENT_START and EVENT_END one whose list holds an entry marked valid with their slot and event. -/
def Obligations.VisitsJudgeTheRecord : Prop :=
  (∀ s : State, running s = true → s.part.state = .serving →
     (∀ w, s.sched.sweeps.find? wantsRequeue = some w →
       ∃ u, exec .sweepVisit s = .next (concluded s u) ∧
         (requeueMatches w.kind s w.cursor = true → isWaiting s w.cursor = false →
           s.sched.queue.length < 64 → u.sched.queue = s.sched.queue ++ [w.cursor] ∧
           (w.cursor + 1 < 4096 → ({ w with cursor := w.cursor + 1 } : Sweep) ∈ u.sched.sweeps)) ∧
         (requeueMatches w.kind s w.cursor = true → isWaiting s w.cursor = false →
           64 ≤ s.sched.queue.length → u.sched.queue = s.sched.queue ∧ u.sched.deferred = s.sched.deferred ∧
           ({ w with stopped := true } : Sweep) ∈ u.sched.sweeps) ∧
         ((requeueMatches w.kind s w.cursor = false ∨ isWaiting s w.cursor = true) →
           u.sched.queue = s.sched.queue ∧
           (w.cursor + 1 < 4096 → ({ w with cursor := w.cursor + 1 } : Sweep) ∈ u.sched.sweeps)) ∧
         (∀ (submits full : Prop) (older newer : List Sweep) (v : Sweep),
           (submits ↔ requeueMatches w.kind s w.cursor = true ∧ isWaiting s w.cursor = false ∧ s.sched.queue.length < 64) →
           (full ↔ requeueMatches w.kind s w.cursor = true ∧ isWaiting s w.cursor = false ∧ 64 ≤ s.sched.queue.length) →
           s.sched.sweeps = older ++ w :: newer → (∀ x ∈ older, wantsRequeue x = false) →
           (full → v = { w with stopped := true }) → (¬full → v = { w with cursor := w.cursor + 1 }) →
           (submits → u.sched.refresh = s.sched.refresh.woken) ∧ (¬submits → u.sched.refresh = s.sched.refresh) ∧
           u.sched = { s.sched with
             queue := u.sched.queue, refresh := u.sched.refresh, sweeps := sweepsLeft (older ++ v :: newer) }) ∧
         (PortIdle s → u.port = { s.port with last := some .part }) ∧ u = { s with sched := u.sched, port := u.port }) ∧
     (∀ w, s.sched.sweeps.find? wantsRequeue = none → s.sched.sweeps.find? wantsBroadcast = some w →
       ∃ u, exec .sweepVisit s = .next (concluded s u) ∧ u.sched.queue = s.sched.queue ∧
         (broadcastMatches w.kind s w.cursor = true →
           ({ w with cursor := w.cursor + 1, held := some w.cursor } : Sweep) ∈ u.sched.sweeps) ∧
         (broadcastMatches w.kind s w.cursor = false → w.cursor + 1 < 4096 →
           ({ w with cursor := w.cursor + 1, held := none } : Sweep) ∈ u.sched.sweeps) ∧
         (∀ (older newer : List Sweep) (v : Sweep), s.sched.sweeps = older ++ w :: newer →
           (∀ x ∈ older, wantsBroadcast x = false) →
           v = { w with
             cursor := w.cursor + 1
             held := if broadcastMatches w.kind s w.cursor = true then some w.cursor else none } →
           u.sched = { s.sched with sweeps := sweepsLeft (older ++ v :: newer) }) ∧
         (PortIdle s → u.port = { s.port with last := some .part }) ∧ u = { s with sched := u.sched, port := u.port })) ∧
  (∀ (c : Nat) (s : State), running s = true → s.part.state = .serving →
     s.sched.sweeps.find? wantsRequeue = none → s.sched.sweeps.find? wantsBroadcast = none →
     s.sched.refresh.maps = 8 → s.sched.refresh.held = none → s.sched.refresh.resting = false →
     c = s.sched.refresh.cursor → c < 4096 →
     ∃ u, exec .refreshVisit s = .next (concluded s u) ∧
       u.sched.refresh.cursor = (if c = 4095 then 0 else c + 1) ∧
       (c = 4095 → s.lineup.image ≠ none → u.sched.refresh.maps = 0 ∧ u.sched.refresh.visits = 0) ∧
       ((c ≠ 4095 ∨ s.lineup.image = none) → u.sched.refresh.maps = 8) ∧
       ((servable s c = false ∨ isWaiting s c = true ∨ (subStatus s c).link = .awaiting ∨
           ((subStatus s c).link = .held ∧ isDark s.plant.tree (subFeed s c) = true)) →
         u.sched.refresh.held = none ∧ u.sched.queue = s.sched.queue) ∧
       (servable s c = true → isWaiting s c = false →
         ((subStatus s c).link = .settled → u.sched.refresh.held = some c ∧ u.sched.queue = s.sched.queue) ∧
         (((subStatus s c).link = .unreached ∨
             ((subStatus s c).link = .held ∧ isDark s.plant.tree (subFeed s c) = false)) →
           (s.sched.queue.length < 64 → u.sched.refresh.held = none ∧ u.sched.queue = s.sched.queue ++ [c]) ∧
           (64 ≤ s.sched.queue.length → u.sched.refresh.held = some c ∧ u.sched.queue = s.sched.queue))) ∧
       (c = 4095 → s.lineup.image ≠ none → u.sched.refresh.resting = false) ∧
       ((c ≠ 4095 ∨ s.lineup.image = none) →
         (u.sched.refresh.held ≠ none → u.sched.refresh.visits = 0 ∧ u.sched.refresh.resting = false) ∧
         (u.sched.refresh.held = none → u.sched.queue = s.sched.queue →
           u.sched.refresh.visits = s.sched.refresh.visits + 1 ∧
           u.sched.refresh.resting = decide (4096 ≤ s.sched.refresh.visits + 1)) ∧
         (u.sched.queue ≠ s.sched.queue → u.sched.refresh.resting = false ∧
           u.sched.refresh.visits =
             if 4096 ≤ s.sched.refresh.visits + 1 then 0 else s.sched.refresh.visits + 1)) ∧
       u.sched = { s.sched with queue := u.sched.queue, refresh := u.sched.refresh } ∧
       (PortIdle s → u.port = { s.port with last := some .part }) ∧ u = { s with sched := u.sched, port := u.port }) ∧
  ((∀ w : Sweep,
     (wantsRequeue w = true ↔
       ((∃ e, w.kind = .restore e) ∨ w.kind = .resync) ∧ w.stopped = false ∧ w.cursor < 4096) ∧
     (wantsBroadcast w = true ↔
       (w.kind = .lineup ∨ ∃ j n, w.kind = .eventStart j n ∨ w.kind = .eventEnd j n) ∧ w.held = none ∧
         (w.kind = .lineup → 8 ≤ w.maps) ∧ w.cursor < 4096)) ∧
   ∀ (i : Nat) (s : State) (lit : Prop) (holds : Nat → Nat → Prop),
     (lit ↔ isDark s.plant.tree (subFeed s i) = false) →
     (∀ slot event, holds slot event ↔ ∃ j, j < 4 ∧ purchaseAt s i j = { valid := true, slot := slot, event := event }) →
     (servable s i = true ↔
       subTap s i ≠ 0 ∧ s.order.outstanding ≠ some (i, .activation) ∧ (subStatus s i).conflict = false) ∧
     (∀ e, requeueMatches (.restore e) s i = true ↔
       servable s i = true ∧ (subStatus s i).link = .held ∧ inSubtree s.plant.tree e (subFeed s i) = true ∧ lit) ∧
     (requeueMatches .resync s i = true ↔
       servable s i = true ∧ ((subStatus s i).link = .unreached ∨ ((subStatus s i).link = .held ∧ lit))) ∧
     (broadcastMatches .lineup s i = true ↔ servable s i = true) ∧
     (∀ slot event, (broadcastMatches (.eventStart slot event) s i = true ↔ servable s i = true ∧ holds slot event) ∧
       (broadcastMatches (.eventEnd slot event) s i = true ↔ servable s i = true ∧ holds slot event)))

/-! ## Return link and deadlines -/

/-- R92, R93, R94: BAD_UPSTREAM_FRAME: a frame that fails a test of R92 is counted, moves the noise integrator two steps up
to its ceiling while a working copy is valid, and does nothing else. R95: after a reset a frame of any kind that began
before the line had rested is discarded uncounted, and the line has then rested (log entry 30). That a STATUS carries `dt`,
the link time since the command before, is the model's choice (log entry 4). -/
def Obligations.BadFramesAreCountedOnly : Prop :=
  (∀ (dt : Nat) (f : UpFrame) (c : Instr) (s : State), s.power.vcc = true → s.power.resetting = false →
    ¬LineRested f s → (c = .badUpstreamFrame f ∨ c = .ack f ∨ c = .buy f) →
    exec c s = .next { s with receiver := { s.receiver with rested := true } } ∧
    exec (.status dt f) s = .next { s with time := s.time + dt, receiver := { s.receiver with rested := true } }) ∧
  ∀ (f : UpFrame) (s : State), s.power.vcc = true → s.power.resetting = false → LineRested f s →
    (f.framingError = true ∨ f.overrun = true ∨
      ¬((f.bytes.head?, f.bytes.length) ∈
        [((some 0x21 : Option Byte), 8), ((some 0x22 : Option Byte), 7), ((some 0x23 : Option Byte), 8)]) ∨
      withCrc (f.bytes.take (f.bytes.length - 2)) ≠ f.bytes) →
    ∃ t, exec (.badUpstreamFrame f) s = .next t ∧
      t.receiver.badFrames = s.receiver.badFrames + 1 ∧ t.receiver.rested = true ∧
      (s.plan.copy = none → t.receiver.noise = s.receiver.noise ∧ t.receiver.noisy = s.receiver.noisy) ∧
      (∀ p m c, s.plan.copy = some p → m = 2 * (p.noiseLimit + p.noiseHold) → c = min (min s.receiver.noise m + 2) m →
        (s.receiver.noisy = false ∧ 2 * p.noiseLimit ≤ c → t.receiver.noise = m ∧ t.receiver.noisy = true) ∧
        ((s.receiver.noisy = true ∨ c < 2 * p.noiseLimit) →
          t.receiver.noise = c ∧ t.receiver.noisy = s.receiver.noisy)) ∧
      FlagsFollow s t ∧ t = { s with receiver := t.receiver, flags := t.flags }

/-- R97, R98, R105, R92, R94: ACK: a good frame moves the integrator one step down; one that no entry matches, or whose
result is neither APPLIED nor PORT_FAULT, or that arrives in STARTING or after a power-fail warning does no more; a matched
one ends its entry by its result, and the counts follow a subscriber's status (R66). -/
def Obligations.AckEndsItsEntry : Prop :=
  ∀ (tap port q result : Nat) (f : UpFrame) (s : State), MemWf s.mem → RingLaw s → s.power.vcc = true → s.power.resetting = false →
    tap < 65536 → port < 256 → q < 256 → result < 256 →
    f = { ackFrame tap port q result with idle := f.idle } → LineRested f s →
    ((started s = false ∨ (result ≠ 1 ∧ result ≠ 2) ∨
        (∀ e ∈ s.tracker.table, ¬(e.tap = tap ∧ e.port = port ∧ e.sequence = q))) →
      ∃ t, exec (.ack f) s = .next t ∧ GoodStep s t ∧ FlagsFollow s t ∧
        t = { s with receiver := t.receiver, flags := t.flags }) ∧
    (∀ e, started s = true →
      s.tracker.table.find? (fun x => decide (x.tap = tap ∧ x.port = port ∧ x.sequence = q)) = some e →
      (result = 1 ∨ result = 2) →
      ∃ u, exec (.ack f) s = .next (concluded s u) ∧ GoodStep s u ∧
        u.tracker = { s.tracker with
          table := entriesBut tap port s.tracker.table, matched := s.tracker.matched + 1 } ∧
        (e.kind = .subscriber → result = 1 →
          subStatus u e.subscriber =
            { subStatus s e.subscriber with confirmed := e.command, link := .settled } ∧
          WordsKept [subscriberWord e.subscriber 8] s u ∧ u.order.retires = s.order.retires) ∧
        (e.kind = .subscriber → result = 2 →
          subStatus u e.subscriber = { subStatus s e.subscriber with link := .unreached } ∧
          subRd u e.subscriber 7 = subRd s e.subscriber 7 ||| 2 ∧
          Logged .portFault e.subscriber tap port q s u ∧
          KeptOutside (withRings [subscriberWord e.subscriber 7, subscriberWord e.subscriber 8]) s u ∧
          u.order.retires = s.order.retires) ∧
        (e.kind = .subscriber → CountsMoved (subStatus s e.subscriber) (subStatus u e.subscriber) s u) ∧
        (e.kind = .retire →
          u.order = { s.order with
            retires := s.order.retires.filter (fun r => !(decide (r.tap = tap) && decide (r.port = port))) } ∧
          (result = 1 → u.mem = s.mem) ∧
          (result = 2 → Logged .retireFailed tap port e.subscriber 0 s u ∧ KeptOutside ringPlace s u)) ∧
        u = { s with
          mem := u.mem, port := u.port, tracker := u.tracker, receiver := u.receiver
          order := { s.order with unreached := u.order.unreached, held := u.order.held, retires := u.order.retires }
          writer := u.writer, flags := u.flags })

/-- R114 to R120: STATUS that matches the outstanding poll ends it: the next poll is due a poll interval later, and while the
element is still in use at its address its latency word, its warnings, its counter and its state are those the result gives.
A result that takes it to OUT begins an outage, with stamp, outage count, notice and OUTAGE record; EXHAUSTED latches it,
with notice and LATCH record, and begins an outage's stamp and count unless it was OUT; one that takes it from OUT to
IN_SERVICE writes the duration, with notice and RESTORE record, and opens a RESTORE sweep if it is lit; any other leaves all
of these alone. The SLOW and STANDBY counts follow the warnings (R127). A STATUS that matches no outstanding poll changes no element; one whose element has gone ends the poll
alone. Link time and `dt`, the time the frame arrives after the command before, are the model's (log entry
4); that a result leaves a LATCHED_OUT element latched with its counter at the top is its reading (log entry 25). -/
def Obligations.StatusAppliesTheResult : Prop :=
  (∀ (dt address q status : Nat) (f : UpFrame) (s : State), s.power.vcc = true → s.power.resetting = false →
    address < 65536 → q < 256 → status < 256 →
    f = { statusFrame address q status with idle := f.idle } → LineRested f s →
    (started s = false ∨ 3 < status ∨ s.plant.poll = none ∨
      (∃ p, s.plant.poll = some p ∧ (p.address ≠ address ∨ p.sequence ≠ q))) →
    ∃ t, exec (.status dt f) s = .next t ∧ GoodStep s t ∧ FlagsFollow s t ∧
      t = { s with receiver := t.receiver, flags := t.flags, time := s.time + dt }) ∧
  (∀ (dt status : Nat) (f : UpFrame) (p : Poll) (s : State),
    started s = true → s.plant.poll = some p → p.address < 65536 → p.sequence < 256 → status ≤ 3 →
    (∀ e, tableGet s.plant.tree p.index = some e → e.address ≠ p.address) →
    f = { statusFrame p.address p.sequence status with idle := f.idle } → LineRested f s →
    ∃ u, exec (.status dt f) s = .next (concluded s u) ∧ GoodStep s u ∧
      u = { s with
        receiver := u.receiver, time := s.time + dt
        plant := { s.plant with
          poll := none, nextPollDue := s.time + dt + pollIntervalBits (planOf s).pollInterval } }) ∧
  ∀ (dt status : Nat) (f : UpFrame) (p : Poll) (e : Element) (r : PollResult) (count : Nat) (s : State), MemWf s.mem → RingLaw s →
    PlantLaw s → started s = true → s.plant.poll = some p → p.address < 65536 → p.sequence < 256 → status ≤ 3 →
    tableGet s.plant.tree p.index = some e → e.address = p.address →
    r = (if status ≤ 1 then .good else if status = 2 then .failed else .exhausted) →
    count = (if p.phase = .sending then 0
             else min 255 ((s.time + dt - p.completed) / (64 * 2 ^ (planOf s).latencyRange))) →
    f = { statusFrame p.address p.sequence status with idle := f.idle } → LineRested f s →
    ∃ u, exec (.status dt f) s = .next (concluded s u) ∧ GoodStep s u ∧
      u.time = s.time + dt ∧ u.plant.poll = none ∧
      u.plant.nextPollDue = s.time + dt + pollIntervalBits (planOf s).pollInterval ∧
      rd u (elementWord p.index 6) = wordOf count ∧
      ((rd u (elementWord p.index 7)).getLsbD 0 =
        if (planOf s).slowThreshold < count then
          (if (planOf s).slowDisabled then (rd s (elementWord p.index 7)).getLsbD 0 else true)
        else false) ∧
      ((rd u (elementWord p.index 7)).getLsbD 1 =
        if status = 1 then
          (if (planOf s).standbyDisabled then (rd s (elementWord p.index 7)).getLsbD 1 else true)
        else if status = 0 then false else (rd s (elementWord p.index 7)).getLsbD 1) ∧
      WarningsMoved p.index s u ∧
      u.plant = { s.plant with
        tree := u.plant.tree, poll := none, nextPollDue := u.plant.nextPollDue, outCount := u.plant.outCount
        latchedCount := u.plant.latchedCount, slowCount := u.plant.slowCount
        standbyCount := u.plant.standbyCount } ∧
      tableGet u.plant.tree p.index = some { e with
        state := (bandAfter r (elementLimit s p.index) (counterMax s p.index) e.state (counterOf s p.index)).1 } ∧
      (∀ j, j ≠ p.index → tableGet u.plant.tree j = tableGet s.plant.tree j) ∧
      counterOf u p.index =
        (bandAfter r (elementLimit s p.index) (counterMax s p.index) e.state (counterOf s p.index)).2 ∧
      (∀ after, tableGet u.plant.tree p.index = some after →
        rd u (elementWord p.index 4) = (if after.state = e.state ∧ r ≠ .exhausted then rd s (elementWord p.index 4)
          else wordOf after.state.code) ∧
        (r = .failed → e.state ≠ .out → after.state = .out →
          u.plant.outCount = s.plant.outCount + 1 ∧ u.plant.latchedCount = s.plant.latchedCount ∧
          OutageStamped p.index s u ∧
          rd u (elementWord p.index 8) = rd s (elementWord p.index 8) ||| 1 ∧
          rd u (elementWord p.index 11) = rd s (elementWord p.index 11) ∧
          Logged .outage p.index (affectedCount u.plant.tree s.order.direct p.index) (counterMax s p.index) e.address s u ∧
          u.sched = s.sched) ∧
        (r = .exhausted →
          u.plant.outCount = s.plant.outCount - (if e.state = .out then 1 else 0) ∧
          u.plant.latchedCount = s.plant.latchedCount + (if e.state = .latchedOut then 0 else 1) ∧
          (e.state = .unpolled ∨ e.state = .inService → OutageStamped p.index s u) ∧
          (e.state = .out ∨ e.state = .latchedOut → ∀ w, w = 9 ∨ w = 10 ∨ w = 12 →
            rd u (elementWord p.index w) = rd s (elementWord p.index w)) ∧
          rd u (elementWord p.index 8) = rd s (elementWord p.index 8) ||| 4 ∧
          rd u (elementWord p.index 11) = rd s (elementWord p.index 11) ∧
          Logged .latch p.index (affectedCount u.plant.tree s.order.direct p.index) (counterMax s p.index) e.address s u ∧
          u.sched = s.sched) ∧
        (r = .good → e.state = .out → after.state = .inService →
          u.plant.outCount = s.plant.outCount - 1 ∧ u.plant.latchedCount = s.plant.latchedCount ∧
          rd u (elementWord p.index 11) = wordOf (durationNow s p.index) ∧
          rd u (elementWord p.index 8) = rd s (elementWord p.index 8) ||| 2 ∧
          (∀ w, w = 9 ∨ w = 10 ∨ w = 12 → rd u (elementWord p.index w) = rd s (elementWord p.index w)) ∧
          LoggedFirst .restore p.index (durationNow s p.index) (affectedCount u.plant.tree s.order.direct p.index)
            (counterOf u p.index) s u ∧
          (isDark u.plant.tree p.index = true ∨ s.sched.sweeps.length < 4 →
            Logged .restore p.index (durationNow s p.index) (affectedCount u.plant.tree s.order.direct p.index)
              (counterOf u p.index) s u) ∧
          (isDark u.plant.tree p.index = true → u.sched = s.sched) ∧
          (isDark u.plant.tree p.index = false → ∃ w ∈ u.sched.sweeps,
            (w.kind = .restore p.index ∨ w.kind = .resync) ∧ w.cursor = 0) ∧
          (isDark u.plant.tree p.index = false → s.sched.sweeps.length < 4 →
            ∃ w ∈ u.sched.sweeps, w.kind = .restore p.index ∧ w.cursor = 0)) ∧
        (r ≠ .exhausted → (after.state = e.state ∨ e.state = .unpolled ∧ after.state = .inService) →
          u.plant.outCount = s.plant.outCount ∧ u.plant.latchedCount = s.plant.latchedCount ∧
          u.writer = s.writer ∧ u.sched = s.sched ∧
          WordsKept ([4, 5, 6, 7].map (elementWord p.index)) s u)) ∧
      KeptOutside (withRings ([4, 5, 6, 7, 8, 9, 10, 11, 12].map (elementWord p.index))) s u ∧
      u = { s with
        mem := u.mem, port := u.port, plant := u.plant, sched := u.sched, receiver := u.receiver
        writer := u.writer, flags := u.flags, time := u.time }

/-- R112, R115, R119: POLL_DUE makes POLL eligible at the due time, unless a poll is outstanding or no element can be polled;
POLL_TIMEOUT ends the poll with a failed result, which leaves latency and warnings as they stand and begins an outage when
the counter reaches the limit. That link time goes to the deadline and never back is the model's choice (log entry 4), and
what a result does to a LATCHED_OUT element its reading (log entry 25). A timeout of a poll whose element has left the tree, or
is in use at another address, ends the poll alone. -/
def Obligations.PollDeadlinesArePassed : Prop :=
  (∀ s : State, started s = true → s.plant.poll = none → someEligible s.plant.tree = true →
    exec .pollDue s = .next (concluded s { s with time := max s.time s.plant.nextPollDue }) ∧
    (s.part.state = .serving → s.sched.link = .idle → s.sched.replies = [] →
      (∀ e ∈ s.tracker.table, e.phase ≠ .candidate) →
      ∃ t, exec .pollDue s = .next t ∧ t.sched.link = .granted .poll)) ∧
  (∀ (p : Poll) (s : State), started s = true → s.plant.poll = some p → p.phase = .awaiting →
    (∀ e, tableGet s.plant.tree p.index = some e → e.address ≠ p.address) →
    exec .pollTimeout s = .next (concluded s { s with
      time := max s.time p.deadline
      plant := { s.plant with
        poll := none
        nextPollDue := max s.time p.deadline + pollIntervalBits (planOf s).pollInterval } })) ∧
  ∀ (p : Poll) (e : Element) (s : State), MemWf s.mem → RingLaw s → PlantLaw s → started s = true →
    s.plant.poll = some p → p.phase = .awaiting → tableGet s.plant.tree p.index = some e → e.address = p.address →
    ∃ u, exec .pollTimeout s = .next (concluded s u) ∧
      u.time = max s.time p.deadline ∧ u.plant.poll = none ∧
      u.plant.nextPollDue = max s.time p.deadline + pollIntervalBits (planOf s).pollInterval ∧
      tableGet u.plant.tree p.index = some { e with
        state := (bandAfter .failed (elementLimit s p.index) (counterMax s p.index) e.state (counterOf s p.index)).1 } ∧
      (∀ j, j ≠ p.index → tableGet u.plant.tree j = tableGet s.plant.tree j) ∧
      counterOf u p.index =
        (bandAfter .failed (elementLimit s p.index) (counterMax s p.index) e.state (counterOf s p.index)).2 ∧
      (tableGet u.plant.tree p.index ≠ some e →
        rd u (elementWord p.index 4) = 3 ∧ u.plant.outCount = s.plant.outCount + 1 ∧
        rd u (elementWord p.index 8) = rd s (elementWord p.index 8) ||| 1 ∧
        rd u (elementWord p.index 12) = wordOf (min ((rd s (elementWord p.index 12)).toNat + 1) 65535) ∧
        (s.clock.valid = true → rdPair u (elementWord p.index 9) = currentStamp s % 4294967296) ∧
        (s.clock.valid = false → rdPair u (elementWord p.index 9) = 4294967295) ∧
        Logged .outage p.index (affectedCount u.plant.tree s.order.direct p.index) (counterMax s p.index) e.address s u ∧
        KeptOutside (withRings ([4, 5, 8, 9, 10, 12].map (elementWord p.index))) s u) ∧
      (tableGet u.plant.tree p.index = some e →
        u.plant.outCount = s.plant.outCount ∧ WordsKept [elementWord p.index 5] s u) ∧
      u.plant = { s.plant with
        tree := u.plant.tree, poll := none, nextPollDue := u.plant.nextPollDue, outCount := u.plant.outCount } ∧
      u = { s with
        mem := u.mem, port := u.port, plant := u.plant, writer := u.writer, flags := u.flags, time := u.time }

/-- R151, R155, R74: BUY: with the part not SERVING or the reply queue full the frame is discarded; a drop that no record
holds and a slot above 7 are answered 1 and 2; a purchase that passes every check is filled as a converter's and answered
0. R153: the first check that fails is answered with its code, ALREADY_PURCHASED with 0 and no second charge; a refusal
leaves memory as it is, but for the notice of a CREDIT, and the record has been read in every case. -/
def Obligations.BuyIsDecidedAndAnswered : Prop :=
  ∀ (tap port k token : Nat) (f : UpFrame) (s : State), MemWf s.mem → RingLaw s → started s = true →
    tap < 65536 → port < 256 → k < 256 → token < 256 →
    f = { buyFrame tap port k token with idle := f.idle } → LineRested f s →
    ((s.part.state ≠ .serving ∨ 8 ≤ s.sched.replies.length) →
      ∃ t, exec (.buy f) s = .next t ∧ GoodStep s t ∧ FlagsFollow s t ∧
        t = { s with receiver := t.receiver, flags := t.flags }) ∧
    (∀ answer, s.part.state = .serving → s.sched.replies.length < 8 →
      (((7 < port ∨ holderOf s tap port = none) ∧ answer = 1) ∨
       (port ≤ 7 ∧ holderOf s tap port ≠ none ∧ 7 < k ∧ answer = 2)) →
      ∃ u, exec (.buy f) s = .next (concluded s u) ∧ GoodStep s u ∧
        u.sched = { s.sched with replies := s.sched.replies ++
          [{ tap := tap, port := BitVec.ofNat 8 port, token := BitVec.ofNat 8 token, result := answer }] } ∧
        u = { s with sched := u.sched, receiver := u.receiver }) ∧
    (∀ (i answer : Nat) (r l : RingCopy), s.part.state = .serving → s.sched.replies.length < 8 →
      port ≤ 7 → holderOf s tap port = some i → k ≤ 7 → s.writer.log = some l → s.writer.journal = some r →
      (if s.clock.valid = false then answer = 3
       else if servable s i = false ∨ (subStatus s i).confirmed ≠ .full then answer = 1
       else if purchasable s k = false then answer = 2
       else if livePlaceOf s i k ≠ none then answer = 0
       else if freePlace s i = none then answer = 4
       else if (subRd s i 5).toNat < (subRd s i 13).toNat + (armedOf s k).price then answer = 5
       else ringFull .journal r = true ∧ answer = 6) →
      ∃ u, exec (.buy f) s = .next (concluded s u) ∧ GoodStep s u ∧
        u.sched = { s.sched with replies := s.sched.replies ++
          [{ tap := tap, port := BitVec.ofNat 8 port, token := BitVec.ofNat 8 token
             result := BitVec.ofNat 8 answer }] } ∧
        (answer ≠ 5 → u.mem = s.mem) ∧
        (answer = 5 → WordsKept [subscriberWord i 7] s u ∧ subRd u i 7 = subRd s i 7 ||| 4) ∧
        (answer ≠ 6 → u.flags = s.flags) ∧ (answer = 6 → u.flags = s.flags ||| 0x1000) ∧
        (PortIdle s → u.port = { s.port with last := some .part }) ∧
        u = { s with
          mem := u.mem, port := u.port, sched := u.sched, receiver := u.receiver, flags := u.flags }) ∧
    (∀ (i j price : Nat) (r l : RingCopy), s.part.state = .serving → s.sched.replies.length < 8 →
      port ≤ 7 → holderOf s tap port = some i → k ≤ 7 → s.clock.valid = true → servable s i = true →
      (subStatus s i).confirmed = .full →
      (slotState s k = .open ∨
        (slotState s k = .showing ∧ currentStamp s < (armedOf s k).startStamp + (armedOf s k).cutoff)) →
      livePlaceOf s i k = none → freePlace s i = some j → price = (armedOf s k).price →
      (subRd s i 13).toNat + price ≤ (subRd s i 5).toNat →
      s.writer.log = some l → s.writer.journal = some r → ringFull .journal r = false →
      ∃ u, exec (.buy f) s = .next (concluded s u) ∧ GoodStep s u ∧
        u.sched.replies = s.sched.replies ++
          [{ tap := tap, port := BitVec.ofNat 8 port, token := BitVec.ofNat 8 token, result := 0 }] ∧
        subRd u i (14 + 2 * j) = wordOf (k + 32768) ∧ subRd u i (15 + 2 * j) = wordOf (slotEvent s k) ∧
        (subRd u i 13).toNat = (subRd s i 13).toNat + price ∧
        rd u (slotWord k 8) = wordOf ((rd s (slotWord k 8)).toNat + 1) ∧
        rdPair u (slotWord k 9) = (rdPair s (slotWord k 9) + price) % 4294967296 ∧
        JournalAt r.head r.sequence 1 [i, k, slotEvent s k, price, 0, token, 0, 0, 0, 0, 0, 0] s u ∧
        u.writer.journal =
          some { head := (r.head + 1) % 1024, tail := r.tail, sequence := nextSequence r.sequence } ∧
        (slotState s k = .showing → Submitted i s u ∧ isWaiting u i = true) ∧
        (slotState s k = .open → u.sched = { s.sched with replies := u.sched.replies }) ∧
        u.sched = { s.sched with
          replies := u.sched.replies, queue := u.sched.queue, deferred := u.sched.deferred
          refresh := u.sched.refresh } ∧
        KeptOutside
          (withRings ([13, 14 + 2 * j, 15 + 2 * j].map (subscriberWord i) ++ [8, 9, 10].map (slotWord k))) s u ∧
        u = { s with
          mem := u.mem, port := u.port, sched := u.sched, receiver := u.receiver
          writer := { s.writer with journal := u.writer.journal, taken := false } })

/-- R100, R101, R102, R105: ACK_TIMEOUT of the AWAITING entry whose deadline comes first: dark or QUIESCING gives it up, an
attempt left makes it wait, and the last makes a subscriber UNREACHED or a retire fail. RETRY_WAIT_END makes the WAITING
entry whose wait ends first a RETRY candidate, or gives it up in QUIESCING. The counts follow a subscriber's status (R66). Which entry a command without an operand means,
and which of two with one deadline, is the model's choice (log entry 5), and so is the moment link time reaches (log entry
4). -/
def Obligations.AckDeadlinesArePassed : Prop :=
  (∀ (e : PendingAck) (s : State), MemWf s.mem → RingLaw s → started s = true →
    earliest .awaiting s.tracker.table = some e →
    ∃ u, exec .ackTimeout s = .next (concluded s u) ∧ u.time = max s.time e.deadline ∧
      (e.kind = .subscriber → (isDark s.plant.tree (subFeed s e.subscriber) = true ∨ s.part.state = .quiescing) →
        subStatus u e.subscriber = { subStatus s e.subscriber with link := .held } ∧
        CountsMoved (subStatus s e.subscriber) (subStatus u e.subscriber) s u ∧
        WordsKept [subscriberWord e.subscriber 8] s u ∧ u.order.retires = s.order.retires ∧
        u.tracker = { s.tracker with table := entriesBut e.tap e.port s.tracker.table }) ∧
      (((e.kind = .subscriber ∧ isDark s.plant.tree (subFeed s e.subscriber) = false) ∨ e.kind = .retire) →
        s.part.state ≠ .quiescing →
        (e.attempts < (planOf s).maxAttempts →
          u.mem = s.mem ∧ u.order = s.order ∧
          u.tracker = { s.tracker with table := s.tracker.table.map fun x =>
            if x.tap = e.tap ∧ x.port = e.port then
              { x with
                phase := if (planOf s).retryWait = 0 then .candidate else .waiting
                deadline := max s.time e.deadline + 6400 * (planOf s).retryWait }
            else x }) ∧
        ((planOf s).maxAttempts ≤ e.attempts →
          u.tracker = { s.tracker with table := entriesBut e.tap e.port s.tracker.table } ∧
          (e.kind = .subscriber →
            subStatus u e.subscriber = { subStatus s e.subscriber with link := .unreached } ∧
            CountsMoved (subStatus s e.subscriber) (subStatus u e.subscriber) s u ∧
            subRd u e.subscriber 7 = subRd s e.subscriber 7 ||| 1 ∧
            Logged .unreached e.subscriber e.tap e.port e.attempts s u ∧ u.order.retires = s.order.retires ∧
            KeptOutside (withRings [subscriberWord e.subscriber 7, subscriberWord e.subscriber 8]) s u) ∧
          (e.kind = .retire →
            Logged .retireFailed e.tap e.port e.subscriber 1 s u ∧ KeptOutside ringPlace s u ∧
            u.order = { s.order with
              retires :=
                s.order.retires.filter (fun r => !(decide (r.tap = e.tap) && decide (r.port = e.port))) }))) ∧
      (e.kind = .retire → s.part.state = .quiescing →
        u.mem = s.mem ∧ u.tracker = { s.tracker with table := entriesBut e.tap e.port s.tracker.table } ∧
        u.order = { s.order with retires := u.order.retires } ∧
        ∀ r ∈ u.order.retires, r.tap = e.tap → r.port = e.port → r.sent = false) ∧
      u = { s with
        mem := u.mem, port := u.port, tracker := u.tracker, writer := u.writer, flags := u.flags, time := u.time
        order := { s.order with unreached := u.order.unreached, held := u.order.held, retires := u.order.retires } }) ∧
  ∀ (e : PendingAck) (s : State), MemWf s.mem → started s = true → earliest .waiting s.tracker.table = some e →
    (s.part.state ≠ .quiescing →
      exec .retryWaitEnd s = .next (concluded s { s with
        time := max s.time e.deadline
        tracker := { s.tracker with table := s.tracker.table.map fun x =>
          if x.tap = e.tap ∧ x.port = e.port then { x with phase := .candidate } else x } })) ∧
    (s.part.state = .quiescing →
      ∃ u, exec .retryWaitEnd s = .next (concluded s u) ∧ u.time = max s.time e.deadline ∧
        u.tracker = { s.tracker with table := entriesBut e.tap e.port s.tracker.table } ∧
        (e.kind = .subscriber →
          subStatus u e.subscriber = { subStatus s e.subscriber with link := .held } ∧
          CountsMoved (subStatus s e.subscriber) (subStatus u e.subscriber) s u ∧
          WordsKept [subscriberWord e.subscriber 8] s u ∧ u.order.retires = s.order.retires) ∧
        (e.kind = .retire → u.mem = s.mem ∧ u.order = { s.order with retires := u.order.retires } ∧ ∀ r ∈ u.order.retires, r.tap = e.tap → r.port = e.port → r.sent = false) ∧
        u = { s with
          mem := u.mem, port := u.port, tracker := u.tracker, time := u.time
          order := { s.order with unreached := u.order.unreached, held := u.order.held, retires := u.order.retires } })

/-! ## Time, metering and close -/

/-- R130, R131, R132: CLOCK_SECOND: while it counts, the calendar goes one second on, wrapping after a hundred years, and the
roll of the seconds produces a minute tick, with the fields after the roll, in a powered part that is not in reset; while
SET is held it stands. That ticks wait in a list for their MINUTE_TICK is the model's choice (log entry 9). -/
def Obligations.ClockCountsSeconds : Prop :=
  (∀ s : State, CalendarLaw s.clock.now → s.clock.set = false → (s.power.vcc = true ∨ s.clock.backupIntact = true) →
    ∃ t, exec .clockSecond s = .next t ∧ CalendarLaw t.clock.now ∧
      60 * stampOf t.clock.now + t.clock.now.seconds =
        (60 * stampOf s.clock.now + s.clock.now.seconds + 1) % 3155760000 ∧
      t.clock.ticks = s.clock.ticks ++
        (if s.clock.now.seconds = 59 ∧ s.power.vcc = true ∧ s.power.resetting = false then
          [{ fields := t.clock.now, valid := s.clock.valid }] else []) ∧
      t = { s with clock := { s.clock with now := t.clock.now, ticks := t.clock.ticks } }) ∧
  ∀ s : State, s.clock.set = true → exec .clockSecond s = .next s

/-- R131, R139, R27, R148, R138, R160, R162, R163: MINUTE_TICK: one more minute owed, or lost with METER_LAG at fifteen; with
VALID set the slots are evaluated, each sweep opened in its turn, and, with a working copy valid, the close alarm tested, by the
fields the tick was produced with, or the tick is noted in STARTING. That the oldest waiting tick is handed to its three receivers in one step, the meter, the slots and the close in
that order, is the model's choice (log entry 9).
R81, R82: a sweep is opened: one of the same kind and argument is set back to its beginning in its place; with room it
joins as the newest; in a full table an optional sweep is not entered, a mandatory one takes the place of the oldest optional
one and joins as the newest, and four mandatory ones and the new one fold into one RESYNC. A sweep that is dropped is flagged
and logged with its cursor, kind, slot and event; the fold flags and logs nothing. That a sweep set back to its beginning is
no longer stopped at a full queue is the model's reading (log entry 16). -/
def Obligations.MinuteTickReachesItsReceivers : Prop :=
  (∀ (isMatch : Prop) (m : Tick) (rest : List Tick) (s : State), MemWf s.mem → RingLaw s → running s = true →
     s.clock.ticks = m :: rest →
     (isMatch ↔ m.valid = true ∧ s.part.state ≠ .starting ∧ ∃ p, s.plan.copy = some p ∧ AlarmMatches p m.fields) →
     ∃ u, exec .minuteTick s = .next (concluded s u) ∧ u.clock = { s.clock with ticks := rest } ∧
       (s.meter.owed < 15 → u.meter = { s.meter with owed := s.meter.owed + 1 }) ∧
       (15 ≤ s.meter.owed → u.meter = { s.meter with lost := min (s.meter.lost + 1) 65535 } ∧
         u.flags.getLsbD 10 = true ∧
         (m.valid = false →
           Logged .meterLag (if s.meter.running then s.meter.cursor else 65535) 15 (min (s.meter.lost + 1) 65535) 0 s u)) ∧
       (m.valid = false ∨ s.part.state = .starting → SlotsKept s u ∧ u.sched = s.sched) ∧
       (m.valid = true → s.part.state ≠ .starting →
         SlotsEvaluated (stampOf m.fields) s u ∧
         u.sched = sweepsOpened (openedSweeps s (stampOf m.fields)) s) ∧
       u.slots.noted = (s.slots.noted || (m.valid && decide (s.part.state = .starting))) ∧
       u.close.noted = (s.close.noted || (m.valid && decide (s.part.state = .starting))) ∧
       AlarmTaken isMatch s u ∧
       (isMatch → openedSweeps s (stampOf m.fields) = [] → s.meter.owed < 15 → ∀ k, s.close.copy = some k →
         (k.status = .idle →
           Logged .closeBegin (if 65535 ≤ k.number then 1 else k.number + 1) 0 65535 0 s u) ∧
         (k.status = .closing → Logged .closeLate k.number k.cursor (if s.close.stalled then 1 else 0) 0 s u)) ∧
       KeptOutside (withRings ([0x126, 0x127, 0x128] ++ (List.range 8).map fun j => slotWord j 6)) s u ∧
       u = { s with
         mem := u.mem, port := u.port, clock := u.clock, meter := u.meter, slots := u.slots, close := u.close
         sched := u.sched, writer := u.writer, flags := u.flags }) ∧
  (∀ (k : SweepKind) (new : Sweep) (t s : State), MemWf s.mem → RingLaw s → t = openSweep k s →
     new = { kind := k, cursor := 0, held := none, maps := 0, stopped := false } →
     ((∃ w ∈ s.sched.sweeps, w.kind = k) →
       t = { s with sched := { s.sched with sweeps := s.sched.sweeps.map fun w => if w.kind = k then new else w } }) ∧
     ((∀ w ∈ s.sched.sweeps, w.kind ≠ k) →
       (s.sched.sweeps.length < 4 → t = { s with sched := { s.sched with sweeps := s.sched.sweeps ++ [new] } }) ∧
       (∀ d₁ d₂ d₃, 4 ≤ s.sched.sweeps.length → DropDetails k d₁ d₂ d₃ →
         t.sched = s.sched ∧ t.flags.getLsbD 14 = true ∧ Logged .sweepDrop 0 d₁ d₂ d₃ s t ∧ KeptOutside ringPlace s t ∧
         t = { s with mem := t.mem, port := t.port, writer := t.writer, flags := t.flags }) ∧
       ((∀ d₁ d₂ d₃, ¬DropDetails k d₁ d₂ d₃) → 4 ≤ s.sched.sweeps.length →
         (∀ (older newer : List Sweep) (w : Sweep) (d₁ d₂ d₃ : Nat), s.sched.sweeps = older ++ w :: newer →
           (∀ v ∈ older, ∀ d₁ d₂ d₃, ¬DropDetails v.kind d₁ d₂ d₃) → DropDetails w.kind d₁ d₂ d₃ →
           t.sched = { s.sched with sweeps := older ++ newer ++ [new] } ∧ t.flags.getLsbD 14 = true ∧
           Logged .sweepDrop w.cursor d₁ d₂ d₃ s t ∧ KeptOutside ringPlace s t ∧
           t = { s with mem := t.mem, port := t.port, sched := t.sched, writer := t.writer, flags := t.flags }) ∧
         ((∀ v ∈ s.sched.sweeps, ∀ d₁ d₂ d₃, ¬DropDetails v.kind d₁ d₂ d₃) →
           t = { s with sched := { s.sched with sweeps :=
             [{ kind := .resync, cursor := 0, held := none, maps := 0, stopped := false }] } }))))

/-- R140, R141: METER_PASS_START takes one owed minute and begins a pass; METERING_VISIT counts a minute of the record at the
cursor when it is in use and not conflicted, its connected minutes when it is FULL, and its outage minutes when it is dark
as well, each stopping at 65535; whatever it writes, the visit is one held access of the port (R16, R14). That the cursor goes to 0 when the pass has ended is the model's choice (log entry 31), and
so is that the next pass starts at a METER_PASS_START of its own, minutes owed or not (log entry 13). -/
def Obligations.MeteringCountsTheMinute : Prop :=
  (∀ s : State, started s = true → 0 < s.meter.owed → s.meter.running = false →
    exec .meterPassStart s =
      .next { s with meter := { s.meter with owed := s.meter.owed - 1, running := true, cursor := 0 } }) ∧
  ∀ (i : Nat) (s : State), MemWf s.mem → started s = true → s.meter.running = true → i = s.meter.cursor → i < 4096 →
    ∃ t, exec .meteringVisit s = .next t ∧
      (servable s i = true →
        (subRd t i 10).toNat = min ((subRd s i 10).toNat + 1) 65535 ∧
        (subRd t i 11).toNat = (if (subStatus s i).confirmed = .full then min ((subRd s i 11).toNat + 1) 65535
          else (subRd s i 11).toNat) ∧
        (subRd t i 12).toNat =
          (if (subStatus s i).confirmed = .full ∧ isDark s.plant.tree (subFeed s i) = true
           then min ((subRd s i 12).toNat + 1) 65535 else (subRd s i 12).toNat) ∧
        WordsKept ([10, 11, 12].map (subscriberWord i)) s t) ∧
      (servable s i = false → t.mem = s.mem) ∧
      t.port = servePort (postRequest .part s.port) ∧ (PortIdle s → t.port = { s.port with last := some .part }) ∧
      t.meter = { s.meter with cursor := if i = 4095 then 0 else i + 1, running := decide (i ≠ 4095) } ∧
      t = { s with mem := t.mem, port := t.port, meter := t.meter }

/-- R165, R168, R169: CLOSE_VISIT: a record in use and not conflicted has its statement written to the journal, its new
period begun and the notice set, or stalls the close with nothing written when the journal is full; any other is passed;
past the last record the close ends, logged, and its bound slot ends DONE with the close number. That the close ends at a
CLOSE_VISIT of its own, with the cursor at 4096, is the model's choice (log entry 13), and so is that the visit after a stall
begins with the cursor test (log entry 35). -/
def Obligations.CloseVisitWritesTheStatement : Prop :=
  ∀ (k : CloseCopy) (r l : RingCopy) (s : State), MemWf s.mem → RingLaw s → SlotLaw s → closeRuns s = true →
    s.close.copy = some k → k.status = .closing → s.close.stalled = false → s.writer.log = some l →
    s.writer.journal = some r →
    (k.cursor < 4096 → servable s k.cursor = true → ringFull .journal r = false →
      ∃ t, exec .closeVisit s = .next t ∧
        (∀ w, w = 10 ∨ w = 11 ∨ w = 12 ∨ w = 13 → subRd t k.cursor w = 0) ∧
        rdPair t (subscriberWord k.cursor 22) = (statementOf s k.cursor).total % 4294967296 ∧
        subRd t k.cursor 24 = wordOf k.number ∧
        subRd t k.cursor 7 = subRd s k.cursor 7 ||| 8 ∧
        (∀ j, j < 4 → purchaseAt t k.cursor j = { purchaseAt s k.cursor j with
          valid := isLive s (purchaseAt s k.cursor j) }) ∧
        rd t (journalWord r.head 0) = wordOf (3 + (if s.clock.valid then 32768 else 0)) ∧
        rd t (journalWord r.head 1) = wordOf r.sequence ∧
        rdPair t (journalWord r.head 2) = currentStamp s % 4294967296 ∧ rd t (journalWord r.head 15) = 0 ∧
        rd t (journalWord r.head 4) = wordOf k.cursor ∧ rd t (journalWord r.head 5) = wordOf k.number ∧
        rd t (journalWord r.head 6) = subRd s k.cursor 10 ∧ rd t (journalWord r.head 7) = subRd s k.cursor 11 ∧
        rd t (journalWord r.head 8) = subRd s k.cursor 12 ∧
        rd t (journalWord r.head 9) = wordOf (statementOf s k.cursor).credit ∧
        rdPair t (journalWord r.head 10) = (statementOf s k.cursor).charge % 4294967296 ∧
        rd t (journalWord r.head 12) = subRd s k.cursor 13 ∧
        rdPair t (journalWord r.head 13) = (statementOf s k.cursor).total % 4294967296 ∧
        t.writer.journal =
          some { head := (r.head + 1) % 1024, tail := r.tail, sequence := nextSequence r.sequence } ∧
        t.close = { s.close with
          copy := some { k with cursor := k.cursor + 1 }, statements := s.close.statements + 1 } ∧
        rd t 0x127 = wordOf (k.cursor + 1) ∧
        KeptOutside
          (withRings (0x127 ::
            ([7, 10, 11, 12, 13, 14, 16, 18, 20, 22, 23, 24].map (subscriberWord k.cursor)))) s t ∧
        FlagsFollow s t ∧
        t = { s with
          mem := t.mem, port := t.port, close := t.close, flags := t.flags
          writer := { s.writer with journal := t.writer.journal, taken := false } }) ∧
    (k.cursor < 4096 → servable s k.cursor = true → ringFull .journal r = true →
      ∃ t, exec .closeVisit s = .next t ∧ (PortIdle s → t.port = { s.port with last := some .part }) ∧
        t = { s with
          close := { s.close with stalled := true }, flags := s.flags ||| 0x1000, port := t.port }) ∧
    (k.cursor < 4096 → servable s k.cursor = false →
      ∃ t, exec .closeVisit s = .next t ∧ t.close = { s.close with copy := some { k with cursor := k.cursor + 1 } } ∧
        rd t 0x127 = wordOf (k.cursor + 1) ∧ WordsKept [0x127] s t ∧
        t = { s with mem := t.mem, port := t.port, close := t.close }) ∧
    (4096 ≤ k.cursor →
      ∃ t, exec .closeVisit s = .next t ∧
        t.close = { s.close with copy := some { k with status := .idle }, bound := none } ∧ rd t 0x126 = 0 ∧
        (∀ n, s.close.bound = some n →
          SlotShows n 3 0 s t ∧ rd t (requestWord n 3) = wordOf k.number ∧ ∀ x, (n, x) ∉ t.part.inProgress) ∧
        Logged .closeEnd k.number s.close.statements (if s.close.resumed then 1 else 0) 0 s t ∧
        (s.close.bound = none → KeptOutside (withRings [0x126]) s t ∧ t.part = s.part) ∧
        (∀ n, s.close.bound = some n → KeptOutside (withRings (0x126 :: slotWords n)) s t) ∧
        t = { s with
          mem := t.mem, port := t.port, part := t.part, close := t.close, writer := t.writer, flags := t.flags })

/-- R167: the statement arithmetic: the credit beyond the grace, the share of the subtotal rounded to the nearest cent with
an exact half up and 0 in a period of no minutes, the total, the words a STATEMENT record carries from word 4 on, and the
bounds the rule gives. The law Om ≤ Cm ≤ P and the range of a tier rate are the premises of the bounds that need them. -/
def Obligations.StatementsRoundToTheNearestCent : Prop :=
  ∀ (s : State) (i subtotal credit billable period charge total : Nat),
    period = (subRd s i 10).toNat →
    subtotal = (subRd s i 4).toNat +
      ((List.range 16).map fun t => if (subRd s i 3).getLsbD t then (planOf s).rates.getD t 0 else 0).sum →
    credit = (if (planOf s).grace < (subRd s i 12).toNat then (subRd s i 12).toNat - (planOf s).grace else 0) →
    billable = (subRd s i 11).toNat - credit →
    charge = (if period = 0 then 0 else (2 * subtotal * billable + period) / (2 * period)) →
    total = charge + (subRd s i 13).toNat →
    statementOf s i = { credit := credit, charge := charge, ppv := (subRd s i 13).toNat, total := total } ∧
    statementWords s i =
      [i, closeNumber s, period, (subRd s i 11).toNat, (subRd s i 12).toNat, credit, charge, charge / 65536,
       (subRd s i 13).toNat, total, total / 65536, 0] ∧
    credit ≤ (subRd s i 12).toNat ∧ billable ≤ (subRd s i 11).toNat ∧
    (period ≠ 0 →
      2 * subtotal * billable < (2 * charge + 1) * period ∧
      2 * charge * period ≤ 2 * subtotal * billable + period) ∧
    ((subRd s i 11).toNat ≤ period → billable ≤ period ∧ charge ≤ subtotal) ∧
    ((∀ q ∈ (planOf s).rates, q ≤ 65535) →
      subtotal ≤ 1114095 ∧ 2 * subtotal * billable + period < 2 ^ 38 ∧
      ((subRd s i 11).toNat ≤ period → total ≤ 1179630))

/-! ## Power, reset and start-up -/

/-- R24, R136, R20, R26, R18, R130, R17: POWER_UP, RESET, RESET_END and POWER_LOSS leave every block as it is after
power-up, and keep memory, link time and the backup domain of the Clock; a power-up that finds the backup lost sets the
Clock to its start; the start-up sequence begins with a check of the stored plan unless PWRFAIL is asserted. State.reset
with its hold time (log entry 18), POWER_UP and POWER_LOSS taken in any state (log entry 22), and a RESET that drains and
clears in one step (log entry 23) are the model's choices. -/
def Obligations.PowerUpAndResetClearInternalState : Prop :=
  (∀ s : State, ∃ t, exec .powerUp s = .next t ∧
    t.power = { vcc := true, resetting := false, failing := s.power.pwrfailAsserted
                pwrfailAsserted := s.power.pwrfailAsserted } ∧
    t.part = { State.reset.part with backupLost := !s.clock.backupIntact } ∧
    t.plan = { State.reset.plan with
      check := if s.power.pwrfailAsserted then none else some { expected := rd s 0x7F, words := [] } } ∧
    (s.clock.backupIntact = true → t.clock = { s.clock with snapshot := none, ticks := [] }) ∧
    (s.clock.backupIntact = false → t.clock = State.reset.clock) ∧
    t = { State.reset with
      pending := s.pending, mem := s.mem, bus := s.bus, time := s.time, freeCount := s.freeCount
      power := t.power, part := t.part, plan := t.plan, clock := t.clock }) ∧
  (∀ s : State, s.power.vcc = true → ∃ t, exec .reset s = .next t ∧
    t.power = { s.power with resetting := true, failing := false } ∧ t.port = { last := none, grant := none, waiting := [], inactive := true } ∧
    t.part = { State.reset.part with startStep := 0, backupLost := false } ∧
    t.clock = { s.clock with snapshot := none, ticks := [] } ∧
    ((∀ c, s.sched.link ≠ .granted c) → t.mem = s.mem) ∧
    t = { State.reset with
      pending := s.pending, mem := t.mem, bus := s.bus, time := s.time, freeCount := s.freeCount
      power := t.power, port := t.port, part := t.part, plan := { State.reset.plan with check := none }
      clock := t.clock }) ∧
  (∀ s : State, s.power.vcc = true → s.power.resetting = true → ∃ t, exec .resetEnd s = .next t ∧
    t.part = { s.part with state := .starting, startStep := 1, cause := .reset, backupLost := false } ∧
    t.plan = (if s.power.pwrfailAsserted then s.plan
      else { s.plan with check := some { expected := rd s 0x7F, words := [] } }) ∧
    t = { s with
      power := { s.power with resetting := false, failing := s.power.pwrfailAsserted }
      port := { last := none, grant := none, waiting := [], inactive := false }
      part := t.part, plan := t.plan }) ∧
  ∀ s : State, exec .powerLoss s = .next { State.reset with
    pending := s.pending, mem := s.mem, bus := s.bus, time := s.time, freeCount := s.freeCount
    power := { vcc := false, resetting := false, failing := false, pwrfailAsserted := s.power.pwrfailAsserted }
    part := { State.reset.part with startStep := 0, backupLost := false }
    plan := { State.reset.plan with check := none }
    clock := { s.clock with snapshot := none, ticks := [] } }

/-- R17, R73, R136: PWRFAIL abandons the running checks, the metering pass and the ticks owed, and stops new work while a
frame in flight goes on; a host access that waits for the port is completed without it; POWER_FAIL_PORT_IDLE holds the port idle; PWRFAIL's return alone resumes nothing; the backup-intact
latch is cleared only while VCC is absent. The cursor put to 0 (log entry 31), the granted build finished in PWRFAIL's own
step (log entry 6), and BACKUP_INTACT_LATCH_CLEARED without effect while VCC is present (log entry 22) are the model's
choices. -/
def Obligations.PowerFailStopsNewWork : Prop :=
  (∀ s : State, running s = true → (∀ c, s.sched.link ≠ .granted c) →
    exec .pwrfail s = .next { s with
      power := { s.power with pwrfailAsserted := true, failing := true }
      port := { s.port with waiting := s.port.waiting.filter fun side => decide (side = .part) }
      plan := { s.plan with check := none }
      lineup := { s.lineup with check := none, candidate := [] }
      meter := { s.meter with owed := 0, running := false, cursor := 0 } }) ∧
  (∀ (c : FrameClass) (s : State), running s = true → s.sched.link = .granted c →
    exec .pwrfail s = .next (latchArisen s (buildFrame c { s with
      power := { s.power with pwrfailAsserted := true, failing := true }
      port := { s.port with waiting := s.port.waiting.filter fun side => decide (side = .part) }
      plan := { s.plan with check := none }
      lineup := { s.lineup with check := none, candidate := [] }
      meter := { s.meter with owed := 0, running := false, cursor := 0 } }))) ∧
  (∀ s : State, running s = false →
    exec .pwrfail s = .next { s with power := { s.power with pwrfailAsserted := true } }) ∧
  (∀ s : State, s.power.vcc = true → s.power.failing = true →
    exec .powerFailPortIdle s = .next { s with port := { s.port with inactive := true } }) ∧
  (∀ s : State, exec .pwrfailReturningHigh s = .next { s with power := { s.power with pwrfailAsserted := false } }) ∧
  (∀ s : State, s.power.vcc = false →
    exec .backupIntactLatchCleared s = .next { s with clock := { s.clock with backupIntact := false } }) ∧
  ∀ s : State, s.power.vcc = true → exec .backupIntactLatchCleared s = .next s

/-- R128, R26: ELEMENT_CENSUS: an index with a transponder address is in use with it, LATCHED_OUT if its record says so and
UNPOLLED otherwise. A parent that is not in use is reset to 0, so is that of the lowest index of each cycle, and so, in
ascending index, is that of an element more than 8 deep in the tree as the resets before have left it; every other parent is
kept, and so is each one on a stored chain of elements in use that reaches the head end in 8 or less. Each reset is written
and logged as TOPOLOGY with change CENSUS and the old parent, in the order of the passes. Every parent is then in use and no
element lies deeper than 8; the other elements are not in use; the counts start anew, and the next start-up step follows.
Of the table no word is written but the parent, the state, the counter, the latency, the warnings and the duration of those
elements for which the rule gives it.
That the census is one step is the model's choice (log entry 15), and which elements step 5 treats is its reading (log entry
25). -/
def Obligations.ElementCensusRebuildsTheTree : Prop :=
  ∀ s : State, MemWf s.mem → RingLaw s → atStartStep 3 s = true →
    ∃ t, exec .elementCensus s = .next t ∧ t.part = { s.part with startStep := 4 } ∧
      (∀ i, (i = 0 ∨ 255 < i ∨ rd s (elementWord i 0) = 0) → tableGet t.plant.tree i = none) ∧
      (∀ i, 1 ≤ i → i ≤ 255 → rd s (elementWord i 0) ≠ 0 →
        ∃ e, tableGet t.plant.tree i = some e ∧ e.address = (rd s (elementWord i 0)).toNat ∧
          e.state = (if rd s (elementWord i 4) = 4 then .latchedOut else .unpolled) ∧
          (e.parent = (rd s (elementWord i 1)).toNat ∨ e.parent = 0) ∧
          (shallow s t.plant.tree i → e.parent = openedParent s i) ∧
          (¬shallow s t.plant.tree i → e.parent = 0) ∧
          (∀ d, d ≤ 8 → (storedParent s)^[d] i = 0 →
            (∀ k, k < d → usedInTable s ((storedParent s)^[k] i) = true) → e.parent = storedParent s i) ∧
          elementInUse t.plant.tree e.parent = true ∧ depthOf t.plant.tree i ≤ 8 ∧
          rd t (elementWord i 1) = wordOf e.parent ∧ rd t (elementWord i 4) = wordOf e.state.code ∧
          rd t (elementWord i 7) = 0 ∧
          (e.state = .unpolled → rd t (elementWord i 5) = 0 ∧ rd t (elementWord i 6) = 0) ∧
          (e.state = .latchedOut → counterOf t i = counterMax s i) ∧
          (rd s (elementWord i 4) = 3 → rd t (elementWord i 11) = 0xFFFF)) ∧
      (∀ (r l : RingCopy) (resets : List Nat), s.writer.log = some r → s.writer.journal = some l →
        resets = censusResets s t.plant.tree → ringHeld .log r + resets.length ≤ 511 →
        (∀ (k i : Nat), resets[k]? = some i →
          RecordAt ((r.head + k) % 512) (nextSequence^[k] r.sequence) .topology i 3 (storedParent s i) 0 s t) ∧
        t.writer.log = some
          { head := (r.head + resets.length) % 512, tail := r.tail, sequence := nextSequence^[resets.length] r.sequence }) ∧
      t.plant.outCount = 0 ∧ t.plant.slowCount = 0 ∧ t.plant.standbyCount = 0 ∧
      t.plant.latchedCount = (t.plant.tree.filter fun p => decide (p.2.state = .latchedOut)).length ∧
      rd t (elementWord 0 1) = 0 ∧ rd t (elementWord 0 4) = 2 ∧ rd t (elementWord 0 5) = 0 ∧
      (∀ i w, i < 256 → w < 16 → (w ∉ [1, 4, 5, 6, 7, 11] ∨ (w ∉ [4, 5] ∧ 1 ≤ i ∧ rd s (elementWord i 0) = 0) ∨
          (w ∉ [1, 4, 5] ∧ i = 0) ∨ (w = 6 ∧ rd s (elementWord i 4) = 4) ∨ (w = 11 ∧ rd s (elementWord i 4) ≠ 3)) →
        rd t (elementWord i w) = rd s (elementWord i w)) ∧
      (∀ i, 1 ≤ i → i ≤ 255 → rd s (elementWord i 0) = 0 → rd t (elementWord i 4) = 0 ∧ rd t (elementWord i 5) = 0) ∧
      KeptOutside (fun a => ringPlace a || (decide (0x1000 ≤ a) && decide (a < 0x2000))) s t ∧
      t = { s with mem := t.mem, port := t.port, part := t.part, plant := t.plant, writer := t.writer }

/-- R67, R68, R69: SUBSCRIBER_CENSUS_VISIT: a record without a tap id is passed; the first record at an address enters the
directory with its mark cleared and an AWAITING status made HELD; a later one is marked conflicted, with the notice and the
record, its word 8 written whatever it held (log entry 36); the minutes are brought under the law of R51, and the feed's direct count rises. Every record is read (R14). The
visit of record 4095 does the same, and then writes every direct count, sets census done and ends the step.
R69: the visit of record 4095 writes the direct count of every element into its record, sets census done and ends the
step. -/
def Obligations.SubscriberCensusRuns : Prop :=
  (∀ (i : Nat) (s : State), MemWf s.mem → RingLaw s → atStartStep 4 s = true → i = s.part.censusCursor → i < 4096 →
     ∃ t, exec .subscriberCensusVisit s = .next t ∧
       t.part = (if i = 4095 then { s.part with censusCursor := 0, censusDone := true, startStep := 5 }
         else { s.part with censusCursor := i + 1 }) ∧
       (i ≠ 4095 → subTap s i = 0 → t = { s with part := t.part, port := t.port } ∧
         (PortIdle s → t.port = { s.port with last := some .part })) ∧
       (i = 4095 → ∀ e, e < 256 → rd t (elementWord e 13) = wordOf (countOf t.order.direct e)) ∧
       (subTap s i = 0 → t.order = s.order) ∧
       (subTap s i ≠ 0 →
         t.order.direct = setCount s.order.direct (subFeed s i) (countOf s.order.direct (subFeed s i) + 1) ∧
         subRd t i 10 = subRd s i 10 ∧
         (subRd t i 11).toNat = min (subRd s i 11).toNat (subRd s i 10).toNat ∧
         (subRd t i 12).toNat = min (subRd s i 12).toNat (subRd t i 11).toNat ∧
         (∀ a, a ∉ elementWord (subFeed s i) 13 :: [7, 8, 11, 12].map (subscriberWord i) → ringPlace a = false →
           (i = 4095 → ∀ e, e < 256 → a ≠ elementWord e 13) → rd t a = rd s a)) ∧
       (subTap s i ≠ 0 → holderOf s (subTap s i) (subPort s i) = none →
         holderOf t (subTap s i) (subPort s i) = some i ∧
         subStatus t i = { subStatus s i with
           conflict := false
           link := if (subStatus s i).link = .awaiting then .held else (subStatus s i).link } ∧
         t.order.unreached = s.order.unreached + (if (subStatus t i).link = .unreached then 1 else 0) ∧
         t.order.held = s.order.held + (if (subStatus t i).link = .held then 1 else 0) ∧
         subRd t i 7 = subRd s i 7 ∧ t.writer = s.writer) ∧
       (∀ j, subTap s i ≠ 0 → holderOf s (subTap s i) (subPort s i) = some j →
         t.order.directory = s.order.directory ∧
         subRd t i 8 = wordOf ((subStatus s i).confirmed.code + 128) ∧
         subStatus t i = { subStatus s i with conflict := true, link := .settled, attempts := 0 } ∧
         t.order.unreached = s.order.unreached ∧ t.order.held = s.order.held ∧
         subRd t i 7 = subRd s i 7 ||| 16 ∧ Logged .conflict i (subTap s i) (subPort s i) j s t) ∧
       t = { s with mem := t.mem, port := t.port, part := t.part, order := t.order, writer := t.writer }) ∧
  (∀ s : State, MemWf s.mem → atStartStep 4 s = true → s.part.censusCursor = 4095 → subTap s 4095 = 0 →
     ∃ t, exec .subscriberCensusVisit s = .next t ∧
       t.part = { s.part with censusCursor := 0, censusDone := true, startStep := 5 } ∧
       (∀ e, e < 256 → rd t (elementWord e 13) = wordOf (countOf s.order.direct e)) ∧
       WordsKept ((List.range 256).map fun e => elementWord e 13) s t ∧
       t = { s with mem := t.mem, port := t.port, part := t.part })

/-- R149: SLOT_RELOAD rebuilds the armed copy of every slot from its record: a state of 4 and above is IDLE, and written so;
the price of a slot with purchases is its revenue over its count, and a revenue that does not divide is corrected.
R172, R26: RING_CONTROL_VALIDATION: with the copies loaded, as they are once a record of step 1 has been appended, the
step completes at once and changes nothing else. With the copies empty: a ring whose head is out of range, or whose next sequence is 0, is emptied; one whose
tail is out of range has it set to its head; any other keeps its three words; the copies are loaded with what stands then.
R170: CLOSE_RESUMPTION: a close in progress is resumed at its cursor, a cursor past the table brought to its end; any
other status is IDLE, and written so where it is not. -/
def Obligations.StartupRestoresSlotsRingsAndClose : Prop :=
  (∀ s : State, MemWf s.mem → atStartStep 5 s = true →
     ∃ t, exec .slotReload s = .next t ∧ t.part = { s.part with startStep := 6 } ∧
       (∀ k, k < 8 → ∃ a, tableGet t.slots.armed k = some a ∧
         (3 < (rd s (slotWord k 6)).toNat → a.state = .idle ∧ rd t (slotWord k 6) = 0) ∧
         ((rd s (slotWord k 6)).toNat ≤ 3 →
           a.state.code = (rd s (slotWord k 6)).toNat ∧ rd t (slotWord k 6) = rd s (slotWord k 6)) ∧
         a.event = (rd s (slotWord k 7)).toNat ∧ a.startStamp = rdPair s (slotWord k 0) ∧
         a.endStamp = rdPair s (slotWord k 2) ∧ a.cutoff = (rd s (slotWord k 4)).toNat ∧
         (a.state = .idle ∨ rd s (slotWord k 8) = 0 →
           a.price = (rd s (slotWord k 5)).toNat ∧ rdPair t (slotWord k 9) = rdPair s (slotWord k 9)) ∧
         (a.state ≠ .idle → rd s (slotWord k 8) ≠ 0 →
           a.price = min (rdPair s (slotWord k 9) / (rd s (slotWord k 8)).toNat) 65535 ∧
           rdPair t (slotWord k 9) = a.price * (rd s (slotWord k 8)).toNat)) ∧
       WordsKept ((List.range 8).flatMap fun k => [slotWord k 6, slotWord k 9, slotWord k 10]) s t ∧
       t = { s with
         mem := t.mem, port := t.port, part := t.part, slots := { s.slots with armed := t.slots.armed } }) ∧
  ((∀ (r l : RingCopy) (s : State), atStartStep 6 s = true → s.writer.log = some r → s.writer.journal = some l →
     exec .ringControlValidation s = .next { s with part := { s.part with startStep := 7 } }) ∧
   ∀ s : State, MemWf s.mem → atStartStep 6 s = true → s.writer.log = none → s.writer.journal = none →
     ∃ t, exec .ringControlValidation s = .next t ∧ t.part = { s.part with startStep := 7 } ∧
       (∀ (n : RingName) (h q z : Nat), (n = .log ∧ h = 0x120 ∧ z = 512) ∨ (n = .journal ∧ h = 0x123 ∧ z = 1024) →
         q = (rd s (h + 2)).toNat →
         ((z ≤ (rd s h).toNat ∨ q = 0) →
           ringCopy t n = some { head := 0, tail := 0, sequence := max q 1 } ∧
           rd t h = 0 ∧ rd t (h + 1) = 0 ∧ rd t (h + 2) = wordOf (max q 1)) ∧
         ((rd s h).toNat < z → q ≠ 0 → z ≤ (rd s (h + 1)).toNat →
           ringCopy t n = some { head := (rd s h).toNat, tail := (rd s h).toNat, sequence := q } ∧
           rd t h = rd s h ∧ rd t (h + 1) = rd s h ∧ rd t (h + 2) = rd s (h + 2)) ∧
         ((rd s h).toNat < z → q ≠ 0 → (rd s (h + 1)).toNat < z →
           ringCopy t n = some { head := (rd s h).toNat, tail := (rd s (h + 1)).toNat, sequence := q } ∧
           rd t h = rd s h ∧ rd t (h + 1) = rd s (h + 1) ∧ rd t (h + 2) = rd s (h + 2))) ∧
       RingLaw t ∧ WordsKept [0x120, 0x121, 0x122, 0x123, 0x124, 0x125] s t ∧
       t = { s with mem := t.mem, port := t.port, part := t.part, writer := t.writer }) ∧
  (∀ s : State, MemWf s.mem → atStartStep 7 s = true →
     ∃ t, exec .closeResumption s = .next t ∧ t.part = { s.part with startStep := 8 } ∧
       (rd s 0x126 = 1 →
         t.close = { s.close with
           copy := some
             { status := .closing, cursor := min (rd s 0x127).toNat 4096, number := (rd s 0x128).toNat }
           resumed := true, statements := 0 } ∧
         rd t 0x127 = wordOf (min (rd s 0x127).toNat 4096) ∧ WordsKept [0x127] s t) ∧
       (rd s 0x126 ≠ 1 →
         t.close = { s.close with
           copy := some { status := .idle, cursor := (rd s 0x127).toNat, number := (rd s 0x128).toNat } } ∧
         rd t 0x126 = 0 ∧ WordsKept [0x126] s t) ∧
       t = { s with mem := t.mem, port := t.port, part := t.part, close := t.close })

/-- R176, R31: START appends its record with the cause and the conditions found. REQUEST_SLOT_SCAN queues the slots in
REQUESTED in ascending order, and ends those in progress: a CLOSE_NOW is bound to the resumed close if it is the first, ends
BUSY if it is not, and ends DONE with the close number when no close is in progress; any other request ends SUPERSEDED.
R24, R26, R27, R179, R148, R138, R160: STARTUP_END latches every flag whose condition holds and leaves STARTING: to
SERVING with a RESYNC sweep opened and refresh awake if a working copy is valid, and to UNPLANNED if none is. A noted tick or
release is then taken once if VALID is set: the slots are evaluated at the current stamp, their sweeps opened after RESYNC,
and, if the part enters SERVING and the Close Engine noted a tick, the close alarm is tested against the fields as they
stand; with VALID clear it is let go. That this is a command of its own, and others may come between the scan of step 9 and
it, is the model's choice (log entry 38). -/
def Obligations.StartupEndsInOrder : Prop :=
  ((∀ (c : Nat) (s : State), MemWf s.mem → RingLaw s → atStartStep 8 s = true →
     c = (if s.part.backupLost then 1 else 0) + (if s.writer.logEmptied then 2 else 0) +
       (if s.writer.journalEmptied then 4 else 0) + (if s.writer.logTailSet then 8 else 0) +
       (if s.writer.journalTailSet then 16 else 0) + (if s.close.resumed then 32 else 0) +
       (if s.plan.copy = none then 64 else 0) →
     ∃ t, exec .start s = .next t ∧ t.part = { s.part with startStep := 9 } ∧
       Logged .start 0 (if s.part.cause = .reset then 1 else 0) c 0 s t ∧ KeptOutside ringPlace s t ∧
       t = { s with mem := t.mem, port := t.port, part := t.part, writer := t.writer }) ∧
   ∀ (k : CloseCopy) (s : State), MemWf s.mem → atStartStep 9 s = true → s.close.copy = some k → s.close.bound = none →
     ∃ t, exec .requestSlotScan s = .next t ∧ t.part.startStep = 10 ∧ t.part.state = .starting ∧
       t.part.queue = s.part.queue ++ (List.range 8).filter (fun n => decide (requestStatus s n = 1)) ∧
       (∀ n, n < 8 → requestStatus s n ≠ 2 → ∀ w, w < 4 → rd t (requestWord n w) = rd s (requestWord n w)) ∧
       (∀ n, n < 8 → requestStatus s n = 2 → requestCode s n ≠ 9 → SlotShows n 4 22 s t) ∧
       (∀ n, n < 8 → requestStatus s n = 2 → requestCode s n = 9 →
         (k.status = .idle → SlotShows n 3 0 s t ∧ rd t (requestWord n 3) = wordOf k.number) ∧
         (k.status = .closing →
           ((∃ m, m < n ∧ requestStatus s m = 2 ∧ requestCode s m = 9) → SlotShows n 4 21 s t) ∧
           ((∀ m, m < n → ¬(requestStatus s m = 2 ∧ requestCode s m = 9)) →
             t.close = { s.close with bound := some n } ∧ (n, .closeNow) ∈ t.part.inProgress ∧
             rd t (requestWord n 0) = rd s (requestWord n 0)))) ∧
       WordsKept ((List.range 8).flatMap slotWords) s t ∧
       t = { s with mem := t.mem, port := t.port, part := t.part, close := t.close }) ∧
  (∀ (evaluated isMatch : Prop) (stamp : Nat) (woken : State) (opened : List SweepKind) (s : State), MemWf s.mem →
     RingLaw s → atStartStep 10 s = true → stamp = currentStamp s →
     (evaluated ↔ s.slots.noted = true ∧ s.clock.valid = true) →
     (isMatch ↔ s.close.noted = true ∧ s.clock.valid = true ∧ ∃ p, s.plan.copy = some p ∧ AlarmMatches p s.clock.now) →
     woken = { s with sched := { s.sched with refresh := { s.sched.refresh with
       resting := false, visits := if s.sched.refresh.resting = true then 0 else s.sched.refresh.visits } } } →
     (evaluated → opened = openedSweeps s stamp) → (¬evaluated → opened = []) →
     ∃ u, exec .startupEnd s = .next (concluded s u) ∧
       u.part = { s.part with state := if s.plan.copy = none then .unplanned else .serving } ∧
       (s.plan.copy ≠ none → u.sched = sweepsOpened (.resync :: opened) woken) ∧
       (s.plan.copy = none → u.sched = sweepsOpened opened s) ∧
       (evaluated → SlotsEvaluated stamp s u) ∧ (¬evaluated → SlotsKept s u) ∧ AlarmTaken isMatch s u ∧
       (isMatch → opened = [] → s.sched.sweeps.length < 4 → ∀ k, s.close.copy = some k →
         (k.status = .idle →
           Logged .closeBegin (if 65535 ≤ k.number then 1 else k.number + 1) 0 65535 0 s u) ∧
         (k.status = .closing → Logged .closeLate k.number k.cursor (if s.close.stalled then 1 else 0) 0 s u)) ∧
       (∀ f : Flag, (s.flags.getLsbD f.bit = true ∨ condition s f = true) → u.flags.getLsbD f.bit = true) ∧
       u.slots.noted = false ∧ u.close.noted = false ∧
       (s.slots.noted = false → s.close.noted = false → s.sched.sweeps.length < 4 →
         u.flags = s.flags ||| conditions s ∧ u.mem = s.mem ∧ u.slots = s.slots ∧ u.close = s.close) ∧
       KeptOutside (withRings ([0x126, 0x127, 0x128] ++ (List.range 8).map fun j => slotWord j 6)) s u ∧
       u = { s with
         mem := u.mem, port := u.port, part := u.part, sched := u.sched, slots := u.slots, close := u.close
         writer := u.writer, flags := u.flags })

end Statements
end

