-- ==== Sys2Proof/Laws/State.lean ====
section
/-!
SUPPORT. One lemma per field of State for each update of the shared operations that leaves the field alone, so that no
proof unfolds a record update.
-/

namespace Sys2Proof.Machine

@[simp] theorem wr_pending (s : State) (a : Nat) (w : Word) : (wr s a w).pending = s.pending := rfl
@[simp] theorem wr_power (s : State) (a : Nat) (w : Word) : (wr s a w).power = s.power := rfl
@[simp] theorem wr_bus (s : State) (a : Nat) (w : Word) : (wr s a w).bus = s.bus := rfl
@[simp] theorem wr_path (s : State) (a : Nat) (w : Word) : (wr s a w).path = s.path := rfl
@[simp] theorem wr_part (s : State) (a : Nat) (w : Word) : (wr s a w).part = s.part := rfl
@[simp] theorem wr_plan (s : State) (a : Nat) (w : Word) : (wr s a w).plan = s.plan := rfl
@[simp] theorem wr_lineup (s : State) (a : Nat) (w : Word) : (wr s a w).lineup = s.lineup := rfl
@[simp] theorem wr_order (s : State) (a : Nat) (w : Word) : (wr s a w).order = s.order := rfl
@[simp] theorem wr_sched (s : State) (a : Nat) (w : Word) : (wr s a w).sched = s.sched := rfl
@[simp] theorem wr_tracker (s : State) (a : Nat) (w : Word) : (wr s a w).tracker = s.tracker := rfl
@[simp] theorem wr_receiver (s : State) (a : Nat) (w : Word) : (wr s a w).receiver = s.receiver := rfl
@[simp] theorem wr_plant (s : State) (a : Nat) (w : Word) : (wr s a w).plant = s.plant := rfl
@[simp] theorem wr_clock (s : State) (a : Nat) (w : Word) : (wr s a w).clock = s.clock := rfl
@[simp] theorem wr_meter (s : State) (a : Nat) (w : Word) : (wr s a w).meter = s.meter := rfl
@[simp] theorem wr_slots (s : State) (a : Nat) (w : Word) : (wr s a w).slots = s.slots := rfl
@[simp] theorem wr_close (s : State) (a : Nat) (w : Word) : (wr s a w).close = s.close := rfl
@[simp] theorem wr_writer (s : State) (a : Nat) (w : Word) : (wr s a w).writer = s.writer := rfl
@[simp] theorem wr_flags (s : State) (a : Nat) (w : Word) : (wr s a w).flags = s.flags := rfl
@[simp] theorem wr_time (s : State) (a : Nat) (w : Word) : (wr s a w).time = s.time := rfl
@[simp] theorem wr_freeCount (s : State) (a : Nat) (w : Word) : (wr s a w).freeCount = s.freeCount := rfl

@[simp] theorem wrHeld_pending (s : State) (ws : List (Nat × Word)) : (wrHeld s ws).pending = s.pending := rfl
@[simp] theorem wrHeld_power (s : State) (ws : List (Nat × Word)) : (wrHeld s ws).power = s.power := rfl
@[simp] theorem wrHeld_bus (s : State) (ws : List (Nat × Word)) : (wrHeld s ws).bus = s.bus := rfl
@[simp] theorem wrHeld_path (s : State) (ws : List (Nat × Word)) : (wrHeld s ws).path = s.path := rfl
@[simp] theorem wrHeld_part (s : State) (ws : List (Nat × Word)) : (wrHeld s ws).part = s.part := rfl
@[simp] theorem wrHeld_plan (s : State) (ws : List (Nat × Word)) : (wrHeld s ws).plan = s.plan := rfl
@[simp] theorem wrHeld_lineup (s : State) (ws : List (Nat × Word)) : (wrHeld s ws).lineup = s.lineup := rfl
@[simp] theorem wrHeld_order (s : State) (ws : List (Nat × Word)) : (wrHeld s ws).order = s.order := rfl
@[simp] theorem wrHeld_sched (s : State) (ws : List (Nat × Word)) : (wrHeld s ws).sched = s.sched := rfl
@[simp] theorem wrHeld_tracker (s : State) (ws : List (Nat × Word)) : (wrHeld s ws).tracker = s.tracker := rfl
@[simp] theorem wrHeld_receiver (s : State) (ws : List (Nat × Word)) : (wrHeld s ws).receiver = s.receiver := rfl
@[simp] theorem wrHeld_plant (s : State) (ws : List (Nat × Word)) : (wrHeld s ws).plant = s.plant := rfl
@[simp] theorem wrHeld_clock (s : State) (ws : List (Nat × Word)) : (wrHeld s ws).clock = s.clock := rfl
@[simp] theorem wrHeld_meter (s : State) (ws : List (Nat × Word)) : (wrHeld s ws).meter = s.meter := rfl
@[simp] theorem wrHeld_slots (s : State) (ws : List (Nat × Word)) : (wrHeld s ws).slots = s.slots := rfl
@[simp] theorem wrHeld_close (s : State) (ws : List (Nat × Word)) : (wrHeld s ws).close = s.close := rfl
@[simp] theorem wrHeld_writer (s : State) (ws : List (Nat × Word)) : (wrHeld s ws).writer = s.writer := rfl
@[simp] theorem wrHeld_flags (s : State) (ws : List (Nat × Word)) : (wrHeld s ws).flags = s.flags := rfl
@[simp] theorem wrHeld_time (s : State) (ws : List (Nat × Word)) : (wrHeld s ws).time = s.time := rfl
@[simp] theorem wrHeld_freeCount (s : State) (ws : List (Nat × Word)) : (wrHeld s ws).freeCount = s.freeCount := rfl

@[simp] theorem wrPair_pending (s : State) (a n : Nat) : (wrPair s a n).pending = s.pending := rfl
@[simp] theorem wrPair_power (s : State) (a n : Nat) : (wrPair s a n).power = s.power := rfl
@[simp] theorem wrPair_bus (s : State) (a n : Nat) : (wrPair s a n).bus = s.bus := rfl
@[simp] theorem wrPair_path (s : State) (a n : Nat) : (wrPair s a n).path = s.path := rfl
@[simp] theorem wrPair_part (s : State) (a n : Nat) : (wrPair s a n).part = s.part := rfl
@[simp] theorem wrPair_plan (s : State) (a n : Nat) : (wrPair s a n).plan = s.plan := rfl
@[simp] theorem wrPair_lineup (s : State) (a n : Nat) : (wrPair s a n).lineup = s.lineup := rfl
@[simp] theorem wrPair_order (s : State) (a n : Nat) : (wrPair s a n).order = s.order := rfl
@[simp] theorem wrPair_sched (s : State) (a n : Nat) : (wrPair s a n).sched = s.sched := rfl
@[simp] theorem wrPair_tracker (s : State) (a n : Nat) : (wrPair s a n).tracker = s.tracker := rfl
@[simp] theorem wrPair_receiver (s : State) (a n : Nat) : (wrPair s a n).receiver = s.receiver := rfl
@[simp] theorem wrPair_plant (s : State) (a n : Nat) : (wrPair s a n).plant = s.plant := rfl
@[simp] theorem wrPair_clock (s : State) (a n : Nat) : (wrPair s a n).clock = s.clock := rfl
@[simp] theorem wrPair_meter (s : State) (a n : Nat) : (wrPair s a n).meter = s.meter := rfl
@[simp] theorem wrPair_slots (s : State) (a n : Nat) : (wrPair s a n).slots = s.slots := rfl
@[simp] theorem wrPair_close (s : State) (a n : Nat) : (wrPair s a n).close = s.close := rfl
@[simp] theorem wrPair_writer (s : State) (a n : Nat) : (wrPair s a n).writer = s.writer := rfl
@[simp] theorem wrPair_flags (s : State) (a n : Nat) : (wrPair s a n).flags = s.flags := rfl
@[simp] theorem wrPair_time (s : State) (a n : Nat) : (wrPair s a n).time = s.time := rfl
@[simp] theorem wrPair_freeCount (s : State) (a n : Nat) : (wrPair s a n).freeCount = s.freeCount := rfl

@[simp] theorem hostStore_pending (s : State) (a : Nat) (l : Lanes) (w : Word) :
    (hostStore s a l w).pending = s.pending := rfl
@[simp] theorem hostStore_power (s : State) (a : Nat) (l : Lanes) (w : Word) :
    (hostStore s a l w).power = s.power := rfl
@[simp] theorem hostStore_bus (s : State) (a : Nat) (l : Lanes) (w : Word) : (hostStore s a l w).bus = s.bus := rfl
@[simp] theorem hostStore_path (s : State) (a : Nat) (l : Lanes) (w : Word) : (hostStore s a l w).path = s.path := rfl
@[simp] theorem hostStore_part (s : State) (a : Nat) (l : Lanes) (w : Word) : (hostStore s a l w).part = s.part := rfl
@[simp] theorem hostStore_plan (s : State) (a : Nat) (l : Lanes) (w : Word) : (hostStore s a l w).plan = s.plan := rfl
@[simp] theorem hostStore_lineup (s : State) (a : Nat) (l : Lanes) (w : Word) :
    (hostStore s a l w).lineup = s.lineup := rfl
@[simp] theorem hostStore_order (s : State) (a : Nat) (l : Lanes) (w : Word) :
    (hostStore s a l w).order = s.order := rfl
@[simp] theorem hostStore_sched (s : State) (a : Nat) (l : Lanes) (w : Word) :
    (hostStore s a l w).sched = s.sched := rfl
@[simp] theorem hostStore_tracker (s : State) (a : Nat) (l : Lanes) (w : Word) :
    (hostStore s a l w).tracker = s.tracker := rfl
@[simp] theorem hostStore_receiver (s : State) (a : Nat) (l : Lanes) (w : Word) :
    (hostStore s a l w).receiver = s.receiver := rfl
@[simp] theorem hostStore_plant (s : State) (a : Nat) (l : Lanes) (w : Word) :
    (hostStore s a l w).plant = s.plant := rfl
@[simp] theorem hostStore_clock (s : State) (a : Nat) (l : Lanes) (w : Word) :
    (hostStore s a l w).clock = s.clock := rfl
@[simp] theorem hostStore_meter (s : State) (a : Nat) (l : Lanes) (w : Word) :
    (hostStore s a l w).meter = s.meter := rfl
@[simp] theorem hostStore_slots (s : State) (a : Nat) (l : Lanes) (w : Word) :
    (hostStore s a l w).slots = s.slots := rfl
@[simp] theorem hostStore_close (s : State) (a : Nat) (l : Lanes) (w : Word) :
    (hostStore s a l w).close = s.close := rfl
@[simp] theorem hostStore_writer (s : State) (a : Nat) (l : Lanes) (w : Word) :
    (hostStore s a l w).writer = s.writer := rfl
@[simp] theorem hostStore_flags (s : State) (a : Nat) (l : Lanes) (w : Word) :
    (hostStore s a l w).flags = s.flags := rfl
@[simp] theorem hostStore_time (s : State) (a : Nat) (l : Lanes) (w : Word) : (hostStore s a l w).time = s.time := rfl
@[simp] theorem hostStore_freeCount (s : State) (a : Nat) (l : Lanes) (w : Word) :
    (hostStore s a l w).freeCount = s.freeCount := rfl

@[simp] theorem grantPort_pending (x : PortSide) (s : State) : (grantPort x s).pending = s.pending := rfl
@[simp] theorem grantPort_mem (x : PortSide) (s : State) : (grantPort x s).mem = s.mem := rfl
@[simp] theorem grantPort_power (x : PortSide) (s : State) : (grantPort x s).power = s.power := rfl
@[simp] theorem grantPort_bus (x : PortSide) (s : State) : (grantPort x s).bus = s.bus := rfl
@[simp] theorem grantPort_path (x : PortSide) (s : State) : (grantPort x s).path = s.path := rfl
@[simp] theorem grantPort_part (x : PortSide) (s : State) : (grantPort x s).part = s.part := rfl
@[simp] theorem grantPort_plan (x : PortSide) (s : State) : (grantPort x s).plan = s.plan := rfl
@[simp] theorem grantPort_lineup (x : PortSide) (s : State) : (grantPort x s).lineup = s.lineup := rfl
@[simp] theorem grantPort_order (x : PortSide) (s : State) : (grantPort x s).order = s.order := rfl
@[simp] theorem grantPort_sched (x : PortSide) (s : State) : (grantPort x s).sched = s.sched := rfl
@[simp] theorem grantPort_tracker (x : PortSide) (s : State) : (grantPort x s).tracker = s.tracker := rfl
@[simp] theorem grantPort_receiver (x : PortSide) (s : State) : (grantPort x s).receiver = s.receiver := rfl
@[simp] theorem grantPort_plant (x : PortSide) (s : State) : (grantPort x s).plant = s.plant := rfl
@[simp] theorem grantPort_clock (x : PortSide) (s : State) : (grantPort x s).clock = s.clock := rfl
@[simp] theorem grantPort_meter (x : PortSide) (s : State) : (grantPort x s).meter = s.meter := rfl
@[simp] theorem grantPort_slots (x : PortSide) (s : State) : (grantPort x s).slots = s.slots := rfl
@[simp] theorem grantPort_close (x : PortSide) (s : State) : (grantPort x s).close = s.close := rfl
@[simp] theorem grantPort_writer (x : PortSide) (s : State) : (grantPort x s).writer = s.writer := rfl
@[simp] theorem grantPort_flags (x : PortSide) (s : State) : (grantPort x s).flags = s.flags := rfl
@[simp] theorem grantPort_time (x : PortSide) (s : State) : (grantPort x s).time = s.time := rfl
@[simp] theorem grantPort_freeCount (x : PortSide) (s : State) : (grantPort x s).freeCount = s.freeCount := rfl

@[simp] theorem partRead_pending (s : State) : (partRead s).pending = s.pending := rfl
@[simp] theorem partRead_mem (s : State) : (partRead s).mem = s.mem := rfl
@[simp] theorem partRead_power (s : State) : (partRead s).power = s.power := rfl
@[simp] theorem partRead_bus (s : State) : (partRead s).bus = s.bus := rfl
@[simp] theorem partRead_path (s : State) : (partRead s).path = s.path := rfl
@[simp] theorem partRead_part (s : State) : (partRead s).part = s.part := rfl
@[simp] theorem partRead_plan (s : State) : (partRead s).plan = s.plan := rfl
@[simp] theorem partRead_lineup (s : State) : (partRead s).lineup = s.lineup := rfl
@[simp] theorem partRead_order (s : State) : (partRead s).order = s.order := rfl
@[simp] theorem partRead_sched (s : State) : (partRead s).sched = s.sched := rfl
@[simp] theorem partRead_tracker (s : State) : (partRead s).tracker = s.tracker := rfl
@[simp] theorem partRead_receiver (s : State) : (partRead s).receiver = s.receiver := rfl
@[simp] theorem partRead_plant (s : State) : (partRead s).plant = s.plant := rfl
@[simp] theorem partRead_clock (s : State) : (partRead s).clock = s.clock := rfl
@[simp] theorem partRead_meter (s : State) : (partRead s).meter = s.meter := rfl
@[simp] theorem partRead_slots (s : State) : (partRead s).slots = s.slots := rfl
@[simp] theorem partRead_close (s : State) : (partRead s).close = s.close := rfl
@[simp] theorem partRead_writer (s : State) : (partRead s).writer = s.writer := rfl
@[simp] theorem partRead_flags (s : State) : (partRead s).flags = s.flags := rfl
@[simp] theorem partRead_time (s : State) : (partRead s).time = s.time := rfl
@[simp] theorem partRead_freeCount (s : State) : (partRead s).freeCount = s.freeCount := rfl

@[simp] theorem setNotice_pending (a b : Nat) (s : State) : (setNotice a b s).pending = s.pending := rfl
@[simp] theorem setNotice_power (a b : Nat) (s : State) : (setNotice a b s).power = s.power := rfl
@[simp] theorem setNotice_bus (a b : Nat) (s : State) : (setNotice a b s).bus = s.bus := rfl
@[simp] theorem setNotice_path (a b : Nat) (s : State) : (setNotice a b s).path = s.path := rfl
@[simp] theorem setNotice_part (a b : Nat) (s : State) : (setNotice a b s).part = s.part := rfl
@[simp] theorem setNotice_plan (a b : Nat) (s : State) : (setNotice a b s).plan = s.plan := rfl
@[simp] theorem setNotice_lineup (a b : Nat) (s : State) : (setNotice a b s).lineup = s.lineup := rfl
@[simp] theorem setNotice_order (a b : Nat) (s : State) : (setNotice a b s).order = s.order := rfl
@[simp] theorem setNotice_sched (a b : Nat) (s : State) : (setNotice a b s).sched = s.sched := rfl
@[simp] theorem setNotice_tracker (a b : Nat) (s : State) : (setNotice a b s).tracker = s.tracker := rfl
@[simp] theorem setNotice_receiver (a b : Nat) (s : State) : (setNotice a b s).receiver = s.receiver := rfl
@[simp] theorem setNotice_plant (a b : Nat) (s : State) : (setNotice a b s).plant = s.plant := rfl
@[simp] theorem setNotice_clock (a b : Nat) (s : State) : (setNotice a b s).clock = s.clock := rfl
@[simp] theorem setNotice_meter (a b : Nat) (s : State) : (setNotice a b s).meter = s.meter := rfl
@[simp] theorem setNotice_slots (a b : Nat) (s : State) : (setNotice a b s).slots = s.slots := rfl
@[simp] theorem setNotice_close (a b : Nat) (s : State) : (setNotice a b s).close = s.close := rfl
@[simp] theorem setNotice_writer (a b : Nat) (s : State) : (setNotice a b s).writer = s.writer := rfl
@[simp] theorem setNotice_flags (a b : Nat) (s : State) : (setNotice a b s).flags = s.flags := rfl
@[simp] theorem setNotice_time (a b : Nat) (s : State) : (setNotice a b s).time = s.time := rfl
@[simp] theorem setNotice_freeCount (a b : Nat) (s : State) : (setNotice a b s).freeCount = s.freeCount := rfl

@[simp] theorem drive_pending (s : State) (l : Lanes) (w : Word) : (drive s l w).pending = s.pending := rfl
@[simp] theorem drive_mem (s : State) (l : Lanes) (w : Word) : (drive s l w).mem = s.mem := rfl
@[simp] theorem drive_power (s : State) (l : Lanes) (w : Word) : (drive s l w).power = s.power := rfl
@[simp] theorem drive_port (s : State) (l : Lanes) (w : Word) : (drive s l w).port = s.port := rfl
@[simp] theorem drive_path (s : State) (l : Lanes) (w : Word) : (drive s l w).path = s.path := rfl
@[simp] theorem drive_part (s : State) (l : Lanes) (w : Word) : (drive s l w).part = s.part := rfl
@[simp] theorem drive_plan (s : State) (l : Lanes) (w : Word) : (drive s l w).plan = s.plan := rfl
@[simp] theorem drive_lineup (s : State) (l : Lanes) (w : Word) : (drive s l w).lineup = s.lineup := rfl
@[simp] theorem drive_order (s : State) (l : Lanes) (w : Word) : (drive s l w).order = s.order := rfl
@[simp] theorem drive_sched (s : State) (l : Lanes) (w : Word) : (drive s l w).sched = s.sched := rfl
@[simp] theorem drive_tracker (s : State) (l : Lanes) (w : Word) : (drive s l w).tracker = s.tracker := rfl
@[simp] theorem drive_receiver (s : State) (l : Lanes) (w : Word) : (drive s l w).receiver = s.receiver := rfl
@[simp] theorem drive_plant (s : State) (l : Lanes) (w : Word) : (drive s l w).plant = s.plant := rfl
@[simp] theorem drive_clock (s : State) (l : Lanes) (w : Word) : (drive s l w).clock = s.clock := rfl
@[simp] theorem drive_meter (s : State) (l : Lanes) (w : Word) : (drive s l w).meter = s.meter := rfl
@[simp] theorem drive_slots (s : State) (l : Lanes) (w : Word) : (drive s l w).slots = s.slots := rfl
@[simp] theorem drive_close (s : State) (l : Lanes) (w : Word) : (drive s l w).close = s.close := rfl
@[simp] theorem drive_writer (s : State) (l : Lanes) (w : Word) : (drive s l w).writer = s.writer := rfl
@[simp] theorem drive_flags (s : State) (l : Lanes) (w : Word) : (drive s l w).flags = s.flags := rfl
@[simp] theorem drive_time (s : State) (l : Lanes) (w : Word) : (drive s l w).time = s.time := rfl
@[simp] theorem drive_freeCount (s : State) (l : Lanes) (w : Word) : (drive s l w).freeCount = s.freeCount := rfl

@[simp] theorem squash_pending (a : Addr) (r : SquashReason) (s : State) : (squash a r s).pending = s.pending := rfl
@[simp] theorem squash_mem (a : Addr) (r : SquashReason) (s : State) : (squash a r s).mem = s.mem := rfl
@[simp] theorem squash_power (a : Addr) (r : SquashReason) (s : State) : (squash a r s).power = s.power := rfl
@[simp] theorem squash_port (a : Addr) (r : SquashReason) (s : State) : (squash a r s).port = s.port := rfl
@[simp] theorem squash_bus (a : Addr) (r : SquashReason) (s : State) : (squash a r s).bus = s.bus := rfl
@[simp] theorem squash_part (a : Addr) (r : SquashReason) (s : State) : (squash a r s).part = s.part := rfl
@[simp] theorem squash_plan (a : Addr) (r : SquashReason) (s : State) : (squash a r s).plan = s.plan := rfl
@[simp] theorem squash_lineup (a : Addr) (r : SquashReason) (s : State) : (squash a r s).lineup = s.lineup := rfl
@[simp] theorem squash_order (a : Addr) (r : SquashReason) (s : State) : (squash a r s).order = s.order := rfl
@[simp] theorem squash_sched (a : Addr) (r : SquashReason) (s : State) : (squash a r s).sched = s.sched := rfl
@[simp] theorem squash_tracker (a : Addr) (r : SquashReason) (s : State) : (squash a r s).tracker = s.tracker := rfl
@[simp] theorem squash_receiver (a : Addr) (r : SquashReason) (s : State) : (squash a r s).receiver = s.receiver := rfl
@[simp] theorem squash_plant (a : Addr) (r : SquashReason) (s : State) : (squash a r s).plant = s.plant := rfl
@[simp] theorem squash_clock (a : Addr) (r : SquashReason) (s : State) : (squash a r s).clock = s.clock := rfl
@[simp] theorem squash_meter (a : Addr) (r : SquashReason) (s : State) : (squash a r s).meter = s.meter := rfl
@[simp] theorem squash_slots (a : Addr) (r : SquashReason) (s : State) : (squash a r s).slots = s.slots := rfl
@[simp] theorem squash_close (a : Addr) (r : SquashReason) (s : State) : (squash a r s).close = s.close := rfl
@[simp] theorem squash_writer (a : Addr) (r : SquashReason) (s : State) : (squash a r s).writer = s.writer := rfl
@[simp] theorem squash_time (a : Addr) (r : SquashReason) (s : State) : (squash a r s).time = s.time := rfl
@[simp] theorem squash_freeCount (a : Addr) (r : SquashReason) (s : State) :
    (squash a r s).freeCount = s.freeCount := rfl

@[simp] theorem latch_pending (w : Word) (s : State) : (latch w s).pending = s.pending := rfl
@[simp] theorem latch_mem (w : Word) (s : State) : (latch w s).mem = s.mem := rfl
@[simp] theorem latch_power (w : Word) (s : State) : (latch w s).power = s.power := rfl
@[simp] theorem latch_port (w : Word) (s : State) : (latch w s).port = s.port := rfl
@[simp] theorem latch_bus (w : Word) (s : State) : (latch w s).bus = s.bus := rfl
@[simp] theorem latch_path (w : Word) (s : State) : (latch w s).path = s.path := rfl
@[simp] theorem latch_part (w : Word) (s : State) : (latch w s).part = s.part := rfl
@[simp] theorem latch_plan (w : Word) (s : State) : (latch w s).plan = s.plan := rfl
@[simp] theorem latch_lineup (w : Word) (s : State) : (latch w s).lineup = s.lineup := rfl
@[simp] theorem latch_order (w : Word) (s : State) : (latch w s).order = s.order := rfl
@[simp] theorem latch_sched (w : Word) (s : State) : (latch w s).sched = s.sched := rfl
@[simp] theorem latch_tracker (w : Word) (s : State) : (latch w s).tracker = s.tracker := rfl
@[simp] theorem latch_receiver (w : Word) (s : State) : (latch w s).receiver = s.receiver := rfl
@[simp] theorem latch_plant (w : Word) (s : State) : (latch w s).plant = s.plant := rfl
@[simp] theorem latch_clock (w : Word) (s : State) : (latch w s).clock = s.clock := rfl
@[simp] theorem latch_meter (w : Word) (s : State) : (latch w s).meter = s.meter := rfl
@[simp] theorem latch_slots (w : Word) (s : State) : (latch w s).slots = s.slots := rfl
@[simp] theorem latch_close (w : Word) (s : State) : (latch w s).close = s.close := rfl
@[simp] theorem latch_writer (w : Word) (s : State) : (latch w s).writer = s.writer := rfl
@[simp] theorem latch_time (w : Word) (s : State) : (latch w s).time = s.time := rfl
@[simp] theorem latch_freeCount (w : Word) (s : State) : (latch w s).freeCount = s.freeCount := rfl

@[simp] theorem capturePair_pending (a : Addr) (h : Word) (s : State) : (capturePair a h s).pending = s.pending := rfl
@[simp] theorem capturePair_mem (a : Addr) (h : Word) (s : State) : (capturePair a h s).mem = s.mem := rfl
@[simp] theorem capturePair_power (a : Addr) (h : Word) (s : State) : (capturePair a h s).power = s.power := rfl
@[simp] theorem capturePair_port (a : Addr) (h : Word) (s : State) : (capturePair a h s).port = s.port := rfl
@[simp] theorem capturePair_bus (a : Addr) (h : Word) (s : State) : (capturePair a h s).bus = s.bus := rfl
@[simp] theorem capturePair_part (a : Addr) (h : Word) (s : State) : (capturePair a h s).part = s.part := rfl
@[simp] theorem capturePair_plan (a : Addr) (h : Word) (s : State) : (capturePair a h s).plan = s.plan := rfl
@[simp] theorem capturePair_lineup (a : Addr) (h : Word) (s : State) : (capturePair a h s).lineup = s.lineup := rfl
@[simp] theorem capturePair_order (a : Addr) (h : Word) (s : State) : (capturePair a h s).order = s.order := rfl
@[simp] theorem capturePair_sched (a : Addr) (h : Word) (s : State) : (capturePair a h s).sched = s.sched := rfl
@[simp] theorem capturePair_tracker (a : Addr) (h : Word) (s : State) : (capturePair a h s).tracker = s.tracker := rfl
@[simp] theorem capturePair_receiver (a : Addr) (h : Word) (s : State) :
    (capturePair a h s).receiver = s.receiver := rfl
@[simp] theorem capturePair_plant (a : Addr) (h : Word) (s : State) : (capturePair a h s).plant = s.plant := rfl
@[simp] theorem capturePair_clock (a : Addr) (h : Word) (s : State) : (capturePair a h s).clock = s.clock := rfl
@[simp] theorem capturePair_meter (a : Addr) (h : Word) (s : State) : (capturePair a h s).meter = s.meter := rfl
@[simp] theorem capturePair_slots (a : Addr) (h : Word) (s : State) : (capturePair a h s).slots = s.slots := rfl
@[simp] theorem capturePair_close (a : Addr) (h : Word) (s : State) : (capturePair a h s).close = s.close := rfl
@[simp] theorem capturePair_writer (a : Addr) (h : Word) (s : State) : (capturePair a h s).writer = s.writer := rfl
@[simp] theorem capturePair_flags (a : Addr) (h : Word) (s : State) : (capturePair a h s).flags = s.flags := rfl
@[simp] theorem capturePair_time (a : Addr) (h : Word) (s : State) : (capturePair a h s).time = s.time := rfl
@[simp] theorem capturePair_freeCount (a : Addr) (h : Word) (s : State) :
    (capturePair a h s).freeCount = s.freeCount := rfl

@[simp] theorem releasePair_pending (s : State) : (releasePair s).pending = s.pending := rfl
@[simp] theorem releasePair_mem (s : State) : (releasePair s).mem = s.mem := rfl
@[simp] theorem releasePair_power (s : State) : (releasePair s).power = s.power := rfl
@[simp] theorem releasePair_port (s : State) : (releasePair s).port = s.port := rfl
@[simp] theorem releasePair_bus (s : State) : (releasePair s).bus = s.bus := rfl
@[simp] theorem releasePair_part (s : State) : (releasePair s).part = s.part := rfl
@[simp] theorem releasePair_plan (s : State) : (releasePair s).plan = s.plan := rfl
@[simp] theorem releasePair_lineup (s : State) : (releasePair s).lineup = s.lineup := rfl
@[simp] theorem releasePair_order (s : State) : (releasePair s).order = s.order := rfl
@[simp] theorem releasePair_sched (s : State) : (releasePair s).sched = s.sched := rfl
@[simp] theorem releasePair_tracker (s : State) : (releasePair s).tracker = s.tracker := rfl
@[simp] theorem releasePair_receiver (s : State) : (releasePair s).receiver = s.receiver := rfl
@[simp] theorem releasePair_plant (s : State) : (releasePair s).plant = s.plant := rfl
@[simp] theorem releasePair_clock (s : State) : (releasePair s).clock = s.clock := rfl
@[simp] theorem releasePair_meter (s : State) : (releasePair s).meter = s.meter := rfl
@[simp] theorem releasePair_slots (s : State) : (releasePair s).slots = s.slots := rfl
@[simp] theorem releasePair_close (s : State) : (releasePair s).close = s.close := rfl
@[simp] theorem releasePair_writer (s : State) : (releasePair s).writer = s.writer := rfl
@[simp] theorem releasePair_flags (s : State) : (releasePair s).flags = s.flags := rfl
@[simp] theorem releasePair_time (s : State) : (releasePair s).time = s.time := rfl
@[simp] theorem releasePair_freeCount (s : State) : (releasePair s).freeCount = s.freeCount := rfl

@[simp] theorem writeStatus_pending (i : Nat) (o n : RecordStatus) (s : State) :
    (writeStatus i o n s).pending = s.pending := rfl
@[simp] theorem writeStatus_power (i : Nat) (o n : RecordStatus) (s : State) :
    (writeStatus i o n s).power = s.power := rfl
@[simp] theorem writeStatus_bus (i : Nat) (o n : RecordStatus) (s : State) : (writeStatus i o n s).bus = s.bus := rfl
@[simp] theorem writeStatus_path (i : Nat) (o n : RecordStatus) (s : State) :
    (writeStatus i o n s).path = s.path := rfl
@[simp] theorem writeStatus_part (i : Nat) (o n : RecordStatus) (s : State) :
    (writeStatus i o n s).part = s.part := rfl
@[simp] theorem writeStatus_plan (i : Nat) (o n : RecordStatus) (s : State) :
    (writeStatus i o n s).plan = s.plan := rfl
@[simp] theorem writeStatus_lineup (i : Nat) (o n : RecordStatus) (s : State) :
    (writeStatus i o n s).lineup = s.lineup := rfl
@[simp] theorem writeStatus_sched (i : Nat) (o n : RecordStatus) (s : State) :
    (writeStatus i o n s).sched = s.sched := rfl
@[simp] theorem writeStatus_tracker (i : Nat) (o n : RecordStatus) (s : State) :
    (writeStatus i o n s).tracker = s.tracker := rfl
@[simp] theorem writeStatus_receiver (i : Nat) (o n : RecordStatus) (s : State) :
    (writeStatus i o n s).receiver = s.receiver := rfl
@[simp] theorem writeStatus_plant (i : Nat) (o n : RecordStatus) (s : State) :
    (writeStatus i o n s).plant = s.plant := rfl
@[simp] theorem writeStatus_clock (i : Nat) (o n : RecordStatus) (s : State) :
    (writeStatus i o n s).clock = s.clock := rfl
@[simp] theorem writeStatus_meter (i : Nat) (o n : RecordStatus) (s : State) :
    (writeStatus i o n s).meter = s.meter := rfl
@[simp] theorem writeStatus_slots (i : Nat) (o n : RecordStatus) (s : State) :
    (writeStatus i o n s).slots = s.slots := rfl
@[simp] theorem writeStatus_close (i : Nat) (o n : RecordStatus) (s : State) :
    (writeStatus i o n s).close = s.close := rfl
@[simp] theorem writeStatus_writer (i : Nat) (o n : RecordStatus) (s : State) :
    (writeStatus i o n s).writer = s.writer := rfl
@[simp] theorem writeStatus_flags (i : Nat) (o n : RecordStatus) (s : State) :
    (writeStatus i o n s).flags = s.flags := rfl
@[simp] theorem writeStatus_time (i : Nat) (o n : RecordStatus) (s : State) :
    (writeStatus i o n s).time = s.time := rfl
@[simp] theorem writeStatus_freeCount (i : Nat) (o n : RecordStatus) (s : State) :
    (writeStatus i o n s).freeCount = s.freeCount := rfl

@[simp] theorem writeRequestStatus_pending (n c : Nat) (e : RequestError) (s : State) :
    (writeRequestStatus n c e s).pending = s.pending := rfl
@[simp] theorem writeRequestStatus_power (n c : Nat) (e : RequestError) (s : State) :
    (writeRequestStatus n c e s).power = s.power := rfl
@[simp] theorem writeRequestStatus_bus (n c : Nat) (e : RequestError) (s : State) :
    (writeRequestStatus n c e s).bus = s.bus := rfl
@[simp] theorem writeRequestStatus_path (n c : Nat) (e : RequestError) (s : State) :
    (writeRequestStatus n c e s).path = s.path := rfl
@[simp] theorem writeRequestStatus_part (n c : Nat) (e : RequestError) (s : State) :
    (writeRequestStatus n c e s).part = s.part := rfl
@[simp] theorem writeRequestStatus_plan (n c : Nat) (e : RequestError) (s : State) :
    (writeRequestStatus n c e s).plan = s.plan := rfl
@[simp] theorem writeRequestStatus_lineup (n c : Nat) (e : RequestError) (s : State) :
    (writeRequestStatus n c e s).lineup = s.lineup := rfl
@[simp] theorem writeRequestStatus_order (n c : Nat) (e : RequestError) (s : State) :
    (writeRequestStatus n c e s).order = s.order := rfl
@[simp] theorem writeRequestStatus_sched (n c : Nat) (e : RequestError) (s : State) :
    (writeRequestStatus n c e s).sched = s.sched := rfl
@[simp] theorem writeRequestStatus_tracker (n c : Nat) (e : RequestError) (s : State) :
    (writeRequestStatus n c e s).tracker = s.tracker := rfl
@[simp] theorem writeRequestStatus_receiver (n c : Nat) (e : RequestError) (s : State) :
    (writeRequestStatus n c e s).receiver = s.receiver := rfl
@[simp] theorem writeRequestStatus_plant (n c : Nat) (e : RequestError) (s : State) :
    (writeRequestStatus n c e s).plant = s.plant := rfl
@[simp] theorem writeRequestStatus_clock (n c : Nat) (e : RequestError) (s : State) :
    (writeRequestStatus n c e s).clock = s.clock := rfl
@[simp] theorem writeRequestStatus_meter (n c : Nat) (e : RequestError) (s : State) :
    (writeRequestStatus n c e s).meter = s.meter := rfl
@[simp] theorem writeRequestStatus_slots (n c : Nat) (e : RequestError) (s : State) :
    (writeRequestStatus n c e s).slots = s.slots := rfl
@[simp] theorem writeRequestStatus_close (n c : Nat) (e : RequestError) (s : State) :
    (writeRequestStatus n c e s).close = s.close := rfl
@[simp] theorem writeRequestStatus_writer (n c : Nat) (e : RequestError) (s : State) :
    (writeRequestStatus n c e s).writer = s.writer := rfl
@[simp] theorem writeRequestStatus_flags (n c : Nat) (e : RequestError) (s : State) :
    (writeRequestStatus n c e s).flags = s.flags := rfl
@[simp] theorem writeRequestStatus_time (n c : Nat) (e : RequestError) (s : State) :
    (writeRequestStatus n c e s).time = s.time := rfl
@[simp] theorem writeRequestStatus_freeCount (n c : Nat) (e : RequestError) (s : State) :
    (writeRequestStatus n c e s).freeCount = s.freeCount := rfl

@[simp] theorem endFailed_pending (n : Nat) (e : RequestError) (s : State) :
    (endFailed n e s).pending = s.pending := rfl
@[simp] theorem endFailed_power (n : Nat) (e : RequestError) (s : State) : (endFailed n e s).power = s.power := rfl
@[simp] theorem endFailed_bus (n : Nat) (e : RequestError) (s : State) : (endFailed n e s).bus = s.bus := rfl
@[simp] theorem endFailed_path (n : Nat) (e : RequestError) (s : State) : (endFailed n e s).path = s.path := rfl
@[simp] theorem endFailed_plan (n : Nat) (e : RequestError) (s : State) : (endFailed n e s).plan = s.plan := rfl
@[simp] theorem endFailed_lineup (n : Nat) (e : RequestError) (s : State) : (endFailed n e s).lineup = s.lineup := rfl
@[simp] theorem endFailed_order (n : Nat) (e : RequestError) (s : State) : (endFailed n e s).order = s.order := rfl
@[simp] theorem endFailed_sched (n : Nat) (e : RequestError) (s : State) : (endFailed n e s).sched = s.sched := rfl
@[simp] theorem endFailed_tracker (n : Nat) (e : RequestError) (s : State) :
    (endFailed n e s).tracker = s.tracker := rfl
@[simp] theorem endFailed_receiver (n : Nat) (e : RequestError) (s : State) :
    (endFailed n e s).receiver = s.receiver := rfl
@[simp] theorem endFailed_plant (n : Nat) (e : RequestError) (s : State) : (endFailed n e s).plant = s.plant := rfl
@[simp] theorem endFailed_clock (n : Nat) (e : RequestError) (s : State) : (endFailed n e s).clock = s.clock := rfl
@[simp] theorem endFailed_meter (n : Nat) (e : RequestError) (s : State) : (endFailed n e s).meter = s.meter := rfl
@[simp] theorem endFailed_slots (n : Nat) (e : RequestError) (s : State) : (endFailed n e s).slots = s.slots := rfl
@[simp] theorem endFailed_close (n : Nat) (e : RequestError) (s : State) : (endFailed n e s).close = s.close := rfl
@[simp] theorem endFailed_writer (n : Nat) (e : RequestError) (s : State) : (endFailed n e s).writer = s.writer := rfl
@[simp] theorem endFailed_flags (n : Nat) (e : RequestError) (s : State) : (endFailed n e s).flags = s.flags := rfl
@[simp] theorem endFailed_time (n : Nat) (e : RequestError) (s : State) : (endFailed n e s).time = s.time := rfl
@[simp] theorem endFailed_freeCount (n : Nat) (e : RequestError) (s : State) :
    (endFailed n e s).freeCount = s.freeCount := rfl

@[simp] theorem endDone_pending (n r : Nat) (s : State) : (endDone n r s).pending = s.pending := rfl
@[simp] theorem endDone_power (n r : Nat) (s : State) : (endDone n r s).power = s.power := rfl
@[simp] theorem endDone_bus (n r : Nat) (s : State) : (endDone n r s).bus = s.bus := rfl
@[simp] theorem endDone_path (n r : Nat) (s : State) : (endDone n r s).path = s.path := rfl
@[simp] theorem endDone_plan (n r : Nat) (s : State) : (endDone n r s).plan = s.plan := rfl
@[simp] theorem endDone_lineup (n r : Nat) (s : State) : (endDone n r s).lineup = s.lineup := rfl
@[simp] theorem endDone_order (n r : Nat) (s : State) : (endDone n r s).order = s.order := rfl
@[simp] theorem endDone_sched (n r : Nat) (s : State) : (endDone n r s).sched = s.sched := rfl
@[simp] theorem endDone_tracker (n r : Nat) (s : State) : (endDone n r s).tracker = s.tracker := rfl
@[simp] theorem endDone_receiver (n r : Nat) (s : State) : (endDone n r s).receiver = s.receiver := rfl
@[simp] theorem endDone_plant (n r : Nat) (s : State) : (endDone n r s).plant = s.plant := rfl
@[simp] theorem endDone_clock (n r : Nat) (s : State) : (endDone n r s).clock = s.clock := rfl
@[simp] theorem endDone_meter (n r : Nat) (s : State) : (endDone n r s).meter = s.meter := rfl
@[simp] theorem endDone_slots (n r : Nat) (s : State) : (endDone n r s).slots = s.slots := rfl
@[simp] theorem endDone_close (n r : Nat) (s : State) : (endDone n r s).close = s.close := rfl
@[simp] theorem endDone_writer (n r : Nat) (s : State) : (endDone n r s).writer = s.writer := rfl
@[simp] theorem endDone_flags (n r : Nat) (s : State) : (endDone n r s).flags = s.flags := rfl
@[simp] theorem endDone_time (n r : Nat) (s : State) : (endDone n r s).time = s.time := rfl
@[simp] theorem endDone_freeCount (n r : Nat) (s : State) : (endDone n r s).freeCount = s.freeCount := rfl

@[simp] theorem setDirect_pending (e n : Nat) (s : State) : (setDirect e n s).pending = s.pending := rfl
@[simp] theorem setDirect_power (e n : Nat) (s : State) : (setDirect e n s).power = s.power := rfl
@[simp] theorem setDirect_bus (e n : Nat) (s : State) : (setDirect e n s).bus = s.bus := rfl
@[simp] theorem setDirect_path (e n : Nat) (s : State) : (setDirect e n s).path = s.path := rfl
@[simp] theorem setDirect_part (e n : Nat) (s : State) : (setDirect e n s).part = s.part := rfl
@[simp] theorem setDirect_plan (e n : Nat) (s : State) : (setDirect e n s).plan = s.plan := rfl
@[simp] theorem setDirect_lineup (e n : Nat) (s : State) : (setDirect e n s).lineup = s.lineup := rfl
@[simp] theorem setDirect_sched (e n : Nat) (s : State) : (setDirect e n s).sched = s.sched := rfl
@[simp] theorem setDirect_tracker (e n : Nat) (s : State) : (setDirect e n s).tracker = s.tracker := rfl
@[simp] theorem setDirect_receiver (e n : Nat) (s : State) : (setDirect e n s).receiver = s.receiver := rfl
@[simp] theorem setDirect_plant (e n : Nat) (s : State) : (setDirect e n s).plant = s.plant := rfl
@[simp] theorem setDirect_clock (e n : Nat) (s : State) : (setDirect e n s).clock = s.clock := rfl
@[simp] theorem setDirect_meter (e n : Nat) (s : State) : (setDirect e n s).meter = s.meter := rfl
@[simp] theorem setDirect_slots (e n : Nat) (s : State) : (setDirect e n s).slots = s.slots := rfl
@[simp] theorem setDirect_close (e n : Nat) (s : State) : (setDirect e n s).close = s.close := rfl
@[simp] theorem setDirect_writer (e n : Nat) (s : State) : (setDirect e n s).writer = s.writer := rfl
@[simp] theorem setDirect_flags (e n : Nat) (s : State) : (setDirect e n s).flags = s.flags := rfl
@[simp] theorem setDirect_time (e n : Nat) (s : State) : (setDirect e n s).time = s.time := rfl
@[simp] theorem setDirect_freeCount (e n : Nat) (s : State) : (setDirect e n s).freeCount = s.freeCount := rfl

@[simp] theorem enterDirectory_pending (t p i : Nat) (s : State) : (enterDirectory t p i s).pending = s.pending := rfl
@[simp] theorem enterDirectory_mem (t p i : Nat) (s : State) : (enterDirectory t p i s).mem = s.mem := rfl
@[simp] theorem enterDirectory_power (t p i : Nat) (s : State) : (enterDirectory t p i s).power = s.power := rfl
@[simp] theorem enterDirectory_port (t p i : Nat) (s : State) : (enterDirectory t p i s).port = s.port := rfl
@[simp] theorem enterDirectory_bus (t p i : Nat) (s : State) : (enterDirectory t p i s).bus = s.bus := rfl
@[simp] theorem enterDirectory_path (t p i : Nat) (s : State) : (enterDirectory t p i s).path = s.path := rfl
@[simp] theorem enterDirectory_part (t p i : Nat) (s : State) : (enterDirectory t p i s).part = s.part := rfl
@[simp] theorem enterDirectory_plan (t p i : Nat) (s : State) : (enterDirectory t p i s).plan = s.plan := rfl
@[simp] theorem enterDirectory_lineup (t p i : Nat) (s : State) : (enterDirectory t p i s).lineup = s.lineup := rfl
@[simp] theorem enterDirectory_sched (t p i : Nat) (s : State) : (enterDirectory t p i s).sched = s.sched := rfl
@[simp] theorem enterDirectory_tracker (t p i : Nat) (s : State) : (enterDirectory t p i s).tracker = s.tracker := rfl
@[simp] theorem enterDirectory_receiver (t p i : Nat) (s : State) :
    (enterDirectory t p i s).receiver = s.receiver := rfl
@[simp] theorem enterDirectory_plant (t p i : Nat) (s : State) : (enterDirectory t p i s).plant = s.plant := rfl
@[simp] theorem enterDirectory_clock (t p i : Nat) (s : State) : (enterDirectory t p i s).clock = s.clock := rfl
@[simp] theorem enterDirectory_meter (t p i : Nat) (s : State) : (enterDirectory t p i s).meter = s.meter := rfl
@[simp] theorem enterDirectory_slots (t p i : Nat) (s : State) : (enterDirectory t p i s).slots = s.slots := rfl
@[simp] theorem enterDirectory_close (t p i : Nat) (s : State) : (enterDirectory t p i s).close = s.close := rfl
@[simp] theorem enterDirectory_writer (t p i : Nat) (s : State) : (enterDirectory t p i s).writer = s.writer := rfl
@[simp] theorem enterDirectory_flags (t p i : Nat) (s : State) : (enterDirectory t p i s).flags = s.flags := rfl
@[simp] theorem enterDirectory_time (t p i : Nat) (s : State) : (enterDirectory t p i s).time = s.time := rfl
@[simp] theorem enterDirectory_freeCount (t p i : Nat) (s : State) :
    (enterDirectory t p i s).freeCount = s.freeCount := rfl

@[simp] theorem leaveDirectory_pending (t p : Nat) (s : State) : (leaveDirectory t p s).pending = s.pending := rfl
@[simp] theorem leaveDirectory_mem (t p : Nat) (s : State) : (leaveDirectory t p s).mem = s.mem := rfl
@[simp] theorem leaveDirectory_power (t p : Nat) (s : State) : (leaveDirectory t p s).power = s.power := rfl
@[simp] theorem leaveDirectory_port (t p : Nat) (s : State) : (leaveDirectory t p s).port = s.port := rfl
@[simp] theorem leaveDirectory_bus (t p : Nat) (s : State) : (leaveDirectory t p s).bus = s.bus := rfl
@[simp] theorem leaveDirectory_path (t p : Nat) (s : State) : (leaveDirectory t p s).path = s.path := rfl
@[simp] theorem leaveDirectory_part (t p : Nat) (s : State) : (leaveDirectory t p s).part = s.part := rfl
@[simp] theorem leaveDirectory_plan (t p : Nat) (s : State) : (leaveDirectory t p s).plan = s.plan := rfl
@[simp] theorem leaveDirectory_lineup (t p : Nat) (s : State) : (leaveDirectory t p s).lineup = s.lineup := rfl
@[simp] theorem leaveDirectory_sched (t p : Nat) (s : State) : (leaveDirectory t p s).sched = s.sched := rfl
@[simp] theorem leaveDirectory_tracker (t p : Nat) (s : State) : (leaveDirectory t p s).tracker = s.tracker := rfl
@[simp] theorem leaveDirectory_receiver (t p : Nat) (s : State) : (leaveDirectory t p s).receiver = s.receiver := rfl
@[simp] theorem leaveDirectory_plant (t p : Nat) (s : State) : (leaveDirectory t p s).plant = s.plant := rfl
@[simp] theorem leaveDirectory_clock (t p : Nat) (s : State) : (leaveDirectory t p s).clock = s.clock := rfl
@[simp] theorem leaveDirectory_meter (t p : Nat) (s : State) : (leaveDirectory t p s).meter = s.meter := rfl
@[simp] theorem leaveDirectory_slots (t p : Nat) (s : State) : (leaveDirectory t p s).slots = s.slots := rfl
@[simp] theorem leaveDirectory_close (t p : Nat) (s : State) : (leaveDirectory t p s).close = s.close := rfl
@[simp] theorem leaveDirectory_writer (t p : Nat) (s : State) : (leaveDirectory t p s).writer = s.writer := rfl
@[simp] theorem leaveDirectory_flags (t p : Nat) (s : State) : (leaveDirectory t p s).flags = s.flags := rfl
@[simp] theorem leaveDirectory_time (t p : Nat) (s : State) : (leaveDirectory t p s).time = s.time := rfl
@[simp] theorem leaveDirectory_freeCount (t p : Nat) (s : State) :
    (leaveDirectory t p s).freeCount = s.freeCount := rfl

@[simp] theorem removeRetire_pending (t p : Nat) (s : State) : (removeRetire t p s).pending = s.pending := rfl
@[simp] theorem removeRetire_mem (t p : Nat) (s : State) : (removeRetire t p s).mem = s.mem := rfl
@[simp] theorem removeRetire_power (t p : Nat) (s : State) : (removeRetire t p s).power = s.power := rfl
@[simp] theorem removeRetire_port (t p : Nat) (s : State) : (removeRetire t p s).port = s.port := rfl
@[simp] theorem removeRetire_bus (t p : Nat) (s : State) : (removeRetire t p s).bus = s.bus := rfl
@[simp] theorem removeRetire_path (t p : Nat) (s : State) : (removeRetire t p s).path = s.path := rfl
@[simp] theorem removeRetire_part (t p : Nat) (s : State) : (removeRetire t p s).part = s.part := rfl
@[simp] theorem removeRetire_plan (t p : Nat) (s : State) : (removeRetire t p s).plan = s.plan := rfl
@[simp] theorem removeRetire_lineup (t p : Nat) (s : State) : (removeRetire t p s).lineup = s.lineup := rfl
@[simp] theorem removeRetire_sched (t p : Nat) (s : State) : (removeRetire t p s).sched = s.sched := rfl
@[simp] theorem removeRetire_tracker (t p : Nat) (s : State) : (removeRetire t p s).tracker = s.tracker := rfl
@[simp] theorem removeRetire_receiver (t p : Nat) (s : State) : (removeRetire t p s).receiver = s.receiver := rfl
@[simp] theorem removeRetire_plant (t p : Nat) (s : State) : (removeRetire t p s).plant = s.plant := rfl
@[simp] theorem removeRetire_clock (t p : Nat) (s : State) : (removeRetire t p s).clock = s.clock := rfl
@[simp] theorem removeRetire_meter (t p : Nat) (s : State) : (removeRetire t p s).meter = s.meter := rfl
@[simp] theorem removeRetire_slots (t p : Nat) (s : State) : (removeRetire t p s).slots = s.slots := rfl
@[simp] theorem removeRetire_close (t p : Nat) (s : State) : (removeRetire t p s).close = s.close := rfl
@[simp] theorem removeRetire_writer (t p : Nat) (s : State) : (removeRetire t p s).writer = s.writer := rfl
@[simp] theorem removeRetire_flags (t p : Nat) (s : State) : (removeRetire t p s).flags = s.flags := rfl
@[simp] theorem removeRetire_time (t p : Nat) (s : State) : (removeRetire t p s).time = s.time := rfl
@[simp] theorem removeRetire_freeCount (t p : Nat) (s : State) : (removeRetire t p s).freeCount = s.freeCount := rfl

@[simp] theorem joinRetire_pending (t p i : Nat) (s : State) : (joinRetire t p i s).pending = s.pending := rfl
@[simp] theorem joinRetire_mem (t p i : Nat) (s : State) : (joinRetire t p i s).mem = s.mem := rfl
@[simp] theorem joinRetire_power (t p i : Nat) (s : State) : (joinRetire t p i s).power = s.power := rfl
@[simp] theorem joinRetire_port (t p i : Nat) (s : State) : (joinRetire t p i s).port = s.port := rfl
@[simp] theorem joinRetire_bus (t p i : Nat) (s : State) : (joinRetire t p i s).bus = s.bus := rfl
@[simp] theorem joinRetire_path (t p i : Nat) (s : State) : (joinRetire t p i s).path = s.path := rfl
@[simp] theorem joinRetire_part (t p i : Nat) (s : State) : (joinRetire t p i s).part = s.part := rfl
@[simp] theorem joinRetire_plan (t p i : Nat) (s : State) : (joinRetire t p i s).plan = s.plan := rfl
@[simp] theorem joinRetire_lineup (t p i : Nat) (s : State) : (joinRetire t p i s).lineup = s.lineup := rfl
@[simp] theorem joinRetire_sched (t p i : Nat) (s : State) : (joinRetire t p i s).sched = s.sched := rfl
@[simp] theorem joinRetire_tracker (t p i : Nat) (s : State) : (joinRetire t p i s).tracker = s.tracker := rfl
@[simp] theorem joinRetire_receiver (t p i : Nat) (s : State) : (joinRetire t p i s).receiver = s.receiver := rfl
@[simp] theorem joinRetire_plant (t p i : Nat) (s : State) : (joinRetire t p i s).plant = s.plant := rfl
@[simp] theorem joinRetire_clock (t p i : Nat) (s : State) : (joinRetire t p i s).clock = s.clock := rfl
@[simp] theorem joinRetire_meter (t p i : Nat) (s : State) : (joinRetire t p i s).meter = s.meter := rfl
@[simp] theorem joinRetire_slots (t p i : Nat) (s : State) : (joinRetire t p i s).slots = s.slots := rfl
@[simp] theorem joinRetire_close (t p i : Nat) (s : State) : (joinRetire t p i s).close = s.close := rfl
@[simp] theorem joinRetire_writer (t p i : Nat) (s : State) : (joinRetire t p i s).writer = s.writer := rfl
@[simp] theorem joinRetire_flags (t p i : Nat) (s : State) : (joinRetire t p i s).flags = s.flags := rfl
@[simp] theorem joinRetire_time (t p i : Nat) (s : State) : (joinRetire t p i s).time = s.time := rfl
@[simp] theorem joinRetire_freeCount (t p i : Nat) (s : State) : (joinRetire t p i s).freeCount = s.freeCount := rfl

@[simp] theorem supersede_pending (i : Nat) (s : State) : (supersede i s).pending = s.pending := rfl
@[simp] theorem supersede_mem (i : Nat) (s : State) : (supersede i s).mem = s.mem := rfl
@[simp] theorem supersede_power (i : Nat) (s : State) : (supersede i s).power = s.power := rfl
@[simp] theorem supersede_port (i : Nat) (s : State) : (supersede i s).port = s.port := rfl
@[simp] theorem supersede_bus (i : Nat) (s : State) : (supersede i s).bus = s.bus := rfl
@[simp] theorem supersede_path (i : Nat) (s : State) : (supersede i s).path = s.path := rfl
@[simp] theorem supersede_part (i : Nat) (s : State) : (supersede i s).part = s.part := rfl
@[simp] theorem supersede_plan (i : Nat) (s : State) : (supersede i s).plan = s.plan := rfl
@[simp] theorem supersede_lineup (i : Nat) (s : State) : (supersede i s).lineup = s.lineup := rfl
@[simp] theorem supersede_order (i : Nat) (s : State) : (supersede i s).order = s.order := rfl
@[simp] theorem supersede_sched (i : Nat) (s : State) : (supersede i s).sched = s.sched := rfl
@[simp] theorem supersede_receiver (i : Nat) (s : State) : (supersede i s).receiver = s.receiver := rfl
@[simp] theorem supersede_plant (i : Nat) (s : State) : (supersede i s).plant = s.plant := rfl
@[simp] theorem supersede_clock (i : Nat) (s : State) : (supersede i s).clock = s.clock := rfl
@[simp] theorem supersede_meter (i : Nat) (s : State) : (supersede i s).meter = s.meter := rfl
@[simp] theorem supersede_slots (i : Nat) (s : State) : (supersede i s).slots = s.slots := rfl
@[simp] theorem supersede_close (i : Nat) (s : State) : (supersede i s).close = s.close := rfl
@[simp] theorem supersede_writer (i : Nat) (s : State) : (supersede i s).writer = s.writer := rfl
@[simp] theorem supersede_flags (i : Nat) (s : State) : (supersede i s).flags = s.flags := rfl
@[simp] theorem supersede_time (i : Nat) (s : State) : (supersede i s).time = s.time := rfl
@[simp] theorem supersede_freeCount (i : Nat) (s : State) : (supersede i s).freeCount = s.freeCount := rfl

@[simp] theorem freeEntry_pending (t p : Nat) (s : State) : (freeEntry t p s).pending = s.pending := rfl
@[simp] theorem freeEntry_mem (t p : Nat) (s : State) : (freeEntry t p s).mem = s.mem := rfl
@[simp] theorem freeEntry_power (t p : Nat) (s : State) : (freeEntry t p s).power = s.power := rfl
@[simp] theorem freeEntry_port (t p : Nat) (s : State) : (freeEntry t p s).port = s.port := rfl
@[simp] theorem freeEntry_bus (t p : Nat) (s : State) : (freeEntry t p s).bus = s.bus := rfl
@[simp] theorem freeEntry_path (t p : Nat) (s : State) : (freeEntry t p s).path = s.path := rfl
@[simp] theorem freeEntry_part (t p : Nat) (s : State) : (freeEntry t p s).part = s.part := rfl
@[simp] theorem freeEntry_plan (t p : Nat) (s : State) : (freeEntry t p s).plan = s.plan := rfl
@[simp] theorem freeEntry_lineup (t p : Nat) (s : State) : (freeEntry t p s).lineup = s.lineup := rfl
@[simp] theorem freeEntry_order (t p : Nat) (s : State) : (freeEntry t p s).order = s.order := rfl
@[simp] theorem freeEntry_sched (t p : Nat) (s : State) : (freeEntry t p s).sched = s.sched := rfl
@[simp] theorem freeEntry_receiver (t p : Nat) (s : State) : (freeEntry t p s).receiver = s.receiver := rfl
@[simp] theorem freeEntry_plant (t p : Nat) (s : State) : (freeEntry t p s).plant = s.plant := rfl
@[simp] theorem freeEntry_clock (t p : Nat) (s : State) : (freeEntry t p s).clock = s.clock := rfl
@[simp] theorem freeEntry_meter (t p : Nat) (s : State) : (freeEntry t p s).meter = s.meter := rfl
@[simp] theorem freeEntry_slots (t p : Nat) (s : State) : (freeEntry t p s).slots = s.slots := rfl
@[simp] theorem freeEntry_close (t p : Nat) (s : State) : (freeEntry t p s).close = s.close := rfl
@[simp] theorem freeEntry_writer (t p : Nat) (s : State) : (freeEntry t p s).writer = s.writer := rfl
@[simp] theorem freeEntry_flags (t p : Nat) (s : State) : (freeEntry t p s).flags = s.flags := rfl
@[simp] theorem freeEntry_time (t p : Nat) (s : State) : (freeEntry t p s).time = s.time := rfl
@[simp] theorem freeEntry_freeCount (t p : Nat) (s : State) : (freeEntry t p s).freeCount = s.freeCount := rfl

@[simp] theorem updateEntry_pending (t p : Nat) (f : PendingAck → PendingAck) (s : State) :
    (updateEntry t p f s).pending = s.pending := rfl
@[simp] theorem updateEntry_mem (t p : Nat) (f : PendingAck → PendingAck) (s : State) :
    (updateEntry t p f s).mem = s.mem := rfl
@[simp] theorem updateEntry_power (t p : Nat) (f : PendingAck → PendingAck) (s : State) :
    (updateEntry t p f s).power = s.power := rfl
@[simp] theorem updateEntry_port (t p : Nat) (f : PendingAck → PendingAck) (s : State) :
    (updateEntry t p f s).port = s.port := rfl
@[simp] theorem updateEntry_bus (t p : Nat) (f : PendingAck → PendingAck) (s : State) :
    (updateEntry t p f s).bus = s.bus := rfl
@[simp] theorem updateEntry_path (t p : Nat) (f : PendingAck → PendingAck) (s : State) :
    (updateEntry t p f s).path = s.path := rfl
@[simp] theorem updateEntry_part (t p : Nat) (f : PendingAck → PendingAck) (s : State) :
    (updateEntry t p f s).part = s.part := rfl
@[simp] theorem updateEntry_plan (t p : Nat) (f : PendingAck → PendingAck) (s : State) :
    (updateEntry t p f s).plan = s.plan := rfl
@[simp] theorem updateEntry_lineup (t p : Nat) (f : PendingAck → PendingAck) (s : State) :
    (updateEntry t p f s).lineup = s.lineup := rfl
@[simp] theorem updateEntry_order (t p : Nat) (f : PendingAck → PendingAck) (s : State) :
    (updateEntry t p f s).order = s.order := rfl
@[simp] theorem updateEntry_sched (t p : Nat) (f : PendingAck → PendingAck) (s : State) :
    (updateEntry t p f s).sched = s.sched := rfl
@[simp] theorem updateEntry_receiver (t p : Nat) (f : PendingAck → PendingAck) (s : State) :
    (updateEntry t p f s).receiver = s.receiver := rfl
@[simp] theorem updateEntry_plant (t p : Nat) (f : PendingAck → PendingAck) (s : State) :
    (updateEntry t p f s).plant = s.plant := rfl
@[simp] theorem updateEntry_clock (t p : Nat) (f : PendingAck → PendingAck) (s : State) :
    (updateEntry t p f s).clock = s.clock := rfl
@[simp] theorem updateEntry_meter (t p : Nat) (f : PendingAck → PendingAck) (s : State) :
    (updateEntry t p f s).meter = s.meter := rfl
@[simp] theorem updateEntry_slots (t p : Nat) (f : PendingAck → PendingAck) (s : State) :
    (updateEntry t p f s).slots = s.slots := rfl
@[simp] theorem updateEntry_close (t p : Nat) (f : PendingAck → PendingAck) (s : State) :
    (updateEntry t p f s).close = s.close := rfl
@[simp] theorem updateEntry_writer (t p : Nat) (f : PendingAck → PendingAck) (s : State) :
    (updateEntry t p f s).writer = s.writer := rfl
@[simp] theorem updateEntry_flags (t p : Nat) (f : PendingAck → PendingAck) (s : State) :
    (updateEntry t p f s).flags = s.flags := rfl
@[simp] theorem updateEntry_time (t p : Nat) (f : PendingAck → PendingAck) (s : State) :
    (updateEntry t p f s).time = s.time := rfl
@[simp] theorem updateEntry_freeCount (t p : Nat) (f : PendingAck → PendingAck) (s : State) :
    (updateEntry t p f s).freeCount = s.freeCount := rfl

@[simp] theorem reach_pending (t : Nat) (s : State) : (reach t s).pending = s.pending := rfl
@[simp] theorem reach_mem (t : Nat) (s : State) : (reach t s).mem = s.mem := rfl
@[simp] theorem reach_power (t : Nat) (s : State) : (reach t s).power = s.power := rfl
@[simp] theorem reach_port (t : Nat) (s : State) : (reach t s).port = s.port := rfl
@[simp] theorem reach_bus (t : Nat) (s : State) : (reach t s).bus = s.bus := rfl
@[simp] theorem reach_path (t : Nat) (s : State) : (reach t s).path = s.path := rfl
@[simp] theorem reach_part (t : Nat) (s : State) : (reach t s).part = s.part := rfl
@[simp] theorem reach_plan (t : Nat) (s : State) : (reach t s).plan = s.plan := rfl
@[simp] theorem reach_lineup (t : Nat) (s : State) : (reach t s).lineup = s.lineup := rfl
@[simp] theorem reach_order (t : Nat) (s : State) : (reach t s).order = s.order := rfl
@[simp] theorem reach_sched (t : Nat) (s : State) : (reach t s).sched = s.sched := rfl
@[simp] theorem reach_tracker (t : Nat) (s : State) : (reach t s).tracker = s.tracker := rfl
@[simp] theorem reach_receiver (t : Nat) (s : State) : (reach t s).receiver = s.receiver := rfl
@[simp] theorem reach_plant (t : Nat) (s : State) : (reach t s).plant = s.plant := rfl
@[simp] theorem reach_clock (t : Nat) (s : State) : (reach t s).clock = s.clock := rfl
@[simp] theorem reach_meter (t : Nat) (s : State) : (reach t s).meter = s.meter := rfl
@[simp] theorem reach_slots (t : Nat) (s : State) : (reach t s).slots = s.slots := rfl
@[simp] theorem reach_close (t : Nat) (s : State) : (reach t s).close = s.close := rfl
@[simp] theorem reach_writer (t : Nat) (s : State) : (reach t s).writer = s.writer := rfl
@[simp] theorem reach_flags (t : Nat) (s : State) : (reach t s).flags = s.flags := rfl
@[simp] theorem reach_freeCount (t : Nat) (s : State) : (reach t s).freeCount = s.freeCount := rfl

@[simp] theorem startPlanCheck_pending (w : Word) (s : State) : (startPlanCheck w s).pending = s.pending := rfl
@[simp] theorem startPlanCheck_mem (w : Word) (s : State) : (startPlanCheck w s).mem = s.mem := rfl
@[simp] theorem startPlanCheck_power (w : Word) (s : State) : (startPlanCheck w s).power = s.power := rfl
@[simp] theorem startPlanCheck_port (w : Word) (s : State) : (startPlanCheck w s).port = s.port := rfl
@[simp] theorem startPlanCheck_bus (w : Word) (s : State) : (startPlanCheck w s).bus = s.bus := rfl
@[simp] theorem startPlanCheck_path (w : Word) (s : State) : (startPlanCheck w s).path = s.path := rfl
@[simp] theorem startPlanCheck_part (w : Word) (s : State) : (startPlanCheck w s).part = s.part := rfl
@[simp] theorem startPlanCheck_lineup (w : Word) (s : State) : (startPlanCheck w s).lineup = s.lineup := rfl
@[simp] theorem startPlanCheck_order (w : Word) (s : State) : (startPlanCheck w s).order = s.order := rfl
@[simp] theorem startPlanCheck_sched (w : Word) (s : State) : (startPlanCheck w s).sched = s.sched := rfl
@[simp] theorem startPlanCheck_tracker (w : Word) (s : State) : (startPlanCheck w s).tracker = s.tracker := rfl
@[simp] theorem startPlanCheck_receiver (w : Word) (s : State) : (startPlanCheck w s).receiver = s.receiver := rfl
@[simp] theorem startPlanCheck_plant (w : Word) (s : State) : (startPlanCheck w s).plant = s.plant := rfl
@[simp] theorem startPlanCheck_clock (w : Word) (s : State) : (startPlanCheck w s).clock = s.clock := rfl
@[simp] theorem startPlanCheck_meter (w : Word) (s : State) : (startPlanCheck w s).meter = s.meter := rfl
@[simp] theorem startPlanCheck_slots (w : Word) (s : State) : (startPlanCheck w s).slots = s.slots := rfl
@[simp] theorem startPlanCheck_close (w : Word) (s : State) : (startPlanCheck w s).close = s.close := rfl
@[simp] theorem startPlanCheck_writer (w : Word) (s : State) : (startPlanCheck w s).writer = s.writer := rfl
@[simp] theorem startPlanCheck_flags (w : Word) (s : State) : (startPlanCheck w s).flags = s.flags := rfl
@[simp] theorem startPlanCheck_time (w : Word) (s : State) : (startPlanCheck w s).time = s.time := rfl
@[simp] theorem startPlanCheck_freeCount (w : Word) (s : State) : (startPlanCheck w s).freeCount = s.freeCount := rfl

@[simp] theorem startCommitCheck_pending (w : Word) (s : State) : (startCommitCheck w s).pending = s.pending := rfl
@[simp] theorem startCommitCheck_mem (w : Word) (s : State) : (startCommitCheck w s).mem = s.mem := rfl
@[simp] theorem startCommitCheck_power (w : Word) (s : State) : (startCommitCheck w s).power = s.power := rfl
@[simp] theorem startCommitCheck_port (w : Word) (s : State) : (startCommitCheck w s).port = s.port := rfl
@[simp] theorem startCommitCheck_bus (w : Word) (s : State) : (startCommitCheck w s).bus = s.bus := rfl
@[simp] theorem startCommitCheck_path (w : Word) (s : State) : (startCommitCheck w s).path = s.path := rfl
@[simp] theorem startCommitCheck_part (w : Word) (s : State) : (startCommitCheck w s).part = s.part := rfl
@[simp] theorem startCommitCheck_plan (w : Word) (s : State) : (startCommitCheck w s).plan = s.plan := rfl
@[simp] theorem startCommitCheck_order (w : Word) (s : State) : (startCommitCheck w s).order = s.order := rfl
@[simp] theorem startCommitCheck_sched (w : Word) (s : State) : (startCommitCheck w s).sched = s.sched := rfl
@[simp] theorem startCommitCheck_tracker (w : Word) (s : State) : (startCommitCheck w s).tracker = s.tracker := rfl
@[simp] theorem startCommitCheck_receiver (w : Word) (s : State) : (startCommitCheck w s).receiver = s.receiver := rfl
@[simp] theorem startCommitCheck_plant (w : Word) (s : State) : (startCommitCheck w s).plant = s.plant := rfl
@[simp] theorem startCommitCheck_clock (w : Word) (s : State) : (startCommitCheck w s).clock = s.clock := rfl
@[simp] theorem startCommitCheck_meter (w : Word) (s : State) : (startCommitCheck w s).meter = s.meter := rfl
@[simp] theorem startCommitCheck_slots (w : Word) (s : State) : (startCommitCheck w s).slots = s.slots := rfl
@[simp] theorem startCommitCheck_close (w : Word) (s : State) : (startCommitCheck w s).close = s.close := rfl
@[simp] theorem startCommitCheck_writer (w : Word) (s : State) : (startCommitCheck w s).writer = s.writer := rfl
@[simp] theorem startCommitCheck_flags (w : Word) (s : State) : (startCommitCheck w s).flags = s.flags := rfl
@[simp] theorem startCommitCheck_time (w : Word) (s : State) : (startCommitCheck w s).time = s.time := rfl
@[simp] theorem startCommitCheck_freeCount (w : Word) (s : State) :
    (startCommitCheck w s).freeCount = s.freeCount := rfl

@[simp] theorem toStartStep_pending (k : Nat) (s : State) : (toStartStep k s).pending = s.pending := rfl
@[simp] theorem toStartStep_mem (k : Nat) (s : State) : (toStartStep k s).mem = s.mem := rfl
@[simp] theorem toStartStep_power (k : Nat) (s : State) : (toStartStep k s).power = s.power := rfl
@[simp] theorem toStartStep_port (k : Nat) (s : State) : (toStartStep k s).port = s.port := rfl
@[simp] theorem toStartStep_bus (k : Nat) (s : State) : (toStartStep k s).bus = s.bus := rfl
@[simp] theorem toStartStep_path (k : Nat) (s : State) : (toStartStep k s).path = s.path := rfl
@[simp] theorem toStartStep_plan (k : Nat) (s : State) : (toStartStep k s).plan = s.plan := rfl
@[simp] theorem toStartStep_lineup (k : Nat) (s : State) : (toStartStep k s).lineup = s.lineup := rfl
@[simp] theorem toStartStep_order (k : Nat) (s : State) : (toStartStep k s).order = s.order := rfl
@[simp] theorem toStartStep_sched (k : Nat) (s : State) : (toStartStep k s).sched = s.sched := rfl
@[simp] theorem toStartStep_tracker (k : Nat) (s : State) : (toStartStep k s).tracker = s.tracker := rfl
@[simp] theorem toStartStep_receiver (k : Nat) (s : State) : (toStartStep k s).receiver = s.receiver := rfl
@[simp] theorem toStartStep_plant (k : Nat) (s : State) : (toStartStep k s).plant = s.plant := rfl
@[simp] theorem toStartStep_clock (k : Nat) (s : State) : (toStartStep k s).clock = s.clock := rfl
@[simp] theorem toStartStep_meter (k : Nat) (s : State) : (toStartStep k s).meter = s.meter := rfl
@[simp] theorem toStartStep_slots (k : Nat) (s : State) : (toStartStep k s).slots = s.slots := rfl
@[simp] theorem toStartStep_close (k : Nat) (s : State) : (toStartStep k s).close = s.close := rfl
@[simp] theorem toStartStep_writer (k : Nat) (s : State) : (toStartStep k s).writer = s.writer := rfl
@[simp] theorem toStartStep_flags (k : Nat) (s : State) : (toStartStep k s).flags = s.flags := rfl
@[simp] theorem toStartStep_time (k : Nat) (s : State) : (toStartStep k s).time = s.time := rfl
@[simp] theorem toStartStep_freeCount (k : Nat) (s : State) : (toStartStep k s).freeCount = s.freeCount := rfl

@[simp] theorem setRefresh_pending (r : Refresh) (s : State) : (setRefresh r s).pending = s.pending := rfl
@[simp] theorem setRefresh_mem (r : Refresh) (s : State) : (setRefresh r s).mem = s.mem := rfl
@[simp] theorem setRefresh_power (r : Refresh) (s : State) : (setRefresh r s).power = s.power := rfl
@[simp] theorem setRefresh_port (r : Refresh) (s : State) : (setRefresh r s).port = s.port := rfl
@[simp] theorem setRefresh_bus (r : Refresh) (s : State) : (setRefresh r s).bus = s.bus := rfl
@[simp] theorem setRefresh_path (r : Refresh) (s : State) : (setRefresh r s).path = s.path := rfl
@[simp] theorem setRefresh_part (r : Refresh) (s : State) : (setRefresh r s).part = s.part := rfl
@[simp] theorem setRefresh_plan (r : Refresh) (s : State) : (setRefresh r s).plan = s.plan := rfl
@[simp] theorem setRefresh_lineup (r : Refresh) (s : State) : (setRefresh r s).lineup = s.lineup := rfl
@[simp] theorem setRefresh_order (r : Refresh) (s : State) : (setRefresh r s).order = s.order := rfl
@[simp] theorem setRefresh_tracker (r : Refresh) (s : State) : (setRefresh r s).tracker = s.tracker := rfl
@[simp] theorem setRefresh_receiver (r : Refresh) (s : State) : (setRefresh r s).receiver = s.receiver := rfl
@[simp] theorem setRefresh_plant (r : Refresh) (s : State) : (setRefresh r s).plant = s.plant := rfl
@[simp] theorem setRefresh_clock (r : Refresh) (s : State) : (setRefresh r s).clock = s.clock := rfl
@[simp] theorem setRefresh_meter (r : Refresh) (s : State) : (setRefresh r s).meter = s.meter := rfl
@[simp] theorem setRefresh_slots (r : Refresh) (s : State) : (setRefresh r s).slots = s.slots := rfl
@[simp] theorem setRefresh_close (r : Refresh) (s : State) : (setRefresh r s).close = s.close := rfl
@[simp] theorem setRefresh_writer (r : Refresh) (s : State) : (setRefresh r s).writer = s.writer := rfl
@[simp] theorem setRefresh_flags (r : Refresh) (s : State) : (setRefresh r s).flags = s.flags := rfl
@[simp] theorem setRefresh_time (r : Refresh) (s : State) : (setRefresh r s).time = s.time := rfl
@[simp] theorem setRefresh_freeCount (r : Refresh) (s : State) : (setRefresh r s).freeCount = s.freeCount := rfl

@[simp] theorem setArmed_pending (k : Nat) (a : ArmedSlot) (s : State) : (setArmed k a s).pending = s.pending := rfl
@[simp] theorem setArmed_mem (k : Nat) (a : ArmedSlot) (s : State) : (setArmed k a s).mem = s.mem := rfl
@[simp] theorem setArmed_power (k : Nat) (a : ArmedSlot) (s : State) : (setArmed k a s).power = s.power := rfl
@[simp] theorem setArmed_port (k : Nat) (a : ArmedSlot) (s : State) : (setArmed k a s).port = s.port := rfl
@[simp] theorem setArmed_bus (k : Nat) (a : ArmedSlot) (s : State) : (setArmed k a s).bus = s.bus := rfl
@[simp] theorem setArmed_path (k : Nat) (a : ArmedSlot) (s : State) : (setArmed k a s).path = s.path := rfl
@[simp] theorem setArmed_part (k : Nat) (a : ArmedSlot) (s : State) : (setArmed k a s).part = s.part := rfl
@[simp] theorem setArmed_plan (k : Nat) (a : ArmedSlot) (s : State) : (setArmed k a s).plan = s.plan := rfl
@[simp] theorem setArmed_lineup (k : Nat) (a : ArmedSlot) (s : State) : (setArmed k a s).lineup = s.lineup := rfl
@[simp] theorem setArmed_order (k : Nat) (a : ArmedSlot) (s : State) : (setArmed k a s).order = s.order := rfl
@[simp] theorem setArmed_sched (k : Nat) (a : ArmedSlot) (s : State) : (setArmed k a s).sched = s.sched := rfl
@[simp] theorem setArmed_tracker (k : Nat) (a : ArmedSlot) (s : State) : (setArmed k a s).tracker = s.tracker := rfl
@[simp] theorem setArmed_receiver (k : Nat) (a : ArmedSlot) (s : State) : (setArmed k a s).receiver = s.receiver := rfl
@[simp] theorem setArmed_plant (k : Nat) (a : ArmedSlot) (s : State) : (setArmed k a s).plant = s.plant := rfl
@[simp] theorem setArmed_clock (k : Nat) (a : ArmedSlot) (s : State) : (setArmed k a s).clock = s.clock := rfl
@[simp] theorem setArmed_meter (k : Nat) (a : ArmedSlot) (s : State) : (setArmed k a s).meter = s.meter := rfl
@[simp] theorem setArmed_close (k : Nat) (a : ArmedSlot) (s : State) : (setArmed k a s).close = s.close := rfl
@[simp] theorem setArmed_writer (k : Nat) (a : ArmedSlot) (s : State) : (setArmed k a s).writer = s.writer := rfl
@[simp] theorem setArmed_flags (k : Nat) (a : ArmedSlot) (s : State) : (setArmed k a s).flags = s.flags := rfl
@[simp] theorem setArmed_time (k : Nat) (a : ArmedSlot) (s : State) : (setArmed k a s).time = s.time := rfl
@[simp] theorem setArmed_freeCount (k : Nat) (a : ArmedSlot) (s : State) :
    (setArmed k a s).freeCount = s.freeCount := rfl

@[simp] theorem queueReply_pending (t p k r : Nat) (s : State) : (queueReply t p k r s).pending = s.pending := rfl
@[simp] theorem queueReply_mem (t p k r : Nat) (s : State) : (queueReply t p k r s).mem = s.mem := rfl
@[simp] theorem queueReply_power (t p k r : Nat) (s : State) : (queueReply t p k r s).power = s.power := rfl
@[simp] theorem queueReply_port (t p k r : Nat) (s : State) : (queueReply t p k r s).port = s.port := rfl
@[simp] theorem queueReply_bus (t p k r : Nat) (s : State) : (queueReply t p k r s).bus = s.bus := rfl
@[simp] theorem queueReply_path (t p k r : Nat) (s : State) : (queueReply t p k r s).path = s.path := rfl
@[simp] theorem queueReply_part (t p k r : Nat) (s : State) : (queueReply t p k r s).part = s.part := rfl
@[simp] theorem queueReply_plan (t p k r : Nat) (s : State) : (queueReply t p k r s).plan = s.plan := rfl
@[simp] theorem queueReply_lineup (t p k r : Nat) (s : State) : (queueReply t p k r s).lineup = s.lineup := rfl
@[simp] theorem queueReply_order (t p k r : Nat) (s : State) : (queueReply t p k r s).order = s.order := rfl
@[simp] theorem queueReply_tracker (t p k r : Nat) (s : State) : (queueReply t p k r s).tracker = s.tracker := rfl
@[simp] theorem queueReply_receiver (t p k r : Nat) (s : State) : (queueReply t p k r s).receiver = s.receiver := rfl
@[simp] theorem queueReply_plant (t p k r : Nat) (s : State) : (queueReply t p k r s).plant = s.plant := rfl
@[simp] theorem queueReply_clock (t p k r : Nat) (s : State) : (queueReply t p k r s).clock = s.clock := rfl
@[simp] theorem queueReply_meter (t p k r : Nat) (s : State) : (queueReply t p k r s).meter = s.meter := rfl
@[simp] theorem queueReply_slots (t p k r : Nat) (s : State) : (queueReply t p k r s).slots = s.slots := rfl
@[simp] theorem queueReply_close (t p k r : Nat) (s : State) : (queueReply t p k r s).close = s.close := rfl
@[simp] theorem queueReply_writer (t p k r : Nat) (s : State) : (queueReply t p k r s).writer = s.writer := rfl
@[simp] theorem queueReply_flags (t p k r : Nat) (s : State) : (queueReply t p k r s).flags = s.flags := rfl
@[simp] theorem queueReply_time (t p k r : Nat) (s : State) : (queueReply t p k r s).time = s.time := rfl
@[simp] theorem queueReply_freeCount (t p k r : Nat) (s : State) :
    (queueReply t p k r s).freeCount = s.freeCount := rfl

@[simp] theorem returnJournal_pending (s : State) : (returnJournal s).pending = s.pending := rfl
@[simp] theorem returnJournal_mem (s : State) : (returnJournal s).mem = s.mem := rfl
@[simp] theorem returnJournal_power (s : State) : (returnJournal s).power = s.power := rfl
@[simp] theorem returnJournal_port (s : State) : (returnJournal s).port = s.port := rfl
@[simp] theorem returnJournal_bus (s : State) : (returnJournal s).bus = s.bus := rfl
@[simp] theorem returnJournal_path (s : State) : (returnJournal s).path = s.path := rfl
@[simp] theorem returnJournal_part (s : State) : (returnJournal s).part = s.part := rfl
@[simp] theorem returnJournal_plan (s : State) : (returnJournal s).plan = s.plan := rfl
@[simp] theorem returnJournal_lineup (s : State) : (returnJournal s).lineup = s.lineup := rfl
@[simp] theorem returnJournal_order (s : State) : (returnJournal s).order = s.order := rfl
@[simp] theorem returnJournal_sched (s : State) : (returnJournal s).sched = s.sched := rfl
@[simp] theorem returnJournal_tracker (s : State) : (returnJournal s).tracker = s.tracker := rfl
@[simp] theorem returnJournal_receiver (s : State) : (returnJournal s).receiver = s.receiver := rfl
@[simp] theorem returnJournal_plant (s : State) : (returnJournal s).plant = s.plant := rfl
@[simp] theorem returnJournal_clock (s : State) : (returnJournal s).clock = s.clock := rfl
@[simp] theorem returnJournal_meter (s : State) : (returnJournal s).meter = s.meter := rfl
@[simp] theorem returnJournal_slots (s : State) : (returnJournal s).slots = s.slots := rfl
@[simp] theorem returnJournal_close (s : State) : (returnJournal s).close = s.close := rfl
@[simp] theorem returnJournal_flags (s : State) : (returnJournal s).flags = s.flags := rfl
@[simp] theorem returnJournal_time (s : State) : (returnJournal s).time = s.time := rfl
@[simp] theorem returnJournal_freeCount (s : State) : (returnJournal s).freeCount = s.freeCount := rfl

@[simp] theorem beginHold_pending (s : State) : (beginHold s).pending = s.pending := rfl
@[simp] theorem beginHold_mem (s : State) : (beginHold s).mem = s.mem := rfl
@[simp] theorem beginHold_power (s : State) : (beginHold s).power = s.power := rfl
@[simp] theorem beginHold_port (s : State) : (beginHold s).port = s.port := rfl
@[simp] theorem beginHold_bus (s : State) : (beginHold s).bus = s.bus := rfl
@[simp] theorem beginHold_path (s : State) : (beginHold s).path = s.path := rfl
@[simp] theorem beginHold_part (s : State) : (beginHold s).part = s.part := rfl
@[simp] theorem beginHold_plan (s : State) : (beginHold s).plan = s.plan := rfl
@[simp] theorem beginHold_lineup (s : State) : (beginHold s).lineup = s.lineup := rfl
@[simp] theorem beginHold_order (s : State) : (beginHold s).order = s.order := rfl
@[simp] theorem beginHold_sched (s : State) : (beginHold s).sched = s.sched := rfl
@[simp] theorem beginHold_tracker (s : State) : (beginHold s).tracker = s.tracker := rfl
@[simp] theorem beginHold_receiver (s : State) : (beginHold s).receiver = s.receiver := rfl
@[simp] theorem beginHold_plant (s : State) : (beginHold s).plant = s.plant := rfl
@[simp] theorem beginHold_meter (s : State) : (beginHold s).meter = s.meter := rfl
@[simp] theorem beginHold_slots (s : State) : (beginHold s).slots = s.slots := rfl
@[simp] theorem beginHold_close (s : State) : (beginHold s).close = s.close := rfl
@[simp] theorem beginHold_writer (s : State) : (beginHold s).writer = s.writer := rfl
@[simp] theorem beginHold_flags (s : State) : (beginHold s).flags = s.flags := rfl
@[simp] theorem beginHold_time (s : State) : (beginHold s).time = s.time := rfl
@[simp] theorem beginHold_freeCount (s : State) : (beginHold s).freeCount = s.freeCount := rfl

@[simp] theorem releaseHold_pending (s : State) : (releaseHold s).pending = s.pending := rfl
@[simp] theorem releaseHold_mem (s : State) : (releaseHold s).mem = s.mem := rfl
@[simp] theorem releaseHold_power (s : State) : (releaseHold s).power = s.power := rfl
@[simp] theorem releaseHold_port (s : State) : (releaseHold s).port = s.port := rfl
@[simp] theorem releaseHold_bus (s : State) : (releaseHold s).bus = s.bus := rfl
@[simp] theorem releaseHold_path (s : State) : (releaseHold s).path = s.path := rfl
@[simp] theorem releaseHold_part (s : State) : (releaseHold s).part = s.part := rfl
@[simp] theorem releaseHold_plan (s : State) : (releaseHold s).plan = s.plan := rfl
@[simp] theorem releaseHold_lineup (s : State) : (releaseHold s).lineup = s.lineup := rfl
@[simp] theorem releaseHold_order (s : State) : (releaseHold s).order = s.order := rfl
@[simp] theorem releaseHold_sched (s : State) : (releaseHold s).sched = s.sched := rfl
@[simp] theorem releaseHold_tracker (s : State) : (releaseHold s).tracker = s.tracker := rfl
@[simp] theorem releaseHold_receiver (s : State) : (releaseHold s).receiver = s.receiver := rfl
@[simp] theorem releaseHold_plant (s : State) : (releaseHold s).plant = s.plant := rfl
@[simp] theorem releaseHold_meter (s : State) : (releaseHold s).meter = s.meter := rfl
@[simp] theorem releaseHold_slots (s : State) : (releaseHold s).slots = s.slots := rfl
@[simp] theorem releaseHold_close (s : State) : (releaseHold s).close = s.close := rfl
@[simp] theorem releaseHold_writer (s : State) : (releaseHold s).writer = s.writer := rfl
@[simp] theorem releaseHold_flags (s : State) : (releaseHold s).flags = s.flags := rfl
@[simp] theorem releaseHold_time (s : State) : (releaseHold s).time = s.time := rfl
@[simp] theorem releaseHold_freeCount (s : State) : (releaseHold s).freeCount = s.freeCount := rfl

@[simp] theorem storeClockWord_pending (f : ClockField) (l : Lanes) (d : Word) (s : State) :
    (storeClockWord f l d s).pending = s.pending := rfl
@[simp] theorem storeClockWord_mem (f : ClockField) (l : Lanes) (d : Word) (s : State) :
    (storeClockWord f l d s).mem = s.mem := rfl
@[simp] theorem storeClockWord_power (f : ClockField) (l : Lanes) (d : Word) (s : State) :
    (storeClockWord f l d s).power = s.power := rfl
@[simp] theorem storeClockWord_port (f : ClockField) (l : Lanes) (d : Word) (s : State) :
    (storeClockWord f l d s).port = s.port := rfl
@[simp] theorem storeClockWord_bus (f : ClockField) (l : Lanes) (d : Word) (s : State) :
    (storeClockWord f l d s).bus = s.bus := rfl
@[simp] theorem storeClockWord_path (f : ClockField) (l : Lanes) (d : Word) (s : State) :
    (storeClockWord f l d s).path = s.path := rfl
@[simp] theorem storeClockWord_part (f : ClockField) (l : Lanes) (d : Word) (s : State) :
    (storeClockWord f l d s).part = s.part := rfl
@[simp] theorem storeClockWord_plan (f : ClockField) (l : Lanes) (d : Word) (s : State) :
    (storeClockWord f l d s).plan = s.plan := rfl
@[simp] theorem storeClockWord_lineup (f : ClockField) (l : Lanes) (d : Word) (s : State) :
    (storeClockWord f l d s).lineup = s.lineup := rfl
@[simp] theorem storeClockWord_order (f : ClockField) (l : Lanes) (d : Word) (s : State) :
    (storeClockWord f l d s).order = s.order := rfl
@[simp] theorem storeClockWord_sched (f : ClockField) (l : Lanes) (d : Word) (s : State) :
    (storeClockWord f l d s).sched = s.sched := rfl
@[simp] theorem storeClockWord_tracker (f : ClockField) (l : Lanes) (d : Word) (s : State) :
    (storeClockWord f l d s).tracker = s.tracker := rfl
@[simp] theorem storeClockWord_receiver (f : ClockField) (l : Lanes) (d : Word) (s : State) :
    (storeClockWord f l d s).receiver = s.receiver := rfl
@[simp] theorem storeClockWord_plant (f : ClockField) (l : Lanes) (d : Word) (s : State) :
    (storeClockWord f l d s).plant = s.plant := rfl
@[simp] theorem storeClockWord_meter (f : ClockField) (l : Lanes) (d : Word) (s : State) :
    (storeClockWord f l d s).meter = s.meter := rfl
@[simp] theorem storeClockWord_slots (f : ClockField) (l : Lanes) (d : Word) (s : State) :
    (storeClockWord f l d s).slots = s.slots := rfl
@[simp] theorem storeClockWord_close (f : ClockField) (l : Lanes) (d : Word) (s : State) :
    (storeClockWord f l d s).close = s.close := rfl
@[simp] theorem storeClockWord_writer (f : ClockField) (l : Lanes) (d : Word) (s : State) :
    (storeClockWord f l d s).writer = s.writer := rfl
@[simp] theorem storeClockWord_flags (f : ClockField) (l : Lanes) (d : Word) (s : State) :
    (storeClockWord f l d s).flags = s.flags := rfl
@[simp] theorem storeClockWord_time (f : ClockField) (l : Lanes) (d : Word) (s : State) :
    (storeClockWord f l d s).time = s.time := rfl
@[simp] theorem storeClockWord_freeCount (f : ClockField) (l : Lanes) (d : Word) (s : State) :
    (storeClockWord f l d s).freeCount = s.freeCount := rfl

@[simp] theorem lineRests_pending (s : State) : (lineRests s).pending = s.pending := rfl
@[simp] theorem lineRests_mem (s : State) : (lineRests s).mem = s.mem := rfl
@[simp] theorem lineRests_power (s : State) : (lineRests s).power = s.power := rfl
@[simp] theorem lineRests_port (s : State) : (lineRests s).port = s.port := rfl
@[simp] theorem lineRests_bus (s : State) : (lineRests s).bus = s.bus := rfl
@[simp] theorem lineRests_path (s : State) : (lineRests s).path = s.path := rfl
@[simp] theorem lineRests_part (s : State) : (lineRests s).part = s.part := rfl
@[simp] theorem lineRests_plan (s : State) : (lineRests s).plan = s.plan := rfl
@[simp] theorem lineRests_lineup (s : State) : (lineRests s).lineup = s.lineup := rfl
@[simp] theorem lineRests_order (s : State) : (lineRests s).order = s.order := rfl
@[simp] theorem lineRests_sched (s : State) : (lineRests s).sched = s.sched := rfl
@[simp] theorem lineRests_tracker (s : State) : (lineRests s).tracker = s.tracker := rfl
@[simp] theorem lineRests_plant (s : State) : (lineRests s).plant = s.plant := rfl
@[simp] theorem lineRests_clock (s : State) : (lineRests s).clock = s.clock := rfl
@[simp] theorem lineRests_meter (s : State) : (lineRests s).meter = s.meter := rfl
@[simp] theorem lineRests_slots (s : State) : (lineRests s).slots = s.slots := rfl
@[simp] theorem lineRests_close (s : State) : (lineRests s).close = s.close := rfl
@[simp] theorem lineRests_writer (s : State) : (lineRests s).writer = s.writer := rfl
@[simp] theorem lineRests_flags (s : State) : (lineRests s).flags = s.flags := rfl
@[simp] theorem lineRests_time (s : State) : (lineRests s).time = s.time := rfl
@[simp] theorem lineRests_freeCount (s : State) : (lineRests s).freeCount = s.freeCount := rfl

@[simp] theorem freeStalled_pending (s : State) : (freeStalled s).pending = s.pending := rfl
@[simp] theorem freeStalled_mem (s : State) : (freeStalled s).mem = s.mem := rfl
@[simp] theorem freeStalled_power (s : State) : (freeStalled s).power = s.power := rfl
@[simp] theorem freeStalled_port (s : State) : (freeStalled s).port = s.port := rfl
@[simp] theorem freeStalled_bus (s : State) : (freeStalled s).bus = s.bus := rfl
@[simp] theorem freeStalled_path (s : State) : (freeStalled s).path = s.path := rfl
@[simp] theorem freeStalled_part (s : State) : (freeStalled s).part = s.part := rfl
@[simp] theorem freeStalled_plan (s : State) : (freeStalled s).plan = s.plan := rfl
@[simp] theorem freeStalled_lineup (s : State) : (freeStalled s).lineup = s.lineup := rfl
@[simp] theorem freeStalled_order (s : State) : (freeStalled s).order = s.order := rfl
@[simp] theorem freeStalled_sched (s : State) : (freeStalled s).sched = s.sched := rfl
@[simp] theorem freeStalled_tracker (s : State) : (freeStalled s).tracker = s.tracker := rfl
@[simp] theorem freeStalled_receiver (s : State) : (freeStalled s).receiver = s.receiver := rfl
@[simp] theorem freeStalled_plant (s : State) : (freeStalled s).plant = s.plant := rfl
@[simp] theorem freeStalled_clock (s : State) : (freeStalled s).clock = s.clock := rfl
@[simp] theorem freeStalled_meter (s : State) : (freeStalled s).meter = s.meter := rfl
@[simp] theorem freeStalled_slots (s : State) : (freeStalled s).slots = s.slots := rfl
@[simp] theorem freeStalled_writer (s : State) : (freeStalled s).writer = s.writer := rfl
@[simp] theorem freeStalled_flags (s : State) : (freeStalled s).flags = s.flags := rfl
@[simp] theorem freeStalled_time (s : State) : (freeStalled s).time = s.time := rfl
@[simp] theorem freeStalled_freeCount (s : State) : (freeStalled s).freeCount = s.freeCount := rfl

@[simp] theorem countSecond_pending (s : State) : (countSecond s).pending = s.pending := rfl
@[simp] theorem countSecond_mem (s : State) : (countSecond s).mem = s.mem := rfl
@[simp] theorem countSecond_power (s : State) : (countSecond s).power = s.power := rfl
@[simp] theorem countSecond_port (s : State) : (countSecond s).port = s.port := rfl
@[simp] theorem countSecond_bus (s : State) : (countSecond s).bus = s.bus := rfl
@[simp] theorem countSecond_path (s : State) : (countSecond s).path = s.path := rfl
@[simp] theorem countSecond_part (s : State) : (countSecond s).part = s.part := rfl
@[simp] theorem countSecond_plan (s : State) : (countSecond s).plan = s.plan := rfl
@[simp] theorem countSecond_lineup (s : State) : (countSecond s).lineup = s.lineup := rfl
@[simp] theorem countSecond_order (s : State) : (countSecond s).order = s.order := rfl
@[simp] theorem countSecond_sched (s : State) : (countSecond s).sched = s.sched := rfl
@[simp] theorem countSecond_tracker (s : State) : (countSecond s).tracker = s.tracker := rfl
@[simp] theorem countSecond_receiver (s : State) : (countSecond s).receiver = s.receiver := rfl
@[simp] theorem countSecond_plant (s : State) : (countSecond s).plant = s.plant := rfl
@[simp] theorem countSecond_meter (s : State) : (countSecond s).meter = s.meter := rfl
@[simp] theorem countSecond_slots (s : State) : (countSecond s).slots = s.slots := rfl
@[simp] theorem countSecond_close (s : State) : (countSecond s).close = s.close := rfl
@[simp] theorem countSecond_writer (s : State) : (countSecond s).writer = s.writer := rfl
@[simp] theorem countSecond_flags (s : State) : (countSecond s).flags = s.flags := rfl
@[simp] theorem countSecond_time (s : State) : (countSecond s).time = s.time := rfl
@[simp] theorem countSecond_freeCount (s : State) : (countSecond s).freeCount = s.freeCount := rfl

end Sys2Proof.Machine
end

