-- ==== Sys2Proof/Laws/Memory.lean ====
section
/-!
SUPPORT. The laws of the subscriber memory: what a read finds after a write, and that every memory operation keeps the
canonical form.
-/

namespace Sys2Proof.Machine

/-- A byte read after it was written is the byte written. -/
theorem memByte_memSetByte_same (m : List Host.Cell) (a : Nat) (b : Byte) (h : MemWf m) :
    memByte (memSetByte m a b) a = b := by
  induction m with
  | nil =>
    rw [memSetByte]
    split
    · next hb => exact hb.symm
    · rw [memByte, if_pos rfl]
  | cons c m ih =>
    obtain ⟨k, v⟩ := c
    obtain ⟨hp, hz⟩ := h
    rw [List.pairwise_cons] at hp
    have hm : MemWf m := ⟨hp.2, fun c hc => hz c (List.mem_cons_of_mem _ hc)⟩
    have above : ∀ m' : List Host.Cell, (∀ x ∈ m', a < x.1) → memByte m' a = 0 := by
      intro m' hm'
      induction m' with
      | nil => rfl
      | cons d m'' ih' =>
        have h1 := hm' d (by simp)
        have h2 : a ≠ d.1 := by omega
        rw [memByte, if_neg h2]
        exact ih' fun x hx => hm' x (List.mem_cons_of_mem _ hx)
    rw [memSetByte]
    split
    · next hlt =>
      by_cases hb : b = 0
      · rw [if_pos hb, hb]
        apply above
        intro x hx
        rcases List.mem_cons.1 hx with rfl | hx
        · exact hlt
        · exact lt_trans hlt (hp.1 x hx)
      · rw [if_neg hb, memByte, if_pos rfl]
    · split
      · next _ heq =>
        by_cases hb : b = 0
        · rw [if_pos hb, hb]
          exact above m fun x hx => heq ▸ hp.1 x hx
        · rw [if_neg hb, memByte, if_pos rfl]
      · next _ hne =>
        rw [memByte, if_neg hne]
        exact ih hm

/-- A byte that was not written reads as before. -/
theorem memByte_memSetByte_other (m : List Host.Cell) (a k : Nat) (b : Byte) (h : k ≠ a) :
    memByte (memSetByte m a b) k = memByte m k := by
  induction m with
  | nil =>
    rw [memSetByte]
    split
    · rfl
    · exact if_neg h
  | cons c m ih =>
    obtain ⟨j, v⟩ := c
    rw [memSetByte]
    split
    · split
      · rfl
      · rw [memByte, if_neg h]
    · split
      · next _ heq =>
        have hj : k ≠ j := heq ▸ h
        split
        · rw [memByte, if_neg hj]
        · rw [memByte, if_neg h, memByte, if_neg hj]
      · rw [memByte, memByte, ih]

/-- Every place listed after a write was listed before, or is the place written with a byte that is not 0. -/
theorem mem_of_mem_memSetByte (m : List Host.Cell) (a : Nat) (b : Byte) (x : Host.Cell)
    (h : x ∈ memSetByte m a b) : x ∈ m ∨ (x = (a, b) ∧ b ≠ 0) := by
  induction m with
  | nil =>
    by_cases hb : b = 0
    · rw [memSetByte, if_pos hb] at h
      exact .inl h
    · rw [memSetByte, if_neg hb, List.mem_singleton] at h
      exact .inr ⟨h, hb⟩
  | cons c m ih =>
    obtain ⟨j, v⟩ := c
    rw [memSetByte] at h
    split at h
    · split at h
      · exact .inl h
      · next hb =>
        rcases List.mem_cons.1 h with rfl | h
        · exact .inr ⟨rfl, hb⟩
        · exact .inl h
    · split at h
      · split at h
        · exact .inl (List.mem_cons_of_mem _ h)
        · next hb =>
          rcases List.mem_cons.1 h with rfl | h
          · exact .inr ⟨rfl, hb⟩
          · exact .inl (List.mem_cons_of_mem _ h)
      · rcases List.mem_cons.1 h with rfl | h
        · exact .inl (by simp)
        · rcases ih h with h | h
          · exact .inl (List.mem_cons_of_mem _ h)
          · exact .inr h

/-- Writing a byte keeps the canonical form. -/
theorem memSetByte_wf (m : List Host.Cell) (a : Nat) (b : Byte) (h : MemWf m) : MemWf (memSetByte m a b) := by
  refine ⟨?_, fun x hx => ?_⟩
  · induction m with
    | nil =>
      rw [memSetByte]
      split
      · exact List.Pairwise.nil
      · exact List.pairwise_singleton _ _
    | cons c m ih =>
      obtain ⟨j, v⟩ := c
      obtain ⟨hp, hz⟩ := h
      have hp' := List.pairwise_cons.1 hp
      have hm : MemWf m := ⟨hp'.2, fun c hc => hz c (List.mem_cons_of_mem _ hc)⟩
      rw [memSetByte]
      split
      · next hlt =>
        split
        · exact hp
        · refine List.pairwise_cons.2 ⟨fun x hx => ?_, hp⟩
          rcases List.mem_cons.1 hx with rfl | hx
          · exact hlt
          · exact lt_trans hlt (hp'.1 x hx)
      · split
        · next _ heq =>
          split
          · exact hp'.2
          · exact List.pairwise_cons.2 ⟨fun x hx => heq ▸ hp'.1 x hx, hp'.2⟩
        · next hlt hne =>
          refine List.pairwise_cons.2 ⟨fun x hx => ?_, ih hm⟩
          rcases mem_of_mem_memSetByte m a b x hx with hx | ⟨rfl, _⟩
          · exact hp'.1 x hx
          · show j < a
            omega
  · rcases mem_of_mem_memSetByte m a b x hx with hx | ⟨rfl, hb⟩
    · exact h.2 x hx
    · exact hb

/-- Writing lanes keeps the canonical form. -/
theorem memSetLanes_wf (m : List Host.Cell) (a : Nat) (l : Lanes) (w : Word) (h : MemWf m) :
    MemWf (memSetLanes m a l w) := by
  unfold memSetLanes
  dsimp only
  split <;> split <;> first | exact memSetByte_wf _ _ _ (memSetByte_wf _ _ _ h) | exact memSetByte_wf _ _ _ h | exact h

/-- A write of a part block keeps the canonical form. -/
theorem wr_wf (s : State) (a : Nat) (w : Word) (h : MemWf s.mem) : MemWf (wr s a w).mem :=
  memSetLanes_wf s.mem a bothLanes w h

/-- A write of the host keeps the canonical form. -/
theorem hostStore_wf (s : State) (a : Nat) (l : Lanes) (w : Word) (h : MemWf s.mem) : MemWf (hostStore s a l w).mem :=
  memSetLanes_wf s.mem a l w h

theorem memSetWords_wf (ws : List (Nat × Word)) : ∀ m : List Host.Cell, MemWf m → MemWf (memSetWords m ws) := by
  induction ws with
  | nil => exact fun _ h => h
  | cons p t ih => exact fun m h => ih _ (memSetLanes_wf m p.1 bothLanes p.2 h)

/-- A held access keeps the canonical form. -/
theorem wrHeld_wf (s : State) (ws : List (Nat × Word)) (h : MemWf s.mem) : MemWf (wrHeld s ws).mem :=
  memSetWords_wf ws s.mem h

/-- A pair write keeps the canonical form. -/
theorem wrPair_wf (s : State) (a n : Nat) (h : MemWf s.mem) : MemWf (wrPair s a n).mem := wrHeld_wf s _ h

/-- Writes in order keep the canonical form. -/
theorem wrAll_wf (l : List (Nat × Word)) : ∀ s : State, MemWf s.mem → MemWf (wrAll s l).mem := by
  induction l with
  | nil => exact fun _ h => h
  | cons p t ih => exact fun s h => ih _ (wr_wf s p.1 p.2 h)

theorem getLsbD_wordOfBytes (h l : Byte) (i : Nat) :
    (wordOfBytes h l).getLsbD i = if i < 8 then l.getLsbD i else h.getLsbD (i - 8) :=
  BitVec.getLsbD_append

theorem getLsbD_wordHi (w : Word) (i : Nat) : (wordHi w).getLsbD i = (decide (i < 8) && w.getLsbD (8 + i)) :=
  BitVec.getLsbD_extractLsb' ..

theorem getLsbD_wordLo (w : Word) (i : Nat) : (wordLo w).getLsbD i = (decide (i < 8) && w.getLsbD i) := by
  rw [wordLo, BitVec.getLsbD_extractLsb', Nat.zero_add]

/-- A word is what its two lanes say. -/
theorem wordOfBytes_lanes (w : Word) : wordOfBytes (wordHi w) (wordLo w) = w := by
  apply BitVec.eq_of_getLsbD_eq
  intro i hi
  rw [getLsbD_wordOfBytes, getLsbD_wordHi, getLsbD_wordLo]
  split
  · next h => simp [h]
  · next h =>
    have h1 : i - 8 < 8 := by omega
    have h2 : 8 + (i - 8) = i := by omega
    simp [h1, h2]

theorem wordHi_wordOfBytes (h l : Byte) : wordHi (wordOfBytes h l) = h := by
  apply BitVec.eq_of_getLsbD_eq
  intro i hi
  rw [getLsbD_wordHi, getLsbD_wordOfBytes, if_neg (by omega), Nat.add_sub_cancel_left]
  simp [hi]

theorem wordLo_wordOfBytes (h l : Byte) : wordLo (wordOfBytes h l) = l := by
  apply BitVec.eq_of_getLsbD_eq
  intro i hi
  rw [getLsbD_wordLo, getLsbD_wordOfBytes, if_pos hi]
  simp [hi]

/-- R9: a word read after a write in lanes: each strobed lane holds the byte written, the other its old byte. -/
theorem memWord_memSetLanes_same (m : List Host.Cell) (a : Nat) (l : Lanes) (w : Word) (h : MemWf m) :
    memWord (memSetLanes m a l w) a = mergeLanes l (memWord m a) w := by
  obtain ⟨u, lo⟩ := l
  have h1 : ∀ b, memByte (memSetByte m (2 * a) b) (2 * a) = b := fun b => memByte_memSetByte_same _ _ _ h
  have h2 : ∀ b, memByte (memSetByte m (2 * a + 1) b) (2 * a + 1) = b := fun b => memByte_memSetByte_same _ _ _ h
  have h3 : ∀ m' b, memByte (memSetByte m' (2 * a) b) (2 * a + 1) = memByte m' (2 * a + 1) :=
    fun m' b => memByte_memSetByte_other _ _ _ _ (by omega)
  have h4 : ∀ m' b, memByte (memSetByte m' (2 * a + 1) b) (2 * a) = memByte m' (2 * a) :=
    fun m' b => memByte_memSetByte_other _ _ _ _ (by omega)
  have h5 : ∀ b c, memByte (memSetByte (memSetByte m (2 * a) b) (2 * a + 1) c) (2 * a + 1) = c :=
    fun b c => memByte_memSetByte_same _ _ _ (memSetByte_wf _ _ _ h)
  cases u <;> cases lo <;>
    simp [memSetLanes, memWord, mergeLanes, wordHi_wordOfBytes, wordLo_wordOfBytes, h1, h2, h3, h4, h5]

/-- A word that was not written reads as before. -/
theorem memWord_memSetLanes_other (m : List Host.Cell) (a k : Nat) (l : Lanes) (w : Word) (h : k ≠ a) :
    memWord (memSetLanes m a l w) k = memWord m k := by
  obtain ⟨u, lo⟩ := l
  have h1 : ∀ m' b, memByte (memSetByte m' (2 * a) b) (2 * k + 1) = memByte m' (2 * k + 1) :=
    fun m' b => memByte_memSetByte_other _ _ _ _ (by omega)
  have h2 : ∀ m' b, memByte (memSetByte m' (2 * a) b) (2 * k) = memByte m' (2 * k) :=
    fun m' b => memByte_memSetByte_other _ _ _ _ (by omega)
  have h3 : ∀ m' b, memByte (memSetByte m' (2 * a + 1) b) (2 * k + 1) = memByte m' (2 * k + 1) :=
    fun m' b => memByte_memSetByte_other _ _ _ _ (by omega)
  have h4 : ∀ m' b, memByte (memSetByte m' (2 * a + 1) b) (2 * k) = memByte m' (2 * k) :=
    fun m' b => memByte_memSetByte_other _ _ _ _ (by omega)
  cases u <;> cases lo <;> simp [memSetLanes, memWord, h1, h2, h3, h4]

theorem mergeLanes_both (old w : Word) : mergeLanes bothLanes old w = w := by
  simp [mergeLanes, bothLanes, wordOfBytes_lanes]

/-- A word a part block has written. -/
theorem rd_wr_same (s : State) (a : Nat) (w : Word) (h : MemWf s.mem) : rd (wr s a w) a = w := by
  show memWord (memSetLanes s.mem a bothLanes w) a = w
  rw [memWord_memSetLanes_same _ _ _ _ h, mergeLanes_both]

/-- A write of a part block leaves every other word. -/
theorem rd_wr_other (s : State) (a k : Nat) (w : Word) (h : k ≠ a) : rd (wr s a w) k = rd s k :=
  memWord_memSetLanes_other s.mem a k bothLanes w h

/-- A word the host has written. -/
theorem rd_hostStore_same (s : State) (a : Nat) (l : Lanes) (w : Word) (h : MemWf s.mem) :
    rd (hostStore s a l w) a = mergeLanes l (rd s a) w :=
  memWord_memSetLanes_same s.mem a l w h

/-- A write of the host leaves every other word. -/
theorem rd_hostStore_other (s : State) (a k : Nat) (l : Lanes) (w : Word) (h : k ≠ a) :
    rd (hostStore s a l w) k = rd s k :=
  memWord_memSetLanes_other s.mem a k l w h

/-- What `rd` answers depends on the memory alone. -/
theorem rd_congr {s t : State} (h : s.mem = t.mem) (a : Nat) : rd s a = rd t a := by
  unfold rd
  rw [h]

end Sys2Proof.Machine
end

