-- ==== Sys2Proof/Laws/Ops.lean ====
section
/-!
SUPPORT. What each shared operation can do, said once: which fields it may change, that it keeps the memory's canonical
form, and which words it leaves alone. Proofs about the rows cite these and do not unfold the operations.
-/

namespace Sys2Proof.Machine

/-! Flags. -/

/-- The flags' conditions read these values and no others. -/
theorem conditions_congr {s t : State} (h₀ : t.plant.outCount = s.plant.outCount)
    (h₁ : t.plant.latchedCount = s.plant.latchedCount) (h₂ : t.plant.standbyCount = s.plant.standbyCount)
    (h₃ : t.plant.slowCount = s.plant.slowCount) (h₄ : t.order.unreached = s.order.unreached)
    (h₅ : t.order.held = s.order.held) (h₆ : t.plan.copy = s.plan.copy) (h₇ : t.plan.last = s.plan.last)
    (h₈ : t.lineup.image = s.lineup.image) (h₉ : t.lineup.edited = s.lineup.edited)
    (h₁₀ : t.lineup.last = s.lineup.last) (h₁₁ : t.clock.valid = s.clock.valid) (h₁₂ : t.writer.log = s.writer.log)
    (h₁₃ : t.writer.journal = s.writer.journal) (h₁₄ : t.receiver.noisy = s.receiver.noisy) :
    conditions t = conditions s := by
  have e : condition t = condition s := by
    funext f
    cases f <;> simp only [condition, planCondition, lineupCondition, ringStandsFull, ringCopy, h₀, h₁, h₂, h₃, h₄, h₅, h₆,
      h₇, h₈, h₉, h₁₀, h₁₁, h₁₂, h₁₃, h₁₄]
  unfold conditions
  rw [e]

/-- A step that changes no condition latches nothing. -/
theorem latchArisen_eq_self {s t : State} (h : conditions t = conditions s) : latchArisen s t = t := by
  unfold latchArisen
  split
  · rfl
  · rw [h]; simp [latch]

theorem latchArisen_frame (s t : State) : latchArisen s t = { t with flags := (latchArisen s t).flags } := by
  unfold latchArisen; split <;> rfl

theorem latchArisen_flags (s t : State) :
    (latchArisen s t).flags =
      if t.part.state = .starting then t.flags else t.flags ||| (conditions t &&& ~~~(conditions s)) := by
  unfold latchArisen; split <;> rfl

@[simp] theorem latchArisen_mem (s t : State) : (latchArisen s t).mem = t.mem := by rw [latchArisen_frame]
@[simp] theorem latchArisen_part (s t : State) : (latchArisen s t).part = t.part := by rw [latchArisen_frame]
@[simp] theorem latchArisen_pending (s t : State) : (latchArisen s t).pending = t.pending := by rw [latchArisen_frame]
@[simp] theorem latchArisen_sched (s t : State) : (latchArisen s t).sched = t.sched := by rw [latchArisen_frame]
@[simp] theorem latchArisen_order (s t : State) : (latchArisen s t).order = t.order := by rw [latchArisen_frame]
@[simp] theorem latchArisen_clock (s t : State) : (latchArisen s t).clock = t.clock := by rw [latchArisen_frame]
@[simp] theorem latchArisen_meter (s t : State) : (latchArisen s t).meter = t.meter := by rw [latchArisen_frame]
@[simp] theorem latchArisen_writer (s t : State) : (latchArisen s t).writer = t.writer := by rw [latchArisen_frame]
@[simp] theorem latchArisen_plant (s t : State) : (latchArisen s t).plant = t.plant := by rw [latchArisen_frame]
@[simp] theorem latchArisen_close (s t : State) : (latchArisen s t).close = t.close := by rw [latchArisen_frame]
@[simp] theorem latchArisen_power (s t : State) : (latchArisen s t).power = t.power := by rw [latchArisen_frame]

theorem reportCondition_frame (f : Flag) (s : State) :
    reportCondition f s = { s with flags := (reportCondition f s).flags } := by
  unfold reportCondition; split <;> rfl

/-! Reads and writes. -/

/-- R14: with both sides waiting, the host is granted when the previous grant went to a part block, and the oldest part
request otherwise. -/
theorem arbitrate_both (p : Port) (hg : p.grant = none) (hh : PortSide.host ∈ p.waiting) (hp : PortSide.part ∈ p.waiting)
    (side : PortSide) (e : side = if p.last = some .part then .host else .part) :
    arbitrate p = { p with last := some side, grant := some side, waiting := p.waiting.erase side } := by
  subst e
  by_cases h : p.last = some .part <;> simp [arbitrate, portChoice, hg, hh, hp, h]

/-- R14: with one side waiting, that side is granted. -/
theorem arbitrate_one (p : Port) (side : PortSide) (hg : p.grant = none) (h : side ∈ p.waiting)
    (ho : ∀ x ∈ p.waiting, x = side) :
    arbitrate p = { p with last := some side, grant := some side, waiting := p.waiting.erase side } := by
  cases side
  · have hp : PortSide.part ∉ p.waiting := fun m => by cases ho _ m
    simp [arbitrate, portChoice, hg, h, hp]
  · have hp : PortSide.host ∉ p.waiting := fun m => by cases ho _ m
    simp [arbitrate, portChoice, hg, h, hp]

/-- A grant lasts for the access it was given for: while the port carries one, the arbiter gives none. -/
theorem arbitrate_busy (p : Port) (side : PortSide) (hg : p.grant = some side) : arbitrate p = p := by
  simp [arbitrate, hg]

theorem arbitrate_inactive (p : Port) : (arbitrate p).inactive = p.inactive := by unfold arbitrate; split <;> rfl

theorem serveRequests_inactive (n : Nat) : ∀ p, (serveRequests n p).inactive = p.inactive := by
  induction n with
  | zero => intro p; rfl
  | succ n ih => intro p; rw [serveRequests, ih]; exact arbitrate_inactive p

/-- One grant of a free port leaves one request fewer. -/
theorem arbitrate_length (p : Port) (hg : p.grant = none) : (arbitrate p).waiting.length = p.waiting.length - 1 := by
  unfold arbitrate portChoice
  rw [hg]
  by_cases hh : PortSide.host ∈ p.waiting <;> by_cases hp : PortSide.part ∈ p.waiting <;>
    by_cases hl : p.last = some .part <;> simp [hh, hp, hl]
  all_goals
    cases hw : p.waiting with
    | nil => rfl
    | cons x t => cases x <;> simp_all

/-- Serving leaves the port free with nothing waiting. -/
theorem serveRequests_idle (n : Nat) : ∀ p : Port, p.grant = none → p.waiting.length ≤ n →
    (serveRequests n p).grant = none ∧ (serveRequests n p).waiting = [] := by
  induction n with
  | zero => intro p hg hl; exact ⟨hg, List.length_eq_zero_iff.mp (Nat.le_zero.mp hl)⟩
  | succ n ih =>
    intro p hg hl
    exact ih _ rfl (by simp only [endGrant]; rw [arbitrate_length p hg]; omega)

/-- An access leaves the port free with nothing waiting, from every state (R14). -/
theorem grantPort_idle (side : PortSide) (s : State) : PortIdle (grantPort side s) :=
  serveRequests_idle _ _ rfl (Nat.le_refl _)

/-- An access of a port that nobody waits for is granted at once and changes the last grant alone (R14). -/
theorem grantPort_eq {s : State} (side : PortSide) (h : PortIdle s) :
    grantPort side s = { s with port := { s.port with last := some side } } := by
  obtain ⟨hg, hw⟩ := h
  have e : servePort (postRequest side s.port) = { s.port with last := some side } := by
    generalize s.port = p at hg hw
    obtain ⟨l, g, w, i⟩ := p
    subst hg hw
    cases side <;> cases l <;> rfl
  simp [grantPort, e]

/-- A read of a part block leaves the last grant with the part, and nothing else changed (R14). -/
theorem partRead_eq {s : State} (h : PortIdle s) : partRead s = { s with port := { s.port with last := some .part } } :=
  grantPort_eq .part h

theorem partRead_last {s : State} (h : PortIdle s) : (partRead s).port.last = some .part := by rw [partRead_eq h]
theorem partRead_idle (s : State) : PortIdle (partRead s) := grantPort_idle .part s
theorem wr_idle (s : State) (a : Nat) (w : Word) : PortIdle (wr s a w) := grantPort_idle .part _
theorem hostStore_idle (s : State) (a : Nat) (l : Lanes) (w : Word) : PortIdle (hostStore s a l w) :=
  grantPort_idle .host _
@[simp] theorem grantPort_inactive (side : PortSide) (s : State) : (grantPort side s).port.inactive = s.port.inactive :=
  serveRequests_inactive _ _
@[simp] theorem partRead_inactive (s : State) : (partRead s).port.inactive = s.port.inactive := grantPort_inactive .part s
@[simp] theorem rd_partRead (s : State) (a : Nat) : rd (partRead s) a = rd s a := rfl

/-- A held access that writes nothing is a read, and one that writes one word is a write. -/
theorem wrHeld_nil (s : State) : wrHeld s [] = partRead s := rfl
theorem wrHeld_singleton (s : State) (a : Nat) (w : Word) : wrHeld s [(a, w)] = wr s a w := rfl

/-- R14, R16: a held access is granted once, whatever it writes: the port is as one read leaves it. -/
theorem wrHeld_port (s : State) (ws : List (Nat × Word)) : (wrHeld s ws).port = (partRead s).port := rfl
theorem wrPair_port (s : State) (a n : Nat) : (wrPair s a n).port = (partRead s).port := rfl
theorem wrHeld_idle (s : State) (ws : List (Nat × Word)) : PortIdle (wrHeld s ws) := grantPort_idle .part _

/-- A held access changes memory and the port, and nothing else. -/
theorem wrHeld_frame (s : State) (ws : List (Nat × Word)) :
    wrHeld s ws = { s with mem := (wrHeld s ws).mem, port := (partRead s).port } := rfl

/-- A held access leaves the memory that its writes leave one by one. -/
theorem wrHeld_mem (ws : List (Nat × Word)) : ∀ s : State, (wrHeld s ws).mem = (wrAll s ws).mem := by
  induction ws with
  | nil => exact fun _ => rfl
  | cons p t ih => exact fun s => ih (wr s p.1 p.2)

theorem rd_wrHeld (s : State) (ws : List (Nat × Word)) (a : Nat) : rd (wrHeld s ws) a = rd (wrAll s ws) a := by
  rw [rd, wrHeld_mem]; rfl

theorem wrAll_frame (l : List (Nat × Word)) :
    ∀ s : State, wrAll s l = { s with mem := (wrAll s l).mem, port := (wrAll s l).port } := by
  induction l with
  | nil => intro s; rfl
  | cons x t ih => intro s; rw [show wrAll s (x :: t) = wrAll (wr s x.1 x.2) t from rfl, ih]; rfl

theorem rd_wrAll_other (l : List (Nat × Word)) (k : Nat) :
    ∀ s : State, (∀ x ∈ l, x.1 ≠ k) → rd (wrAll s l) k = rd s k := by
  induction l with
  | nil => intro s _; rfl
  | cons x t ih =>
    intro s h
    rw [show wrAll s (x :: t) = wrAll (wr s x.1 x.2) t from rfl, ih _ fun y hy => h y (List.mem_cons_of_mem _ hy)]
    exact rd_wr_other s x.1 k x.2 (Ne.symm (h x List.mem_cons_self))

/-- A held access leaves every word it does not write. -/
theorem rd_wrHeld_other (s : State) (ws : List (Nat × Word)) (k : Nat) (h : ∀ x ∈ ws, x.1 ≠ k) :
    rd (wrHeld s ws) k = rd s k := by rw [rd_wrHeld, rd_wrAll_other ws k s h]

theorem writeRecord_frame (l : List Word) :
    ∀ (s : State) (a : Nat),
      writeRecord s a l = { s with mem := (writeRecord s a l).mem, port := (writeRecord s a l).port } := by
  induction l with
  | nil => intro s a; rfl
  | cons w t ih => intro s a; rw [show writeRecord s a (w :: t) = writeRecord (wr s a w) (a + 1) t from rfl, ih]; rfl

theorem writeRecord_wf (l : List Word) :
    ∀ (s : State) (a : Nat), MemWf s.mem → MemWf (writeRecord s a l).mem := by
  induction l with
  | nil => intro s a h; exact h
  | cons w t ih => intro s a h; exact ih _ _ (wr_wf s a w h)

/-- A record touches the words from its place on, one for each word of it. -/
theorem rd_writeRecord_other (l : List Word) (k : Nat) :
    ∀ (s : State) (a : Nat), (k < a ∨ a + l.length ≤ k) → rd (writeRecord s a l) k = rd s k := by
  induction l with
  | nil => intro s a _; rfl
  | cons w t ih =>
    intro s a h
    rw [List.length_cons] at h
    rw [show writeRecord s a (w :: t) = writeRecord (wr s a w) (a + 1) t from rfl, ih _ _ (by omega)]
    exact rd_wr_other s a k w (by omega)

/-- Word `j` of a record that has been written reads as written. -/
theorem rd_writeRecord_same (l : List Word) :
    ∀ (s : State) (a j : Nat) (w : Word), MemWf s.mem → l[j]? = some w → rd (writeRecord s a l) (a + j) = w := by
  induction l with
  | nil => intro s a j w _ h; simp at h
  | cons x t ih =>
    intro s a j w hm h
    rw [show writeRecord s a (x :: t) = writeRecord (wr s a x) (a + 1) t from rfl]
    cases j with
    | zero =>
      rw [rd_writeRecord_other t (a + 0) _ _ (by omega)]
      simp only [List.getElem?_cons_zero, Option.some.injEq] at h
      rw [Nat.add_zero, rd_wr_same s a x hm, h]
    | succ j =>
      rw [List.getElem?_cons_succ] at h
      rw [show a + (j + 1) = a + 1 + j by omega]
      exact ih _ _ j w (wr_wf s a x hm) h

/-! Squashes, statuses and requests. -/

theorem squash_frame (a : Addr) (r : SquashReason) (s : State) :
    squash a r s =
      { s with flags := s.flags ||| accessMask, path := { s.path with squash := (squash a r s).path.squash } } := rfl

theorem writeStatus_frame (i : Nat) (o n : RecordStatus) (s : State) :
    writeStatus i o n s = { wr s (subscriberWord i 8) (statusWord n) with
      order := { s.order with
        unreached := s.order.unreached + countsUnreached n - countsUnreached o
        held := s.order.held + countsHeld n - countsHeld o } } := rfl

theorem endFailed_frame (n : Nat) (e : RequestError) (s : State) :
    endFailed n e s = { s with
      mem := (endFailed n e s).mem, port := (endFailed n e s).port
      part := { s.part with inProgress := s.part.inProgress.filter fun p => p.1 != n } } := rfl

theorem endDone_frame (n result : Nat) (s : State) :
    endDone n result s = { s with
      mem := (endDone n result s).mem, port := (endDone n result s).port
      part := { s.part with inProgress := s.part.inProgress.filter fun p => p.1 != n } } := rfl

theorem endFailed_wf (n : Nat) (e : RequestError) (s : State) (h : MemWf s.mem) : MemWf (endFailed n e s).mem :=
  wr_wf s _ _ h

theorem endDone_wf (n result : Nat) (s : State) (h : MemWf s.mem) : MemWf (endDone n result s).mem :=
  wr_wf _ _ _ (wr_wf s _ _ h)

/-! The rings. -/

theorem validateRing_frame (n : RingName) (s : State) :
    validateRing n s = { s with
      mem := (validateRing n s).mem, port := (validateRing n s).port, writer := (validateRing n s).writer } := by
  have zero (t : State) (c : Prop) [Decidable c] (a : Nat) (w : Word) :
      (if c then wr t a w else t) = { t with
        mem := (if c then wr t a w else t).mem, port := (if c then wr t a w else t).port } := by
    split <;> rfl
  unfold validateRing
  dsimp only
  split
  · rw [zero]; cases n <;> rfl
  · split
    · cases n <;> rfl
    · split <;> cases n <;> rfl

theorem validateRings_frame (s : State) :
    validateRings s = { s with
      mem := (validateRings s).mem, port := (validateRings s).port, writer := (validateRings s).writer } := by
  have e : validateRing .journal (validateRing .log (partRead s)) = { s with
      mem := (validateRing .journal (validateRing .log (partRead s))).mem
      port := (validateRing .journal (validateRing .log (partRead s))).port
      writer := (validateRing .journal (validateRing .log (partRead s))).writer } := by
    have h₁ := validateRing_frame .log (partRead s)
    generalize validateRing .log (partRead s) = t at h₁ ⊢
    have h₂ := validateRing_frame .journal t
    generalize validateRing .journal t = u at h₂ ⊢
    rw [h₂, h₁]
    rfl
  unfold validateRings
  split
  · rfl
  · exact e

theorem setRingCopy_mem (n : RingName) (r : RingCopy) (s : State) : (setRingCopy n r s).mem = s.mem := by cases n <;> rfl

theorem noteRing_mem (n : RingName) (e t : Bool) (s : State) : (noteRing n e t s).mem = s.mem := by cases n <;> rfl

theorem validateRing_wf (n : RingName) (s : State) (h : MemWf s.mem) : MemWf (validateRing n s).mem := by
  unfold validateRing
  dsimp only
  split
  · rw [setRingCopy_mem, noteRing_mem]
    split
    · exact wr_wf _ _ _ (wr_wf _ _ _ (wr_wf s _ _ h))
    · exact wr_wf _ _ _ (wr_wf s _ _ h)
  · split
    · rw [setRingCopy_mem, noteRing_mem]
      exact wr_wf _ _ _ (wr_wf _ _ _ (wr_wf s _ _ h))
    · split <;> rw [setRingCopy_mem, noteRing_mem]
      · exact wr_wf s _ _ h
      · exact h

theorem validateRings_wf (s : State) (h : MemWf s.mem) : MemWf (validateRings s).mem := by
  unfold validateRings
  split
  · exact h
  · exact validateRing_wf _ _ (validateRing_wf _ _ h)

/-- With both copies loaded the ring control is not validated again. -/
theorem validateRings_loaded {s : State} {l j : RingCopy} (hl : s.writer.log = some l) (hj : s.writer.journal = some j) :
    validateRings s = s := by
  simp only [validateRings, hl, hj]

theorem advanceRing_frame (n : RingName) (r : RingCopy) (s : State) :
    advanceRing n r s = { s with
      mem := (advanceRing n r s).mem, port := (advanceRing n r s).port, writer := (advanceRing n r s).writer } := by
  cases n <;> rfl

theorem advanceRing_wf (n : RingName) (r : RingCopy) (s : State) (h : MemWf s.mem) : MemWf (advanceRing n r s).mem := by
  cases n <;> exact wr_wf _ _ _ (wr_wf s _ _ h)

/-- An append to the log changes memory, the Writer and, where the log is full, a flag; nothing else. -/
theorem logAppend_frame (k : LogKind) (x a b c : Nat) (s : State) :
    logAppend k x a b c s = { s with
      mem := (logAppend k x a b c s).mem, port := (logAppend k x a b c s).port
      writer := (logAppend k x a b c s).writer, flags := (logAppend k x a b c s).flags } := by
  have e := validateRings_frame s
  unfold logAppend
  generalize validateRings s = t at e ⊢
  rw [e]
  dsimp only
  split
  · rfl
  · split
    · rw [reportCondition_frame]; rfl
    · rw [advanceRing_frame, writeRecord_frame]

theorem logAppend_wf (k : LogKind) (x a b c : Nat) (s : State) (h : MemWf s.mem) :
    MemWf (logAppend k x a b c s).mem := by
  have hv := validateRings_wf s h
  unfold logAppend
  generalize validateRings s = t at hv ⊢
  dsimp only
  split
  · exact hv
  · split
    · rw [reportCondition_frame]; exact wr_wf t _ _ hv
    · exact advanceRing_wf _ _ _ (writeRecord_wf _ _ _ hv)

theorem takeJournal_frame (s : State) :
    (takeJournal s).1 = { s with
      mem := (takeJournal s).1.mem, port := (takeJournal s).1.port
      writer := (takeJournal s).1.writer, flags := (takeJournal s).1.flags } := by
  have e := validateRings_frame s
  unfold takeJournal
  generalize validateRings s = t at e ⊢
  rw [e]
  dsimp only
  split
  · rfl
  · split
    · rw [reportCondition_frame]
    · rfl

theorem takeJournal_wf (s : State) (h : MemWf s.mem) : MemWf (takeJournal s).1.mem := by
  have hv := validateRings_wf s h
  unfold takeJournal
  generalize validateRings s = t at hv ⊢
  dsimp only
  split
  · exact hv
  · split
    · rw [reportCondition_frame]; exact hv
    · exact hv

theorem journalAppend_frame (k : JournalKind) (ws : List Nat) (s : State) :
    journalAppend k ws s = { s with
      mem := (journalAppend k ws s).mem, port := (journalAppend k ws s).port
      writer := (journalAppend k ws s).writer } := by
  unfold journalAppend
  split
  · rfl
  · dsimp only
    rw [advanceRing_frame, writeRecord_frame]
    rfl

theorem journalAppend_wf (k : JournalKind) (ws : List Nat) (s : State) (h : MemWf s.mem) :
    MemWf (journalAppend k ws s).mem := by
  unfold journalAppend
  split
  · exact h
  · exact advanceRing_wf _ _ _ (writeRecord_wf _ _ _ h)

/-! The scheduler. -/

/-- A submission changes the queue, the deferred map or refresh's rest; nothing outside the scheduler. -/
theorem submit_frame (i : Nat) (s : State) : submit i s = { s with sched := (submit i s).sched } := by
  unfold submit wakeRefresh
  dsimp only
  repeat' split
  all_goals rfl

theorem wakeRefresh_frame (s : State) : wakeRefresh s = { s with sched := (wakeRefresh s).sched } := by
  unfold wakeRefresh; split <;> rfl

theorem refill_frame (s : State) : refill s = { s with sched := (refill s).sched } := by
  unfold refill; dsimp only; split <;> rfl

theorem unstopSweeps_frame (s : State) : unstopSweeps s = { s with sched := (unstopSweeps s).sched } := by
  unfold unstopSweeps; split <;> rfl

/-- The arbiter changes the link, and nothing else. -/
theorem arbiterDecide_frame (s : State) :
    arbiterDecide s = { s with sched := { s.sched with link := (arbiterDecide s).sched.link } } := by
  unfold arbiterDecide
  split
  · split <;> rfl
  · rfl

/-- The requests that end at the quiet condition change memory and the Request Engine's part. -/
theorem endQuiesces_frame (r : Nat) (l : List Nat) :
    ∀ s : State, l.foldl (fun t n => endDone n r t) s = { s with
      mem := (l.foldl (fun t n => endDone n r t) s).mem, port := (l.foldl (fun t n => endDone n r t) s).port
      part := (l.foldl (fun t n => endDone n r t) s).part } := by
  induction l with
  | nil => intro s; rfl
  | cons n t ih => intro s; rw [List.foldl_cons, ih]; rfl

theorem endQuiesces_wf (r : Nat) (l : List Nat) :
    ∀ s : State, MemWf s.mem → MemWf (l.foldl (fun t n => endDone n r t) s).mem := by
  induction l with
  | nil => intro s h; exact h
  | cons n t ih => intro s h; exact ih _ (endDone_wf n r s h)

theorem quietTest_frame (s : State) :
    quietTest s = { s with mem := (quietTest s).mem, port := (quietTest s).port, part := (quietTest s).part } := by
  unfold quietTest
  split
  · rw [endQuiesces_frame]
  · rfl

theorem quietTest_wf (s : State) (h : MemWf s.mem) : MemWf (quietTest s).mem := by
  unfold quietTest
  split
  · exact endQuiesces_wf _ _ _ h
  · exact h

/-- Outside QUIESCING the quiet condition is not tested. -/
theorem quietTest_eq_self {s : State} (h : s.part.state ≠ .quiescing) : quietTest s = s :=
  if_neg fun c => h c.2.1

/-- After an event: memory and the part may change by the quiet condition, and the link by the arbiter. -/
theorem settle_frame (s : State) :
    settle s = { s with
      mem := (settle s).mem, port := (settle s).port, part := (settle s).part
      sched := { s.sched with link := (settle s).sched.link } } := by
  unfold settle
  rw [arbiterDecide_frame, quietTest_frame]

theorem settle_wf (s : State) (h : MemWf s.mem) : MemWf (settle s).mem := by
  unfold settle
  rw [arbiterDecide_frame]
  exact quietTest_wf s h

/-- Nothing settles in a part that does not run. -/
theorem settle_eq_self {s : State} (h : running s = false) : settle s = s := by
  have hq : quietTest s = s := if_neg fun c => by rw [h] at c; exact Bool.noConfusion c.1
  unfold settle
  rw [hq]
  exact if_neg fun c => by rw [h] at c; exact Bool.noConfusion c.1

theorem sendFrame_frame (f : List Byte) (h : HandOff) (s : State) :
    sendFrame f h s = { s with sched := { s.sched with link := (sendFrame f h s).sched.link } } := by
  unfold sendFrame; split <;> rfl

/-- A frame is sent unless a reset drains the part. -/
theorem sendFrame_link (f : List Byte) (h : HandOff) (s : State) (hr : s.power.resetting = false) :
    (sendFrame f h s).sched.link = .sending f h (s.time + 8 * f.length) := by
  simp [sendFrame, hr, frameBits]

theorem dropSweep_frame (k : SweepKind) (c : Nat) (s : State) :
    dropSweep k c s = { s with
      mem := (dropSweep k c s).mem, port := (dropSweep k c s).port
      writer := (dropSweep k c s).writer, flags := (dropSweep k c s).flags } := by
  unfold dropSweep report latch
  rw [logAppend_frame]

theorem dropSweep_wf (k : SweepKind) (c : Nat) (s : State) (h : MemWf s.mem) : MemWf (dropSweep k c s).mem :=
  logAppend_wf _ _ _ _ _ s h

/-- A sweep that is opened changes the sweep table, and where one is dropped the log and a flag. -/
theorem openSweep_frame (k : SweepKind) (s : State) :
    openSweep k s = { s with
      mem := (openSweep k s).mem, port := (openSweep k s).port, writer := (openSweep k s).writer
      flags := (openSweep k s).flags
      sched := { s.sched with sweeps := (openSweep k s).sched.sweeps } } := by
  unfold openSweep
  dsimp only
  split
  · rfl
  · split
    · rfl
    · split
      · rw [dropSweep_frame]
      · split
        · rw [dropSweep_frame]
        · rfl

theorem openSweep_wf (k : SweepKind) (s : State) (h : MemWf s.mem) : MemWf (openSweep k s).mem := by
  unfold openSweep
  dsimp only
  repeat' split
  all_goals first | exact h | exact dropSweep_wf _ _ _ h

/-! The part's power. -/

theorem running_iff (s : State) :
    running s = true ↔ s.power.vcc = true ∧ s.power.resetting = false ∧ s.power.failing = false := by
  simp [running, and_assoc]

theorem started_iff (s : State) : started s = true ↔ running s = true ∧ s.part.state ≠ .starting := by
  simp [started]

/-- The state after reset is one the part runs in, at start-up step 1. -/
theorem reset_runs : running State.reset = true ∧ atStartStep 1 State.reset = true := by decide

end Sys2Proof.Machine
end

