-- ==== Sys2Proof/Laws/PerInstr.lean ====
section
/-!
SUPPORT. The family `Operands`, per command: the word a host access of a row names lies on the nineteen address lines, and it
is of the class whose words that row writes or reads (R2).
-/

namespace Sys2Proof.Laws.Operands

open Sys2Proof Sys2Proof.Machine

/-- The word that the host access of a row names. -/
def place : Instr → Option Nat
  | .hostWrite a _ _ => some (a.toNat)
  | .maskedWrite n _ _ => some (noticeAddress n)
  | .squashReasonRead _ => some (0x09)
  | .pairLowRead a _ => some (a.toNat)
  | .pairHighRead a _ => some (a.toNat)
  | .clusterFlagRead _ => some (0x06)
  | .clockSecondsRead _ => some (0x0B)
  | .clockYearRead _ => some (0x10)
  | .clockControlWrite _ _ => some (0x0A)
  | .clockWordWrite f _ _ => some (clockFieldAddress f)
  | .planCheckWordWrite _ _ => some (planCheckWord)
  | .planCheckComplete => none
  | .warningDisableClear => none
  | .requestCodeWrite n _ _ => some (requestWord n.val 0)
  | .unknownCode => none
  | .addElement => none
  | .retireElement => none
  | .setFeed => none
  | .clearLatch => none
  | .armEvent => none
  | .disarmEvent => none
  | .deskPurchase => none
  | .cancelPurchase => none
  | .closeNow => none
  | .quiesce => none
  | .resume => none
  | .unusedWrite i w _ _ => some (dropWordAddress i w)
  | .activation i _ _ => some (dropWordAddress i .tap)
  | .move i w _ _ => some (dropWordAddress i w)
  | .retire i _ _ => some (dropWordAddress i .tap)
  | .rewrite i w _ _ => some (dropWordAddress i w)
  | .feedChange i _ _ => some (subscriberWord i.val 2)
  | .orderWrite i w _ _ => some (orderWordAddress i w)
  | .lineupWordWrite k _ _ => some (0x400 + k.val)
  | .commitWordWrite _ _ => some (commitWord)
  | .lineupCheckComplete => none
  | .ringTailWrite r _ _ => some (tailAddress r)
  | .frameCompletion => none
  | .replyGrant => none
  | .retryGrant => none
  | .pollGrant => none
  | .retireGrant => none
  | .immediateGrant => none
  | .sweepGrant => none
  | .refreshGrant => none
  | .sweepVisit => none
  | .refreshVisit => none
  | .badUpstreamFrame _ => none
  | .ack _ => none
  | .status _ _ => none
  | .buy _ => none
  | .ackTimeout => none
  | .retryWaitEnd => none
  | .pollDue => none
  | .pollTimeout => none
  | .clockSecond => none
  | .minuteTick => none
  | .meterPassStart => none
  | .meteringVisit => none
  | .closeVisit => none
  | .powerUp => none
  | .pwrfail => none
  | .powerFailPortIdle => none
  | .reset => none
  | .resetEnd => none
  | .elementCensus => none
  | .subscriberCensusVisit => none
  | .slotReload => none
  | .ringControlValidation => none
  | .closeResumption => none
  | .start => none
  | .requestSlotScan => none
  | .startupEnd => none
  | .pwrfailReturningHigh => none
  | .powerLoss => none
  | .backupIntactLatchCleared => none

/-- The class of the words that a row accesses, where the row fixes it. -/
def rowClass : Instr → Option WordClass
  | .hostWrite _ _ _ => none
  | .maskedWrite _ _ _ => some .masked
  | .squashReasonRead _ => some .live
  | .pairLowRead _ _ => none
  | .pairHighRead _ _ => none
  | .clusterFlagRead _ => some .live
  | .clockSecondsRead _ => some .live
  | .clockYearRead _ => some .live
  | .clockControlWrite _ _ => some .live
  | .clockWordWrite _ _ _ => some .live
  | .planCheckWordWrite _ _ => some .watched
  | .planCheckComplete => none
  | .warningDisableClear => none
  | .requestCodeWrite _ _ _ => some .watched
  | .unknownCode => none
  | .addElement => none
  | .retireElement => none
  | .setFeed => none
  | .clearLatch => none
  | .armEvent => none
  | .disarmEvent => none
  | .deskPurchase => none
  | .cancelPurchase => none
  | .closeNow => none
  | .quiesce => none
  | .resume => none
  | .unusedWrite _ _ _ _ => some .watched
  | .activation _ _ _ => some .watched
  | .move _ _ _ _ => some .watched
  | .retire _ _ _ => some .watched
  | .rewrite _ _ _ _ => some .watched
  | .feedChange _ _ _ => some .watched
  | .orderWrite _ _ _ _ => some .watched
  | .lineupWordWrite _ _ _ => some .watched
  | .commitWordWrite _ _ => some .watched
  | .lineupCheckComplete => none
  | .ringTailWrite _ _ _ => some .watched
  | .frameCompletion => none
  | .replyGrant => none
  | .retryGrant => none
  | .pollGrant => none
  | .retireGrant => none
  | .immediateGrant => none
  | .sweepGrant => none
  | .refreshGrant => none
  | .sweepVisit => none
  | .refreshVisit => none
  | .badUpstreamFrame _ => none
  | .ack _ => none
  | .status _ _ => none
  | .buy _ => none
  | .ackTimeout => none
  | .retryWaitEnd => none
  | .pollDue => none
  | .pollTimeout => none
  | .clockSecond => none
  | .minuteTick => none
  | .meterPassStart => none
  | .meteringVisit => none
  | .closeVisit => none
  | .powerUp => none
  | .pwrfail => none
  | .powerFailPortIdle => none
  | .reset => none
  | .resetEnd => none
  | .elementCensus => none
  | .subscriberCensusVisit => none
  | .slotReload => none
  | .ringControlValidation => none
  | .closeResumption => none
  | .start => none
  | .requestSlotScan => none
  | .startupEnd => none
  | .pwrfailReturningHigh => none
  | .powerLoss => none
  | .backupIntactLatchCleared => none

/-- The word a well-formed host access names is on the address lines and of the row's class. -/
def Statement (i : Instr) : Prop :=
  i.wellFormed = true → ∀ a, place i = some a →
    (addrOf a).toNat = a ∧ ∀ k, rowClass i = some k → wordClass a = k

theorem addrOf_toNat {a : Nat} (h : a < 524288) : (addrOf a).toNat = a := by
  simp only [addrOf, BitVec.toNat_ofNat]; omega

/-- A row that names no word has nothing to say of one. -/
theorem of_no_place {i : Instr} (h : place i = none) : Statement i := by
  intro _ a ha; rw [h] at ha; cases ha

/-- A row whose word is known to lie on the lines and in its class. -/
theorem of_place {i : Instr} {b : Nat} (h : place i = some b) (hb : b < 524288)
    (hk : ∀ k, rowClass i = some k → wordClass b = k) : Statement i := by
  intro _ a ha; rw [h] at ha; cases ha; exact ⟨addrOf_toNat hb, hk⟩

/-- What is left of a chain of tests on an address once each is decided by arithmetic. -/
theorem wordClass_watched {a : Nat} (h : 0x10000 ≤ a) (h' : a < 0x30000) (hw : a % 32 < 7) : wordClass a = .watched := by
  have h₁ : planCheckWord = 0x7F := rfl
  have h₂ : commitWord = 0x580 := rfl
  unfold wordClass
  simp (disch := omega) only [if_pos, if_neg]

theorem wordClass_masked {a : Nat} (h : 0x10000 ≤ a) (h' : a < 0x30000) (hw : a % 32 = 7) : wordClass a = .masked := by
  have h₁ : planCheckWord = 0x7F := rfl
  have h₂ : commitWord = 0x580 := rfl
  unfold wordClass
  simp (disch := omega) only [if_pos, if_neg]

theorem wordClass_element {a : Nat} (h : 0x1000 ≤ a) (h' : a < 0x2000) (hw : a % 16 = 8) : wordClass a = .masked := by
  have h₁ : planCheckWord = 0x7F := rfl
  have h₂ : commitWord = 0x580 := rfl
  unfold wordClass
  simp (disch := omega) only [if_pos, if_neg]

theorem wordClass_slot {a : Nat} (h : 0x80 ≤ a) (h' : a < 0xA0) (hw : a % 4 = 0) : wordClass a = .watched := by
  unfold wordClass
  simp (disch := omega) only [if_pos, if_neg]

theorem wordClass_lineup {a : Nat} (h : 0x400 ≤ a) (h' : a ≤ 0x580) : wordClass a = .watched := by
  have h₂ : commitWord = 0x580 := rfl
  unfold wordClass
  simp (disch := omega) only [if_pos, if_neg]

theorem wordClass_subscriber (i : Fin 4096) (w : Nat) (h : w < 7) :
    wordClass (subscriberWord i.val w) = .watched := by
  have := i.isLt
  have e : subscriberWord i.val w = 0x10000 + 32 * i.val + w := rfl
  exact wordClass_watched (by omega) (by omega) (by omega)

theorem wordClass_subscriber_notice (i : Fin 4096) : wordClass (subscriberWord i.val 7) = .masked := by
  have := i.isLt
  have e : subscriberWord i.val 7 = 0x10000 + 32 * i.val + 7 := rfl
  exact wordClass_masked (by omega) (by omega) (by omega)

theorem wordClass_element_notice (i : Fin 256) : wordClass (elementWord i.val 8) = .masked := by
  have := i.isLt
  have e : elementWord i.val 8 = 0x01000 + 16 * i.val + 8 := rfl
  exact wordClass_element (by omega) (by omega) (by omega)

theorem wordClass_request (n : Fin 8) : wordClass (requestWord n.val 0) = .watched := by
  have := n.isLt
  have e : requestWord n.val 0 = 0x00080 + 4 * n.val + 0 := rfl
  exact wordClass_slot (by omega) (by omega) (by omega)

theorem subscriberWord_lt (i : Fin 4096) (w : Nat) (h : w < 32) : subscriberWord i.val w < 524288 := by
  have := i.isLt; simp only [subscriberWord]; omega

theorem hostWrite (a : Addr) (l : Lanes) (d : Word) : Statement (.hostWrite a l d) :=
  of_place rfl a.isLt (fun _ h => nomatch h)

theorem maskedWrite (n : NoticeWord) (l : Lanes) (d : Word) : Statement (.maskedWrite n l d) := by
  cases n with
  | element i =>
    exact of_place rfl (by have := i.isLt; simp only [noticeAddress, elementWord]; omega)
      (fun _ h => by cases h; exact wordClass_element_notice i)
  | subscriber i =>
    exact of_place rfl (subscriberWord_lt i 7 (by decide)) (fun _ h => by cases h; exact wordClass_subscriber_notice i)

theorem squashReasonRead (l : Lanes) : Statement (.squashReasonRead l) :=
  of_place rfl (by decide) (fun _ h => by cases h; rfl)

theorem pairLowRead (a : Addr) (l : Lanes) : Statement (.pairLowRead a l) :=
  of_place rfl a.isLt (fun _ h => nomatch h)

theorem pairHighRead (a : Addr) (l : Lanes) : Statement (.pairHighRead a l) :=
  of_place rfl a.isLt (fun _ h => nomatch h)

theorem clusterFlagRead (l : Lanes) : Statement (.clusterFlagRead l) :=
  of_place rfl (by decide) (fun _ h => by cases h; rfl)

theorem clockSecondsRead (l : Lanes) : Statement (.clockSecondsRead l) :=
  of_place rfl (by decide) (fun _ h => by cases h; rfl)

theorem clockYearRead (l : Lanes) : Statement (.clockYearRead l) :=
  of_place rfl (by decide) (fun _ h => by cases h; rfl)

theorem clockControlWrite (l : Lanes) (d : Word) : Statement (.clockControlWrite l d) :=
  of_place rfl (by decide) (fun _ h => by cases h; rfl)

theorem clockWordWrite (f : ClockField) (l : Lanes) (d : Word) : Statement (.clockWordWrite f l d) := by cases f <;> exact of_place rfl (by decide) (fun _ h => by cases h; rfl)

theorem planCheckWordWrite (l : Lanes) (d : Word) : Statement (.planCheckWordWrite l d) :=
  of_place rfl (by decide) (fun _ h => by cases h; rfl)

theorem planCheckComplete : Statement .planCheckComplete :=
  of_no_place rfl

theorem warningDisableClear : Statement .warningDisableClear :=
  of_no_place rfl

theorem requestCodeWrite (n : Fin 8) (l : Lanes) (d : Word) : Statement (.requestCodeWrite n l d) :=
  of_place rfl (by have := n.isLt; simp only [requestWord]; omega)
    (fun _ h => by cases h; exact wordClass_request n)

theorem unknownCode : Statement .unknownCode :=
  of_no_place rfl

theorem addElement : Statement .addElement :=
  of_no_place rfl

theorem retireElement : Statement .retireElement :=
  of_no_place rfl

theorem setFeed : Statement .setFeed :=
  of_no_place rfl

theorem clearLatch : Statement .clearLatch :=
  of_no_place rfl

theorem armEvent : Statement .armEvent :=
  of_no_place rfl

theorem disarmEvent : Statement .disarmEvent :=
  of_no_place rfl

theorem deskPurchase : Statement .deskPurchase :=
  of_no_place rfl

theorem cancelPurchase : Statement .cancelPurchase :=
  of_no_place rfl

theorem closeNow : Statement .closeNow :=
  of_no_place rfl

theorem quiesce : Statement .quiesce :=
  of_no_place rfl

theorem resume : Statement .resume :=
  of_no_place rfl

theorem unusedWrite (i : Fin 4096) (w : DropWord) (l : Lanes) (d : Word) : Statement (.unusedWrite i w l d) := by
  cases w with
  | tap =>
    exact of_place rfl (subscriberWord_lt i 0 (by decide))
      (fun _ h => by cases h; exact wordClass_subscriber i 0 (by decide))
  | port =>
    exact of_place rfl (subscriberWord_lt i 1 (by decide))
      (fun _ h => by cases h; exact wordClass_subscriber i 1 (by decide))

theorem activation (i : Fin 4096) (l : Lanes) (d : Word) : Statement (.activation i l d) :=
  of_place rfl (subscriberWord_lt i 0 (by decide))
    (fun _ h => by cases h; exact wordClass_subscriber i 0 (by decide))

theorem move (i : Fin 4096) (w : DropWord) (l : Lanes) (d : Word) : Statement (.move i w l d) := by
  cases w with
  | tap =>
    exact of_place rfl (subscriberWord_lt i 0 (by decide))
      (fun _ h => by cases h; exact wordClass_subscriber i 0 (by decide))
  | port =>
    exact of_place rfl (subscriberWord_lt i 1 (by decide))
      (fun _ h => by cases h; exact wordClass_subscriber i 1 (by decide))

theorem retire (i : Fin 4096) (l : Lanes) (d : Word) : Statement (.retire i l d) :=
  of_place rfl (subscriberWord_lt i 0 (by decide))
    (fun _ h => by cases h; exact wordClass_subscriber i 0 (by decide))

theorem rewrite (i : Fin 4096) (w : DropWord) (l : Lanes) (d : Word) : Statement (.rewrite i w l d) := by
  cases w with
  | tap =>
    exact of_place rfl (subscriberWord_lt i 0 (by decide))
      (fun _ h => by cases h; exact wordClass_subscriber i 0 (by decide))
  | port =>
    exact of_place rfl (subscriberWord_lt i 1 (by decide))
      (fun _ h => by cases h; exact wordClass_subscriber i 1 (by decide))

theorem feedChange (i : Fin 4096) (l : Lanes) (d : Word) : Statement (.feedChange i l d) :=
  of_place rfl (subscriberWord_lt i 2 (by decide))
    (fun _ h => by cases h; exact wordClass_subscriber i 2 (by decide))

theorem orderWrite (i : Fin 4096) (w : OrderWord) (l : Lanes) (d : Word) : Statement (.orderWrite i w l d) := by
  cases w with
  | tierSet =>
    exact of_place rfl (subscriberWord_lt i 3 (by decide))
      (fun _ h => by cases h; exact wordClass_subscriber i 3 (by decide))
  | order =>
    exact of_place rfl (subscriberWord_lt i 6 (by decide))
      (fun _ h => by cases h; exact wordClass_subscriber i 6 (by decide))

theorem lineupWordWrite (k : Fin 384) (l : Lanes) (d : Word) : Statement (.lineupWordWrite k l d) :=
  of_place rfl (by have := k.isLt; omega)
    (fun _ h => by cases h; exact wordClass_lineup (by omega) (by have := k.isLt; omega))

theorem commitWordWrite (l : Lanes) (d : Word) : Statement (.commitWordWrite l d) :=
  of_place rfl (by decide) (fun _ h => by cases h; rfl)

theorem lineupCheckComplete : Statement .lineupCheckComplete :=
  of_no_place rfl

theorem ringTailWrite (r : RingName) (l : Lanes) (d : Word) : Statement (.ringTailWrite r l d) := by cases r <;> exact of_place rfl (by decide) (fun _ h => by cases h; rfl)

theorem frameCompletion : Statement .frameCompletion :=
  of_no_place rfl

theorem replyGrant : Statement .replyGrant :=
  of_no_place rfl

theorem retryGrant : Statement .retryGrant :=
  of_no_place rfl

theorem pollGrant : Statement .pollGrant :=
  of_no_place rfl

theorem retireGrant : Statement .retireGrant :=
  of_no_place rfl

theorem immediateGrant : Statement .immediateGrant :=
  of_no_place rfl

theorem sweepGrant : Statement .sweepGrant :=
  of_no_place rfl

theorem refreshGrant : Statement .refreshGrant :=
  of_no_place rfl

theorem sweepVisit : Statement .sweepVisit :=
  of_no_place rfl

theorem refreshVisit : Statement .refreshVisit :=
  of_no_place rfl

theorem badUpstreamFrame (f : UpFrame) : Statement (.badUpstreamFrame f) :=
  of_no_place rfl

theorem ack (f : UpFrame) : Statement (.ack f) :=
  of_no_place rfl

theorem status (dt : Nat) (f : UpFrame) : Statement (.status dt f) :=
  of_no_place rfl

theorem buy (f : UpFrame) : Statement (.buy f) :=
  of_no_place rfl

theorem ackTimeout : Statement .ackTimeout :=
  of_no_place rfl

theorem retryWaitEnd : Statement .retryWaitEnd :=
  of_no_place rfl

theorem pollDue : Statement .pollDue :=
  of_no_place rfl

theorem pollTimeout : Statement .pollTimeout :=
  of_no_place rfl

theorem clockSecond : Statement .clockSecond :=
  of_no_place rfl

theorem minuteTick : Statement .minuteTick :=
  of_no_place rfl

theorem meterPassStart : Statement .meterPassStart :=
  of_no_place rfl

theorem meteringVisit : Statement .meteringVisit :=
  of_no_place rfl

theorem closeVisit : Statement .closeVisit :=
  of_no_place rfl

theorem powerUp : Statement .powerUp :=
  of_no_place rfl

theorem pwrfail : Statement .pwrfail :=
  of_no_place rfl

theorem powerFailPortIdle : Statement .powerFailPortIdle :=
  of_no_place rfl

theorem reset : Statement .reset :=
  of_no_place rfl

theorem resetEnd : Statement .resetEnd :=
  of_no_place rfl

theorem elementCensus : Statement .elementCensus :=
  of_no_place rfl

theorem subscriberCensusVisit : Statement .subscriberCensusVisit :=
  of_no_place rfl

theorem slotReload : Statement .slotReload :=
  of_no_place rfl

theorem ringControlValidation : Statement .ringControlValidation :=
  of_no_place rfl

theorem closeResumption : Statement .closeResumption :=
  of_no_place rfl

theorem start : Statement .start :=
  of_no_place rfl

theorem requestSlotScan : Statement .requestSlotScan :=
  of_no_place rfl

theorem startupEnd : Statement .startupEnd :=
  of_no_place rfl

theorem pwrfailReturningHigh : Statement .pwrfailReturningHigh :=
  of_no_place rfl

theorem powerLoss : Statement .powerLoss :=
  of_no_place rfl

theorem backupIntactLatchCleared : Statement .backupIntactLatchCleared :=
  of_no_place rfl

end Sys2Proof.Laws.Operands
end

