-- ==== Sys2Proof/Tests/Slice0.lean ====
section
/-!
SUPPORT. Tests: ill-formed commands are refused, worked examples of the spec come out as it prints them, and every
statement with hypotheses has a state that meets them.
-/

namespace Sys2Proof.Tests

set_option Elab.async false

open Sys2Proof Sys2Proof.Machine

/-! ## Helpers -/

/-- The state of a `next` outcome. -/
def after (o : Host.Outcome State Fault Refusal) : State :=
  match o with
  | .next t => t
  | _ => State.reset

/-- Memory with some words set. -/
def withWords (ws : List (Nat × Word)) (s : State) : State :=
  { s with mem := ws.foldl (fun m p => memSetWord m p.1 p.2) [] }

def upper : Lanes := { upper := true, lower := false }
def lower : Lanes := { upper := false, lower := true }
def neither : Lanes := { upper := false, lower := false }

/-- A part in SERVING: start-up complete, a plan, a line-up image and the rings loaded, VALID set. -/
def ready : State :=
  { State.reset with
    part := { State.reset.part with state := .serving, startStep := 10, censusDone := true }
    plan := { copy := some (loadPlan []), check := none, last := some .ok }
    lineup := { image := some [], edited := false, check := none, candidate := [], last := some .ok }
    clock := { State.reset.clock with valid := true }
    close := { State.reset.close with copy := some { status := .idle, cursor := 0, number := 0 } }
    writer :=
      { State.reset.writer with
        log := some { head := 0, tail := 0, sequence := 1 }, journal := some { head := 0, tail := 0, sequence := 1 } } }

/-- The same part in another part state. -/
def readyIn (p : PartState) : State := { ready with part := { ready.part with state := p } }

/-- The same part in start-up, before step `k`. -/
def starting (k : Nat) : State := { ready with part := { State.reset.part with startStep := k } }

/-- The same part with a request at the head of the queue, in slot 7. -/
def requested (code a b r : Nat) (ws : List (Nat × Word)) : State :=
  withWords ([(requestWord 7 0, wordOf (code + 256)), (requestWord 7 1, wordOf a), (requestWord 7 2, wordOf b),
      (requestWord 7 3, wordOf r)] ++ ws)
    { ready with part := { ready.part with queue := [7] } }

/-- The same part with the link granted to a class. -/
def grantedTo (c : FrameClass) : State := { ready with sched := { ready.sched with link := .granted c } }

/-- An element in use. -/
def element (address parent : Nat) (st : ElementState) : Element := { address := address, parent := parent, state := st }

/-- A pending entry of subscriber 12, tap 700, port 3. -/
def entry (ph : AckPhase) (attempts : Nat) : PendingAck :=
  { kind := .subscriber, subscriber := 12, tap := 700, port := 3, sequence := 9, command := .full, attempts := attempts
    phase := ph, deadline := 1000, completed := 40 }

/-- An outstanding poll of element 255. -/
def poll255 (ph : PollPhase) : Poll :=
  { index := 255, address := 65535, sequence := 255, phase := ph, completed := 0, deadline := 640 }

/-- Record 12 in use at tap 700, port 3, zone 4, order CONNECT, with a status word. -/
def record12 (status : Nat) : List (Nat × Word) :=
  [(subscriberWord 12 0, wordOf 700), (subscriberWord 12 1, wordOf (3 + 4 * 256)), (subscriberWord 12 6, 1),
   (subscriberWord 12 8, wordOf status)]

/-- The rings' law, from the two copies. -/
theorem ringLaw_of {s : State} {l j : RingCopy} (hl : s.writer.log = some l) (hj : s.writer.journal = some j)
    (h₁ : l.head < 512 ∧ l.tail < 512) (h₂ : j.head < 1024 ∧ j.tail < 1024) : RingLaw s := by
  refine ⟨fun n r h => ?_, by rw [hl, hj]; simp⟩
  cases n
  · rw [show ringCopy s .log = s.writer.log from rfl, hl] at h; cases h; exact h₁
  · rw [show ringCopy s .journal = s.writer.journal from rfl, hj] at h; cases h; exact h₂

/-- The rings' law where no copy is loaded. -/
theorem ringLaw_none {s : State} (hl : s.writer.log = none) (hj : s.writer.journal = none) : RingLaw s := by
  refine ⟨fun n r h => ?_, by rw [hl, hj]⟩
  cases n
  · rw [show ringCopy s .log = s.writer.log from rfl, hl] at h; cases h
  · rw [show ringCopy s .journal = s.writer.journal from rfl, hj] at h; cases h

/-! ## Well-formedness: each check refuses an ill-formed term -/

/-- The line-up words have a row of their own. -/
theorem test_wellFormed_hostWrite :
    (Instr.hostWrite 0x400 bothLanes 0).wellFormed = false ∧ (Instr.hostWrite 0x60 bothLanes 0).wellFormed = true := by
  decide

theorem test_wellFormed_pairLowRead :
    (Instr.pairLowRead 0x15 bothLanes).wellFormed = false ∧ (Instr.pairLowRead 0x14 bothLanes).wellFormed = true := by
  decide

theorem test_wellFormed_pairHighRead :
    (Instr.pairHighRead 0x14 bothLanes).wellFormed = false ∧ (Instr.pairHighRead 0x15 bothLanes).wellFormed = true := by
  decide

theorem test_wellFormed_badFrame :
    (Instr.badUpstreamFrame (ackFrame 700 3 9 1)).wellFormed = false ∧
      (Instr.badUpstreamFrame { ackFrame 700 3 9 1 with framingError := true }).wellFormed = true := by decide +kernel

theorem test_wellFormed_ack :
    (Instr.ack (statusFrame 700 9 1)).wellFormed = false ∧ (Instr.ack (ackFrame 700 3 9 1)).wellFormed = true := by
  decide +kernel

theorem test_wellFormed_status :
    (Instr.status 0 (ackFrame 700 3 9 1)).wellFormed = false ∧ (Instr.status 0 (statusFrame 700 9 1)).wellFormed = true := by
  decide +kernel

theorem test_wellFormed_buy :
    (Instr.buy (ackFrame 700 3 9 1)).wellFormed = false ∧ (Instr.buy (buyFrame 700 3 2 77)).wellFormed = true := by
  decide +kernel

/-! ## Values that the spec prints -/

/-- R181: the check value of the nine bytes 0x31 to 0x39, and of an empty sequence. -/
theorem test_crc :
    crc16 [0x31, 0x32, 0x33, 0x34, 0x35, 0x36, 0x37, 0x38, 0x39] = 0x29B1 ∧ crc16 [] = 0xFFFF := by decide +kernel

/-- 8.2: the stamp of 2024-03-15 18:30:42, and its pair. -/
theorem test_stamp :
    stampOf { seconds := 42, minutes := 30, hours := 18, day := 15, month := 3, year := 24 } = 12730710 ∧
      pairLowWord 12730710 = 0x4156 ∧ pairHighWord 12730710 = 0x00C2 := by decide

/-- R91, R182: a frame sent bit by bit on URXD comes out as its bytes. -/
theorem test_line :
    collectLine lineAtRest (upstreamBits [0x21, 0x80] ++ List.replicate 20 true) =
      [{ idle := 20, bytes := [0x21, 0x80], framingError := false, overrun := false }] := by decide

/-- R95: after a reset the rest of a frame that was under way is not collected, and the next frame is, once the line has
rested. -/
theorem test_line_after_reset :
    collectLine lineAfterReset ((upstreamBits [0x21, 0x80]).drop 5 ++ List.replicate 20 true ++ upstreamBits [0x22] ++
        List.replicate 20 true) =
      [{ idle := 20, bytes := [0x22], framingError := false, overrun := false }] := by decide

/-- R95: a bad frame that was under way when the reset ended is not counted; the one after it is. -/
theorem test_frame_under_way :
    let f (n : Nat) : UpFrame := { idle := n, bytes := [], framingError := false, overrun := false }
    (after (exec (.badUpstreamFrame (f 0)) ready)).receiver.badFrames = 0 ∧
      (after (exec (.badUpstreamFrame (f 0)) (after (exec (.badUpstreamFrame (f 0)) ready)))).receiver.badFrames = 1 ∧
      (after (exec (.badUpstreamFrame (f 20)) ready)).receiver.badFrames = 1 := by decide +kernel

/-- R138: a tick is tested against the fields of its roll, whatever the clock shows when it is handed on. -/
theorem test_tick_fields :
    let noon : Calendar := { calendarOrigin with hours := 12 }
    let s : State := { ready with
      plan := { ready.plan with copy := some { loadPlan [] with closeDay := none, closeHour := some 12, closeMinute := some 0 } } }
    closeStatus (after (exec .minuteTick { s with clock := { s.clock with ticks := [{ fields := noon, valid := true }] } })) =
        .closing ∧
      closeStatus (after (exec .minuteTick { s with clock := { s.clock with
        now := noon, ticks := [{ fields := { noon with minutes := 1 }, valid := true }] } })) = .idle := by decide +kernel

/-- R168: a journal tail write frees a stalled close, and leaves its visit to the engine. -/
theorem test_freed_close :
    let s : State := withWords [(0x123, 1), (0x124, 2)] { ready with
      close := { ready.close with copy := some { status := .closing, cursor := 12, number := 1 }, stalled := true }
      writer := { ready.writer with journal := some { head := 1, tail := 2, sequence := 9 } } }
    (after (exec (.ringTailWrite .journal bothLanes 3) s)).close = { s.close with stalled := false } ∧
      (after (exec (.ringTailWrite .journal bothLanes 2) s)).close = s.close := by decide +kernel

/-- R14: with both sides waiting and the last grant with the part, the host goes first and then the part's requests; with the
last grant with the host, the sides alternate. Nothing is left waiting. -/
theorem test_port_alternates :
    (let p : Port := { last := some .part, grant := none, waiting := [.part, .host, .part], inactive := false }
     (arbitrate p).grant = some .host ∧ (arbitrate p).waiting = [.part, .part] ∧
      arbitrate (arbitrate p) = arbitrate p ∧
      servePort p = { last := some .part, grant := none, waiting := [], inactive := false }) ∧
    (let p : Port := { last := some .host, grant := none, waiting := [.host, .part], inactive := false }
     (arbitrate p).grant = some .part ∧ (arbitrate p).waiting = [.host] ∧
      (arbitrate (endGrant (arbitrate p))).grant = some .host) := by decide

/-- R14, R83: a visit that passes its record has used the port. -/
theorem test_visit_reads :
    (after (exec .refreshVisit ready)).port.last = some .part ∧ ready.port.last = none := by decide +kernel

/-- 10.4: the subscription charges of the worked examples. -/
theorem test_charge :
    subscriptionCharge 4644 41910 43200 = 4505 ∧ subscriptionCharge 1000 1 2000 = 1 ∧
      subscriptionCharge 4644 1440 65535 = 102 ∧ subscriptionCharge 1114095 65535 65535 = 1114095 ∧
      subscriptionCharge 4644 0 0 = 0 := by decide

/-- 8.3: a held time of 2024-02-30 02:15:00 is released as 2024-02-29 02:15:00. -/
theorem test_release :
    clampCalendar { seconds := 0, minutes := 15, hours := 2, day := 30, month := 2, year := 24 } =
      { seconds := 0, minutes := 15, hours := 2, day := 29, month := 2, year := 24 } := by decide

/-- R130: the last second of a leap February, and of a century. -/
theorem test_rollover :
    nextSecond { seconds := 59, minutes := 59, hours := 23, day := 28, month := 2, year := 24 } =
      { seconds := 0, minutes := 0, hours := 0, day := 29, month := 2, year := 24 } ∧
    nextSecond { seconds := 59, minutes := 59, hours := 23, day := 31, month := 12, year := 99 } = calendarOrigin := by
  decide

/-- 5.6: refill from pointer 2,000 takes 3,000, 3,001 and 4,090, then wraps to 100 and 700; the pointer stands at 701. -/
theorem test_refill :
    (refill { ready with sched := { ready.sched with
        queue := [5], deferred := [100, 700, 3000, 3001, 4090], refillPointer := 2000 } }).sched =
      { ready.sched with queue := [5, 3000, 3001, 4090, 100, 700], deferred := [], refillPointer := 701 } := by decide

/-- 1.10: a write to the status word of subscriber 12 is squashed; the latch then holds 0x10188 and PART_WORD. -/
theorem test_squash :
    subscriberWord 12 8 = 0x10188 ∧
      after (exec (.hostWrite 0x10188 bothLanes 5) ready) =
        { ready with flags := 0x0100, path := { ready.path with squash := some (0x10188, .partWord) } } := by
  decide +kernel

/-- 1.5: a mask naming STATEMENT, the upper lane alone, clears STATEMENT and keeps CREDIT. -/
theorem test_maskedWrite :
    rd (after (exec (.maskedWrite (.subscriber 12) upper 0x0800) (withWords [(subscriberWord 12 7, 0x000C)] ready)))
      (subscriberWord 12 7) = 0x0004 := by decide +kernel

/-- 1.6: a low read of the frames-sent counter captures high 0x0001; the high read gives it after a frame completed. -/
theorem test_pair :
    (after (exec (.pairHighRead 0x15 bothLanes)
      { after (exec (.pairLowRead 0x14 bothLanes) { ready with sched := { ready.sched with framesSent := 0x0001FFFF } })
        with sched := { ready.sched with framesSent := 0x00020000 } })).bus.data = 0x0001 := by decide +kernel

/-- 11.5: a read of OUTAGE, ACCESS and LOG_FULL with the OUT count at 1 leaves OUTAGE. -/
theorem test_flagRead :
    (after (exec (.clusterFlagRead bothLanes)
      { ready with flags := 0x0901, plant := { ready.plant with outCount := 1 } })).flags = 0x0001 := by decide +kernel

/-- 7.5: element 31 with L 4 and H 3, IN_SERVICE with C 6: a timeout makes it OUT with C 14. -/
theorem test_pollTimeout :
    let s := withWords [(elementWord 31 0, 600), (elementWord 31 2, 4), (elementWord 31 3, 3), (elementWord 31 5, 6)]
      { ready with plant := { ready.plant with
          tree := [(31, element 600 0 .inService)]
          poll := some
            { index := 31, address := 600, sequence := 2, phase := .awaiting, completed := 0, deadline := 640 } } }
    let t := after (exec .pollTimeout s)
    rd t (elementWord 31 5) = 14 ∧ rd t (elementWord 31 4) = 3 ∧ t.flags = 0x0001 := by decide +kernel

/-- 7.5: from C 8 a STANDBY result brings it back with C 7. -/
theorem test_status :
    let s := withWords [(elementWord 31 0, 600), (elementWord 31 2, 4), (elementWord 31 3, 3), (elementWord 31 5, 8)]
      { ready with plant := { ready.plant with
          tree := [(31, element 600 0 .out)], outCount := 1
          poll := some
            { index := 31, address := 600, sequence := 2, phase := .awaiting, completed := 0, deadline := 640 } } }
    let t := after (exec (.status 100 (statusFrame 600 2 1)) s)
    rd t (elementWord 31 5) = 7 ∧ rd t (elementWord 31 4) = 2 ∧ rd t (elementWord 31 7) = 2 := by decide +kernel

/-- R97, R98: an ACK with APPLIED settles record 12 as FULL: word 8 keeps its attempts and takes confirmed 1, SETTLED. -/
theorem test_ack :
    rd (after (exec (.ack (ackFrame 700 3 9 1))
      (withWords (record12 (4 + 16 * 2)) { ready with tracker := { ready.tracker with table := [entry .awaiting 2] } })))
      (subscriberWord 12 8) = wordOf (1 + 16 * 2) := by decide +kernel

/-- R79: the head of the queue is served with the sequence after 255, which is 1. -/
theorem test_immediate :
    let s := withWords ((subscriberWord 12 9, 255) :: record12 0)
      { grantedTo .immediate with sched := { (grantedTo .immediate).sched with queue := [12] } }
    subRd (after (exec .immediateGrant s)) 12 9 = 1 ∧ rd (after (exec .immediateGrant s)) (subscriberWord 12 8) = 0x0014 := by
  decide +kernel

/-- R20, R21: a plan whose CRC is as expected is good with format 1 and refused with format 2. -/
theorem test_planOutcome (ws : List Word) :
    planOutcome (crcOfWords (1 :: ws)) (1 :: ws) = .ok ∧ planOutcome (crcOfWords (2 :: ws)) (2 :: ws) = .format := by
  constructor <;> (unfold planOutcome; rw [if_neg (by simp)]) <;> rfl

/-- R122: ADD_ELEMENT of element 9 at address 600 under the head end ends DONE with depth 1. -/
theorem test_addElement :
    let t := after (exec .addElement (requested 1 9 600 0 []))
    rd t (requestWord 7 0) = wordOf (1 + 3 * 256) ∧ rd t (requestWord 7 3) = 1 ∧ rd t (elementWord 9 0) = 600 := by
  decide +kernel

/-- R12, 10.6: a metering visit of a FULL record behind a lit feed. -/
theorem test_meterVisit :
    let s := withWords ((subscriberWord 12 10, 65535) :: (subscriberWord 12 11, 7) :: record12 1)
      { ready with meter := { ready.meter with running := true, cursor := 12 } }
    let t := after (exec .meteringVisit s)
    subRd t 12 10 = 65535 ∧ subRd t 12 11 = 8 ∧ subRd t 12 12 = 0 ∧ t.meter.cursor = 13 := by decide +kernel

/-- R59: an activation clears word 13, fills the directory and submits the subscriber; the idle link is granted. -/
theorem test_activation :
    let t := after (exec (.activation 12 bothLanes 700) (withWords [(subscriberWord 12 13, 99)] ready))
    subRd t 12 13 = 0 ∧ holderOf t 700 0 = some 12 ∧ t.sched.queue = [12] ∧ t.sched.link = .granted .immediate := by
  decide +kernel

/-- R24, R136: a power-up that finds the backup lost. -/
theorem test_powerUp :
    after (exec .powerUp { ready with clock := { ready.clock with backupIntact := false } }) =
      { State.reset with plan := { State.reset.plan with check := some { expected := 0, words := [] } } } := by
  decide +kernel

/-- R180: LINEUP alone latched does not assert ALERT through a mask of zeros. -/
theorem test_alert :
    alertAsserted { ready with flags := 0x0080 } = false ∧ alertAsserted { State.reset with flags := 0x0080 } = true := by
  decide +kernel

/-! ## States that meet the hypotheses of the statements -/

theorem ready_rings : RingLaw ready := ringLaw_of rfl rfl (by decide) (by decide)

theorem witness_StepRunsTheFrontCommand : State.reset.pending = [] := rfl

/-- The invariants have a state that keeps them and takes a step. -/
theorem witness_MemoryStaysCanonical_QueueAndMapStayDisjoint_EveryStepKeepsTheBounds :
    step State.reset = .next State.reset ∧ MemWf State.reset.mem ∧ QueueLaw State.reset ∧ CapacityLaw State.reset ∧
      RingLaw State.reset ∧ PlantLaw State.reset ∧ SlotLaw State.reset ∧ MeterLaw State.reset ∧
      ClockLaw State.reset ∧ AckLaw State.reset ∧ CursorLaw State.reset ∧ QuietLaw State.reset := by
  refine ⟨rfl, by decide, by unfold QueueLaw; decide, by unfold CapacityLaw; decide, ringLaw_none rfl rfl,
    ⟨by decide, by decide, fun p h => ?_⟩, ⟨by decide, by decide, by decide, fun n h => ?_, by decide, by decide⟩,
    by unfold MeterLaw; decide, by unfold ClockLaw CalendarLaw; decide,
    ⟨by decide, fun h => Link.noConfusion h, fun h => Link.noConfusion h⟩,
    ⟨by decide, by decide, by decide, by decide, by decide, by decide, fun k h => ?_⟩,
    fun _ h => PartState.noConfusion h⟩
  · cases (show (none : Option Poll) = some p from h)
  · cases (show (none : Option Nat) = some n from h)
  · cases (show (none : Option CloseCopy) = some k from h)

theorem witness_PartStateMovesOnlyAsGiven :
    ∃ t, exec .startupEnd (starting 10) = .next t ∧ (starting 10).part.state ≠ t.part.state :=
  ⟨_, rfl, by decide +kernel⟩

/-- A part QUIESCING with a frame in flight becomes QUIESCED at the frame's completion. -/
theorem witness_PartStateMovesOnlyAsGiven_quiet :
    let s : State := { readyIn .quiescing with sched := { ready.sched with link := .sending [0x13] .nobody 8 } }
    isQuiet s = false ∧ canQuiet .frameCompletion = true ∧
      (after (exec .frameCompletion s)).part.state = .quiesced ∧ isQuiet (after (exec .frameCompletion s)) = true := by
  decide +kernel

theorem witness_FlagsLatchAndDriveAlert :
    (Instr.closeVisit.wellFormed = true ∧ ∃ t, exec .closeVisit { ready with flags := 0x8001 } = .next t ∧
      ({ ready with flags := 0x8001 } : State).flags.getLsbD Flag.closeLate.bit = true) ∧
    ((Instr.lineupWordWrite 383 upper 0x8000).wellFormed = true ∧
      ∃ t, exec (.lineupWordWrite 383 upper 0x8000) ready = .next t ∧ t.part.state ≠ .starting ∧
        condition ready .lineup = false ∧ condition t .lineup = true) :=
  ⟨⟨rfl, _, rfl, by decide⟩, rfl, _, rfl, by decide +kernel, by decide +kernel, by decide +kernel⟩

theorem witness_StartingHostWritesReachPlainWordsOnly :
    State.reset.part.state = .starting ∧ (∃ t, exec (.hostWrite 0x7E bothLanes 5) State.reset = .next t) ∧
      wordClass 0x7F ≠ .plain := ⟨rfl, ⟨_, rfl⟩, by decide⟩

theorem witness_DeadAndSquashedAccesses :
    running { ready with power := { ready.power with failing := true } } = false ∧ noLanes neither = true ∧
    running ready = true ∧ noLanes upper = false ∧
    (inLiveBlock 0x3F = true ∧ clockFieldAt 0x3F = none) ∧
    (inLiveBlock 0x10 = true ∧ clockFieldAt 0x10 ≠ none ∧ ready.clock.set = false) ∧
    (inHeadEndRecord 0x1000 = true ∧ inHeadEndRecord 0x100F = true) ∧
    (inLiveBlock 0x7F = false ∧ inHeadEndRecord 0x7F = false ∧ wordClass 0x7F ≠ .plain ∧
      running (starting 9) = true ∧ (starting 9).part.state = .starting) ∧
    (inHeadEndRecord 0x1014 = false ∧ wordClass 0x1014 = .part ∧ ready.part.state ≠ .starting) := by decide

theorem witness_PlainWritesLand :
    (MemWf ready.mem ∧ wordClass 0x7E = .plain ∧ inHeadEndRecord 0x7E = false ∧ ready.plan.check = none) ∧
    (wordClass 0x7FFFF = .plain ∧ isPlanWord 0x7FFFF = false) ∧
    (isPlanWord 0x40 = true ∧ isPlanWord 0x7E = true ∧ running State.reset = true ∧
      State.reset.plan.check = some { expected := 0, words := [] }) := by decide

/-- The first and the last of each group of WATCHED words whose writes always pass. -/
theorem witness_PlainWritesLand_passed :
    MemWf ready.mem ∧ running ready = true ∧ noLanes lower = false ∧ ready.part.state ≠ .starting ∧
      ∀ a ∈ [slotWord 0 0, slotWord 7 5, elementWord 1 2, elementWord 255 3, subscriberWord 0 4, subscriberWord 4095 5],
        wordClass a = .watched ∧ (addrOf a).toNat = a := by decide

theorem witness_MaskedWriteMergesByMask :
    MemWf ready.mem ∧ running ready = true ∧ noLanes lower = false ∧ ready.part.state ≠ .starting ∧
      NoticeWord.element 255 ≠ .element 0 ∧ NoticeWord.subscriber 4095 ≠ .element 0 := by decide

theorem witness_LiveReadsHaveTheirEffects :
    running ready = true ∧ noLanes upper = false ∧
      ({ ready with path := { ready.path with squash := some (0x10188, .partWord) } } : State).path.squash =
        some (0x10188, .partWord) := by decide

theorem witness_PairReadsUseTheLatch :
    running ready = true ∧ noLanes upper = false ∧ isPairLow (0x07 : Addr).toNat = true ∧
      isPairLow (0x2FFA : Addr).toNat = true ∧ isPairLow (0x2FFF6 : Addr).toNat = true ∧
      ({ ready with path := { ready.path with pair := some (0x07, 9) } } : State).path.pair = some (0x07, 9) ∧
      ready.path.pair = none := by decide

/-- A full squash latch, and a pair of each kind. -/
theorem witness_PairReadsUseTheLatch_live :
    ({ ready with path := { ready.path with squash := some (0x10188, .partWord) } } : State).path.squash =
        some (0x10188, .partWord) ∧ ready.path.squash = none ∧
      ∀ a ∈ [0x07, 0x14, 0x16, 0x18, 0x2FFA], isPairLow a = true := by decide

theorem witness_PairHalvesBelongTogether :
    isPairLow (0x18 : Addr).toNat = true ∧ ∃ t, exec (.pairLowRead 0x18 bothLanes) ready = .next t ∧ running t = true ∧
      t.path.pair = t.path.pair := ⟨by decide, _, rfl, by decide +kernel, rfl⟩

/-- The part with SET held. -/
def held : State := { ready with clock := { ready.clock with set := true } }

theorem witness_ClockWritesNeedTheHold_ControlWriteReleasesTheClock :
    MemWf held.mem ∧ RingLaw held ∧ running held = true ∧ noLanes lower = false ∧
      held.clock.set = true ∧ ready.clock.set = false ∧ (0xFFFE : Word).getLsbD 0 = false ∧
      (1 : Word).getLsbD 0 = held.clock.set ∧ (1 : Word).getLsbD 0 = true ∧
      ringFull .log { head := 0, tail := 0, sequence := 1 } = false :=
  ⟨by decide, ringLaw_of rfl rfl (by decide) (by decide), by decide, by decide, by decide, by decide, by decide, by decide,
    by decide, by decide⟩

/-- Slots that an evaluation at a stamp of 10 or more moves: 0 through both transitions, 6 to SHOWING, 7 to CLOSED. -/
def withDueSlots (s : State) : State :=
  let a (st : SlotState) (start : Nat) (finish : Nat) : ArmedSlot :=
    { state := st, event := 5, startStamp := start, endStamp := finish, cutoff := 1, price := 300 }
  { s with slots := { s.slots with armed :=
      [(0, a .open 0 10), (5, a .open 600 700), (6, a .open 10 700), (7, a .showing 0 10)] } }

/-- The sweeps of those slots. -/
def dueSweeps : List SweepKind := [.eventStart 0 5, .eventEnd 0 5, .eventStart 6 5, .eventEnd 7 5]

/-- A held clock is released in STARTING, where the slots wait, and in SERVING with transitions due. -/
theorem witness_ControlWriteReleasesTheClock_states :
    (let s : State := { held with part := (starting 4).part }
     running s = true ∧ s.part.state = .starting ∧ s.clock.set = true) ∧
    (let s : State := withDueSlots { held with clock := { held.clock with now := { calendarOrigin with minutes := 10 } } }
     let u := after (exec (.clockControlWrite lower 0) s)
     s.part.state ≠ .starting ∧ openedSweeps s 10 = dueSweeps ∧ stampOf u.clock.now = 10 ∧
      u.sched.sweeps = dueSweeps.map newSweep ∧ (rd u (slotWord 0 6)).toNat = 3 ∧ (rd u (slotWord 6 6)).toNat = 2 ∧
      openedSweeps held 10 = []) := by decide +kernel

theorem witness_PlanAndLineupWritesAreObserved :
    MemWf ready.mem ∧ RingLaw ready ∧ running ready = true ∧ noLanes upper = false ∧ ready.part.state ≠ .starting ∧
      ready.lineup.check = none ∧
      ({ ready with lineup := { ready.lineup with check := some 3 } } : State).lineup.check ≠ none :=
  ⟨by decide, ready_rings, by decide⟩

/-- A part without a plan whose check has read every word, expecting `e`. -/
def planChecking (ws : List Word) (e : Word) : State :=
  { readyIn .unplanned with plan := { copy := none, check := some { expected := e, words := ws }, last := none } }

theorem witness_PlanCheckLoadsAndClearsWarnings (e : Word) :
    let ws := (1 : Word) :: List.replicate 62 0
    (MemWf (planChecking ws e).mem ∧ RingLaw (planChecking ws e) ∧ running (planChecking ws e) = true ∧
      (planChecking ws e).plan.check = some { expected := e, words := ws } ∧
      (e = crcOfWords ws → crcOfWords (ws ++ planWordsFrom (planChecking ws e) ws.length) = e) ∧
      (e ≠ crcOfWords ws → crcOfWords (ws ++ planWordsFrom (planChecking ws e) ws.length) ≠ e) ∧
      (ws.getD 0 0).toNat = 1) ∧
    (let s : State := { ready with plant := { ready.plant with
      clearSlow := true, tree := [(1, element 600 0 .inService), (255, element 601 1 .out)] } }
     MemWf s.mem ∧ running s = true ∧ s.plant.clearSlow = true ∧ (s.plant.tree.map Prod.fst).Nodup) := by
  have h (ws : List Word) (hw : ws.length = 63) : ws ++ planWordsFrom (planChecking ws e) ws.length = ws := by
    rw [hw]; exact List.append_nil ws
  dsimp only
  rw [h _ (by simp)]
  exact ⟨⟨(by decide : MemWf []), ringLaw_of rfl rfl (by decide) (by decide), rfl, rfl, fun x => x.symm, fun x => Ne.symm x, rfl⟩,
    by decide⟩

/-- A check that fails by its format, one that passes in SERVING and newly disables SLOW, and one at start-up step 1. -/
theorem witness_PlanCheckLoadsAndClearsWarnings_outcomes :
    let ws := (2 : Word) :: List.replicate 62 0
    let good := [(1 : Word), 0, 0, 0, 0, 1] ++ List.replicate 57 0
    let s (w : List Word) : State := { ready with plan := { ready.plan with check := some { expected := crcOfWords w, words := w } } }
    let u : State := { s good with part := (starting 1).part }
    planWordsFrom (s ws) 63 = [] ∧ ws.length = 63 ∧ good.length = 63 ∧ (ws.getD 0 0).toNat ≠ 1 ∧
      (good.getD 0 0).toNat = 1 ∧ (loadPlan good).slowDisabled = true ∧
      (s good).plan.copy = some (loadPlan []) ∧ (loadPlan []).slowDisabled = false ∧
      (s good).part.state ≠ .unplanned ∧ running u = true ∧ u.part.state = .starting ∧ u.part.startStep = 1 := by
  decide +kernel

/-- A part whose commit check has read a table, expecting `e`. -/
def commitChecking (ws : List Word) (e : Word) : State :=
  { ready with lineup := { ready.lineup with check := some e, candidate := ws } }

theorem witness_LineupCheckValidatesAndLoads :
    MemWf (commitChecking [] 0xFFFF).mem ∧ RingLaw (commitChecking [] 0xFFFF) ∧ running (commitChecking [] 0xFFFF) = true ∧
      QuietLaw (commitChecking [] 0xFFFF) ∧
      (let s : State := { commitChecking [] 0xFFFF with
        part := (readyIn .quiescing).part, plant := { ready.plant with poll := some (poll255 .awaiting) } }
       QuietLaw s ∧ running s = true) ∧ (commitChecking [] 0xFFFF).sched.sweeps.length < 4 ∧
      crcOfWords [] = 0xFFFF ∧ crcOfWords [] ≠ 0 ∧ validateEntries [] (lineupEntries []) = none ∧
      validateEntries [] (lineupEntries [0, 0x1001]) = some (.tierRange, 0) :=
  ⟨by decide, ringLaw_of rfl rfl (by decide) (by decide), by unfold QuietLaw; decide +kernel⟩

/-- An enabled position of a kind. -/
def position (k : EntryKind) (argument : Nat) : LineupEntry :=
  { enabled := true, channel := 999, kind := k, argument := argument, zones := 0, frequency := 1023 }

theorem witness_EntitlementFollowsTheRule :
    (State.reset.lineup.image = none) ∧ (List.replicate 96 (position .event 7)).length = 96 ∧
      (List.replicate 96 (position .event 7))[95]? = some (position .event 7) ∧
      (List.replicate 96 (position .event 7))[0]? = some (position .event 7) ∧ PortState.barker ≠ .off := by decide

/-- Orders of CONNECT, SUSPEND, DISCONNECT and NONE. -/
theorem witness_EntitlementFollowsTheRule_orders :
    ∀ n ∈ [0, 1, 2, 3], field (subRd (withWords [(subscriberWord 4095 6, wordOf n)] ready) 4095 6) 0 2 = n := by
  decide +kernel

theorem witness_RequestCodeWritePostsOrSquashes :
    MemWf ready.mem ∧ running ready = true ∧ noLanes upper = false ∧ ready.part.state ≠ .starting ∧
      7 ∈ (requested 1 0 0 0 []).part.queue ∧ 0 ∉ (requested 1 0 0 0 []).part.queue ∧
      (∀ r, (0, r) ∉ ready.part.inProgress) := by
  refine ⟨by decide, by decide, by decide, by decide, by decide, by decide, fun r h => ?_⟩
  exact absurd (show (0, r) ∈ [] from h) (by simp)

theorem witness_RefusedRequestsFail :
    (MemWf (requested 12 0 0 0 []).mem ∧ started (requested 12 0 0 0 []) = true ∧
      (requested 12 0 0 0 []).part.queue = 7 :: [] ∧ 11 < requestCode (requested 12 0 0 0 []) 7 ∧
      requestCode (requested 0 0 0 0 []) 7 = 0) ∧
    (AtHead .resume 7 [] (requested 11 0 0 0 []) ∧ (requested 11 0 0 0 []).part.state = .serving) ∧
    (let s := requested 7 0 0 0 []
     let u : State := { s with part := { s.part with state := .unplanned } }
     let q : State := { s with part := { s.part with state := .quiesced } }
     AtHead .deskPurchase 7 [] u ∧ u.part.state = .unplanned ∧ AtHead .deskPurchase 7 [] q ∧ q.part.state ≠ .serving) := by
  unfold AtHead; decide +kernel

theorem requested_rings (c a b r : Nat) (ws : List (Nat × Word)) : RingLaw (requested c a b r ws) :=
  ringLaw_of rfl rfl (by decide) (by decide)

/-- A request at the head, with elements in use. -/
def withTree (t : List (Nat × Element)) (s : State) : State := { s with plant := { s.plant with tree := t } }

theorem witness_ElementsJoinAndLeaveTheTree :
    (let s := withTree [(254, element 601 0 .inService)] (requested 1 255 65535 254 [])
     MemWf s.mem ∧ AtHead .addElement 7 [] s ∧ s.part.state ≠ .unplanned ∧ argA s 7 = 255 ∧ argB s 7 = 65535 ∧
      argResult s 7 = 254 ∧ elementInUse s.plant.tree 255 = false ∧ (∀ p ∈ s.plant.tree, p.2.address ≠ 65535) ∧
      elementInUse s.plant.tree 254 = true ∧ depthOf s.plant.tree 254 < 8) ∧
    (let s := withTree [(255, element 600 0 .latchedOut)] (requested 2 255 0 0 [])
     MemWf s.mem ∧ AtHead .retireElement 7 [] s ∧ s.part.state ≠ .unplanned ∧ argA s 7 = 255 ∧
      tableGet s.plant.tree 255 = some (element 600 0 .latchedOut) ∧ (∀ p ∈ s.plant.tree, p.2.parent ≠ 255) ∧
      countOf s.order.direct 255 = 0) := by unfold AtHead; decide +kernel

/-- Each test of ADD_ELEMENT and of RETIRE_ELEMENT fails in a state that passes those before it. -/
theorem witness_ElementsJoinAndLeaveTheTree_failures :
    let deep : Tree := (List.range 8).map fun k => (k + 1, element (600 + k) k .inService)
    let add (i a p : Nat) : State := withTree deep (requested 1 i a p [])
    let leave (i : Nat) : State := withTree deep (requested 2 i 0 0 [])
    (∀ s ∈ [add 0 9 0, add 256 9 0, add 9 9 256, add 8 9 0, add 9 0 0, add 9 607 0, add 9 9 10, add 9 9 8],
      MemWf s.mem ∧ AtHead .addElement 7 [] s ∧ s.part.state ≠ .unplanned) ∧
    elementInUse deep 8 = true ∧ elementInUse deep 9 = false ∧ elementInUse deep 10 = false ∧ depthOf deep 8 = 8 ∧
    (∃ p ∈ deep, p.2.address = 607) ∧ (∀ p ∈ deep, p.2.address ≠ 9) ∧
    (∀ s ∈ [leave 0, leave 256, leave 9, leave 7, leave 8],
      MemWf s.mem ∧ AtHead .retireElement 7 [] s ∧ s.part.state ≠ .unplanned) ∧
    (∃ p ∈ deep, p.2.parent = 7) ∧ (∀ p ∈ deep, p.2.parent ≠ 8) ∧
    (let s : State := { leave 8 with order := { ready.order with direct := [(8, 1)] } }
     AtHead .retireElement 7 [] s ∧ 0 < countOf s.order.direct 8) := by unfold AtHead; decide +kernel

theorem witness_SetFeedMovesTheElement :
    (let s := withTree [(4, element 600 0 .out), (9, element 601 4 .inService)] (requested 3 9 0 0 [])
     MemWf s.mem ∧ AtHead .setFeed 7 [] s ∧ s.part.state ≠ .unplanned ∧ argA s 7 = 9 ∧ argB s 7 = 0 ∧
      tableGet s.plant.tree 9 = some (element 601 4 .inService) ∧ elementInUse s.plant.tree 0 = true ∧
      inSubtree s.plant.tree 9 0 = false ∧ depthOf s.plant.tree 0 + levelsOf s.plant.tree 9 ≤ 8 ∧
      isDark s.plant.tree 9 = true ∧ isDark (treeSetParent s.plant.tree 9 0) 9 = false) ∧
    (let s := withTree [(4, element 600 0 .inService), (9, element 601 0 .inService)] (requested 3 9 4 0 [])
     AtHead .setFeed 7 [] s ∧ argB s 7 = 4 ∧ elementInUse s.plant.tree 4 = true ∧ inSubtree s.plant.tree 9 4 = false ∧
      isDark s.plant.tree 9 = false) := by unfold AtHead; decide +kernel

/-- An element moves from under one OUT element to another, and stays dark. -/
theorem witness_SetFeedMovesTheElement_dark :
    let s := withTree [(4, element 600 0 .out), (5, element 602 0 .out), (9, element 601 4 .inService)] (requested 3 9 5 0 [])
    MemWf s.mem ∧ AtHead .setFeed 7 [] s ∧ s.part.state ≠ .unplanned ∧ argA s 7 = 9 ∧ argB s 7 = 5 ∧
      tableGet s.plant.tree 9 = some (element 601 4 .inService) ∧ elementInUse s.plant.tree 5 = true ∧
      inSubtree s.plant.tree 9 5 = false ∧ depthOf s.plant.tree 5 + levelsOf s.plant.tree 9 ≤ 8 ∧
      isDark s.plant.tree 9 = true ∧ isDark (treeSetParent s.plant.tree 9 5) 9 = true ∧ s.sched.sweeps.length < 4 := by
  unfold AtHead; decide +kernel

/-- Each test of SET_FEED fails in a state that passes those before it, and an element already has its parent. -/
theorem witness_SetFeedMovesTheElement_failures :
    let deep : Tree := (List.range 8).map fun k => (k + 1, element (600 + k) k .inService)
    let move (i p : Nat) : State := withTree ((255, element 700 0 .inService) :: deep) (requested 3 i p 0 [])
    (∀ s ∈ [move 0 1, move 256 1, move 1 256, move 9 1, move 1 9, move 2 4, move 2 2, move 255 8, move 2 1],
      MemWf s.mem ∧ AtHead .setFeed 7 [] s ∧ s.part.state ≠ .unplanned) ∧
    (let t := (move 2 4).plant.tree
     elementInUse t 9 = false ∧ inSubtree t 2 4 = true ∧ inSubtree t 2 2 = true ∧ inSubtree t 255 8 = false ∧
      8 < depthOf t 8 + levelsOf t 255 ∧ tableGet t 2 = some (element 601 1 .inService) ∧ inSubtree t 2 1 = false ∧
      depthOf t 1 + levelsOf t 2 ≤ 8) := by unfold AtHead; decide +kernel

theorem witness_ClearLatchReleasesTheElement :
    let s := withTree [(9, element 601 0 .latchedOut)] (requested 4 9 0 0 [])
    MemWf s.mem ∧ AtHead .clearLatch 7 [] s ∧ s.part.state ≠ .unplanned ∧ argA s 7 = 9 ∧
      tableGet s.plant.tree 9 = some (element 601 0 .latchedOut) ∧
      isDark (treeSetState s.plant.tree 9 .unpolled) 9 = false ∧ s.sched.sweeps.length < 4 ∧
      isDark [(4, element 600 0 .out), (9, element 601 4 .unpolled)] 9 = true := by unfold AtHead; decide +kernel

/-- Each test of CLEAR_LATCH fails in a state that passes those before it. -/
theorem witness_ClearLatchReleasesTheElement_failures :
    (∀ i ∈ [0, 256, 254, 255],
      let s := withTree [(255, element 601 0 .out)] (requested 4 i 0 0 [])
      MemWf s.mem ∧ AtHead .clearLatch 7 [] s ∧ s.part.state ≠ .unplanned ∧ argA s 7 = i ∧
        tableGet s.plant.tree 254 = none ∧ tableGet s.plant.tree 255 = some (element 601 0 .out)) := by
  unfold AtHead; decide +kernel

/-- The armed copy of slot 7 in a state: event 5, start 10, end 20, cutoff 10, price 300. -/
def withSlot (st : SlotState) (s : State) : State :=
  { s with
    slots := { s.slots with armed :=
      [(7, { state := st, event := 5, startStamp := 10, endStamp := 20, cutoff := 10, price := 300 })] }
    lineup := { s.lineup with image := some [position .event 7] } }

/-- Slot 7's times as ARM_EVENT reads them: start 10, end 20, cutoff 10. -/
def slotTimes (event : Nat) : List (Nat × Word) :=
  [(slotWord 7 0, 10), (slotWord 7 2, 20), (slotWord 7 4, 10), (slotWord 7 7, wordOf event)]

theorem witness_ArmEventArmsTheSlot_DisarmEventFreesTheSlot :
    (∀ n ∈ [65535, 65534],
      let s := withSlot .idle (requested 5 7 0 0 (slotTimes n))
      MemWf s.mem ∧ AtHead .armEvent 7 [] s ∧ s.part.state ≠ .unplanned ∧ argA s 7 = 7 ∧ s.clock.valid = true ∧
        rdPair s (slotWord 7 0) < rdPair s (slotWord 7 2) ∧ currentStamp s < rdPair s (slotWord 7 2) ∧
        (rd s (slotWord 7 4)).toNat ≤ rdPair s (slotWord 7 2) - rdPair s (slotWord 7 0) ∧ s.lineup.image = some [position .event 7] ∧
        slotState s 7 = .idle) ∧
    (let s (st : SlotState) := withSlot st (requested 6 7 0 0 [])
     AtHead .disarmEvent 7 [] (s .closed) ∧ argA (s .closed) 7 = 7 ∧ slotState (s .closed) 7 = .closed ∧
      slotState (s .open) 7 = .open ∧ rd (s .open) (slotWord 7 8) = 0 ∧ slotState (s .idle) 7 = .idle ∧
      slotState (s .showing) 7 = .showing) ∧
    AtHead .disarmEvent 7 [] (requested 6 8 0 0 []) ∧ argA (requested 6 8 0 0 []) 7 = 8 := by
  unfold AtHead; decide +kernel

/-- Each test of ARM_EVENT fails in a state that passes those before it: a slot number of 8, VALID clear, an end at the start, an
end at the current stamp, a cutoff past the end, no entry that names the slot, and a slot that is not IDLE. -/
theorem witness_ArmEventArmsTheSlot_failures :
    let arm (k start finish cutoff : Nat) : State := withSlot .idle (requested 5 k 0 0
      [(slotWord 7 0, wordOf start), (slotWord 7 2, wordOf finish), (slotWord 7 4, wordOf cutoff)])
    let unset : State := { arm 7 10 20 10 with clock := State.reset.clock }
    let past : State := { arm 7 10 20 10 with clock := { ready.clock with now := { calendarOrigin with minutes := 20 } } }
    let other : State := { arm 7 10 20 10 with lineup := { ready.lineup with image := some [position .event 6, position .tier 7] } }
    let armed := withSlot .closed (arm 7 10 20 10)
    (∀ s ∈ [arm 8 10 20 10, unset, arm 7 20 20 0, past, arm 7 10 20 11, other, armed],
      MemWf s.mem ∧ AtHead .armEvent 7 [] s ∧ s.part.state ≠ .unplanned) ∧
    unset.clock.valid = false ∧ past.clock.valid = true ∧ currentStamp past = rdPair past (slotWord 7 2) ∧
    slotState armed 7 = .closed ∧ armed.lineup.image = some [position .event 7] := by unfold AtHead; decide +kernel

/-- Record 12 connected at tap 700, port 3, with a credit limit, asking for slot 7. -/
def buying (st : SlotState) (credit : Nat) : State :=
  withSlot st (requested 7 12 7 0 ((subscriberWord 12 5, wordOf credit) :: record12 1))

theorem witness_DeskPurchaseChecksThenFills :
    (let s := buying .open 300
     MemWf s.mem ∧ RingLaw s ∧ AtHead .deskPurchase 7 [] s ∧ s.part.state = .serving ∧ argA s 7 = 12 ∧ argB s 7 = 7 ∧
      s.clock.valid = true ∧ servable s 12 = true ∧ (subStatus s 12).confirmed = .full ∧ slotState s 7 = .open ∧
      livePlaceOf s 12 7 = none ∧ freePlace s 12 = some 0 ∧ (armedOf s 7).price = 300 ∧
      (subRd s 12 13).toNat + 300 ≤ (subRd s 12 5).toNat ∧ s.writer.log = some { head := 0, tail := 0, sequence := 1 } ∧
      s.writer.journal = some { head := 0, tail := 0, sequence := 1 } ∧
      ringFull .journal { head := 0, tail := 0, sequence := 1 } = false) ∧
    (slotState (buying .showing 300) 7 = .showing ∧
      currentStamp (buying .showing 300) < (armedOf (buying .showing 300) 7).startStamp + 10) ∧
    ((subRd (buying .open 299) 12 5).toNat < (subRd (buying .open 299) 12 13).toNat + (armedOf (buying .open 299) 7).price ∧
      purchasable (buying .open 299) 7 = true ∧ purchasable (buying .idle 300) 7 = false) := by
  refine ⟨⟨by decide +kernel, ringLaw_of rfl rfl (by decide) (by decide), ?_⟩, ?_⟩
  · unfold AtHead; decide +kernel
  · decide +kernel

theorem witness_CancelPurchaseRefunds :
    let s := withSlot .open (requested 8 12 7 0
      ((subscriberWord 12 14, 0x8007) :: (subscriberWord 12 15, 5) :: (subscriberWord 12 13, 300) :: record12 1))
    MemWf s.mem ∧ RingLaw s ∧ AtHead .cancelPurchase 7 [] s ∧ s.part.state = .serving ∧ argA s 7 = 12 ∧ argB s 7 = 7 ∧
      inUse s 12 = true ∧ slotState s 7 = .open ∧ livePlaceOf s 12 7 = some 0 ∧ (armedOf s 7).price = 300 ∧
      s.writer.journal = some { head := 0, tail := 0, sequence := 1 } :=
  ⟨by decide +kernel, ringLaw_of rfl rfl (by decide) (by decide), by unfold AtHead; decide +kernel⟩

theorem witness_CancelPurchaseRefunds_failures :
    let bad := requested 8 4096 7 0 []
    let idle := requested 8 12 7 0 (record12 1)
    let full : State := { withSlot .open (requested 8 12 7 0
        ((subscriberWord 12 14, 0x8007) :: (subscriberWord 12 15, 5) :: record12 1)) with
      writer := { ready.writer with journal := some { head := 1023, tail := 0, sequence := 1 } } }
    AtHead .cancelPurchase 7 [] bad ∧ argA bad 7 = 4096 ∧ MemWf idle.mem ∧ AtHead .cancelPurchase 7 [] idle ∧
      inUse idle 12 = true ∧ inUse (requested 8 12 7 0 []) 12 = false ∧ slotState idle 7 ≠ .open ∧
      AtHead .cancelPurchase 7 [] full ∧ slotState full 7 = .open ∧ livePlaceOf full 12 7 = some 0 ∧
      full.writer.journal = some { head := 1023, tail := 0, sequence := 1 } ∧
      ringFull .journal { head := 1023, tail := 0, sequence := 1 } = true := by unfold AtHead; decide +kernel

theorem witness_CloseNowBeginsAClose :
    let s := requested 9 0 0 0 []
    let t : State := { s with close := { s.close with copy := some { status := .closing, cursor := 4096, number := 65535 } } }
    MemWf s.mem ∧ RingLaw s ∧ AtHead .closeNow 7 [] s ∧ s.part.state ≠ .unplanned ∧
      s.close.copy = some { status := .idle, cursor := 0, number := 0 } ∧ AtHead .closeNow 7 [] t ∧
      t.close.copy = some { status := .closing, cursor := 4096, number := 65535 } :=
  ⟨by decide +kernel, requested_rings .., by unfold AtHead; decide +kernel⟩

theorem witness_QuiesceAndResume :
    (let s := requested 10 0 0 0 []
     let at_ (p : PartState) : State := { s with part := { s.part with state := p } }
     let busy : State := { s with sched := { s.sched with link := .granted .poll } }
     let busyIn : State := { at_ .quiescing with sched := busy.sched }
     MemWf s.mem ∧ AtHead .quiesce 7 [] s ∧ isQuiet s = true ∧ (∀ p ∈ s.part.inProgress, p.2 = .closeNow) ∧
      AtHead .quiesce 7 [] (at_ .quiesced) ∧ AtHead .quiesce 7 [] busyIn ∧ isQuiet busyIn = false ∧
      AtHead .quiesce 7 [] busy ∧ busy.sched.link ≠ .idle) ∧
    (let s := requested 11 0 0 0 []
     let t : State := { s with part := { s.part with state := .quiesced, inProgress := [(3, .quiesce)] } }
     MemWf t.mem ∧ RingLaw t ∧ SlotLaw t ∧ AtHead .resume 7 [] t ∧ t.part.state = .quiesced ∧
      (3, LongRequest.quiesce) ∈ t.part.inProgress) := by
  refine ⟨by unfold AtHead; decide +kernel, by decide +kernel, ringLaw_of rfl rfl (by decide) (by decide),
    ⟨by decide, by decide, by decide, fun n h => ?_, by decide, by decide⟩, by unfold AtHead; decide +kernel⟩
  cases (show (none : Option Nat) = some n from h)

/-- QUIESCE in SERVING with a candidate: with nothing else under way all is quiet, and with a poll outstanding it is not. -/
theorem witness_QuiesceAndResume_candidates :
    let s : State := { requested 10 0 0 0 (record12 5) with tracker := { ready.tracker with table := [entry .candidate 1] } }
    let u : State := { s with plant := { s.plant with poll := some (poll255 .awaiting) } }
    MemWf s.mem ∧ AtHead .quiesce 7 [] s ∧ s.part.state = .serving ∧ SlotLaw s ∧ AtHead .quiesce 7 [] u ∧ SlotLaw u ∧
      givenUp s 700 3 = true ∧ givenUpWords s = [subscriberWord 12 8] ∧
      isQuiet { s with tracker := { s.tracker with table := [] } } = true ∧
      isQuiet { u with tracker := { u.tracker with table := [] } } = false ∧
      ((s.tracker.table.filter fun e =>
        decide (e.kind = .subscriber) && decide (e.phase = .candidate)).map fun e => e.subscriber) = [12] := by
  refine ⟨by decide +kernel, by unfold AtHead; decide +kernel, by decide, ?_, by unfold AtHead; decide +kernel, ?_,
    by decide +kernel⟩ <;>
  exact ⟨by decide, by decide, by decide, fun n h => (by cases (show (none : Option Nat) = some n from h)), by decide, by decide⟩

/-- The part with record 12 in use, its address in the directory. -/
def inService (status : Nat) : State :=
  { withWords (record12 status) ready with order := { ready.order with directory := [(8 * 700 + 3, 12)], direct := [(0, 1)] } }

theorem witness_UnusedWriteAndRewrite :
    (MemWf ready.mem ∧ running ready = true ∧ noLanes upper = false ∧ ready.part.state ≠ .starting ∧
      mergeLanes bothLanes (rd ready (dropWordAddress 4095 .tap)) 0 = 0 ∧ subTap ready 4095 = 0) ∧
    (∀ st ∈ [1, 129], let s := inService st
      let c := dropChange 12 .port (mergeLanes upper (rd s (dropWordAddress 12 .port)) 0x0500) s
      MemWf s.mem ∧ c.oldTap ≠ 0 ∧ c.newTap ≠ 0 ∧ c.oldTap = c.newTap ∧ c.oldPort = c.newPort ∧
      c.status.conflict = decide (st = 129) ∧ holderOf s c.newTap c.newPort = some 12) := by decide +kernel

theorem witness_ActivationOrSquash :
    let s := inService 1
    MemWf s.mem ∧ running s = true ∧ noLanes bothLanes = false ∧ s.part.state ≠ .starting ∧ subTap s 4095 = 0 ∧
      mergeLanes bothLanes (rd s (subscriberWord 4095 0)) 1 = 1 ∧ holderOf s 1 (subPort s 4095) = none ∧
      (let t := withWords [(subscriberWord 40 1, 3)] s
       subTap t 40 = 0 ∧ mergeLanes bothLanes (rd t (subscriberWord 40 0)) 700 = 700 ∧
        holderOf t 700 (subPort t 40) = some 12) ∧
      (∀ st ∈ [1, 129], let t : State := { inService st with order := { s.order with directory := [(8 * 701 + 3, 9)] } }
       let c := dropChange 12 .tap (mergeLanes bothLanes (rd t (dropWordAddress 12 .tap)) 701) t
       c.oldTap ≠ 0 ∧ c.newTap ≠ 0 ∧ c.status.conflict = decide (st = 129) ∧ c.oldTap ≠ c.newTap ∧
        holderOf t c.newTap c.newPort = some 9) := by decide +kernel

/-- A full retire list, its first entry at a drop address. -/
def fullRetires (tap port : Nat) : List RetireEntry :=
  List.replicate 1 { tap := tap, port := port, subscriber := 9, avoided := 1, sent := false, lastSequence := none } ++
    (List.range 15).map fun k =>
      { tap := 900 + k, port := 0, subscriber := k, avoided := 1, sent := false, lastSequence := none }

theorem witness_MoveChangesTheDrop_full :
    let s : State := { inService 1 with order := { (inService 1).order with retires := fullRetires 701 3 } }
    let c := dropChange 12 .tap (mergeLanes bothLanes (rd s (dropWordAddress 12 .tap)) 701) s
    s.order.retires.length = 16 ∧ isRetiring c = true ∧
      (∃ r ∈ s.order.retires, r.tap = c.newTap ∧ r.port = c.newPort) ∧
      (let d := dropChange 12 .tap (mergeLanes bothLanes (rd s (dropWordAddress 12 .tap)) 702) s
       isRetiring d = true ∧ ∀ r ∈ s.order.retires, ¬(r.tap = d.newTap ∧ r.port = d.newPort)) := by decide +kernel

theorem witness_MoveChangesTheDrop :
    let s := inService 1
    let c := dropChange 12 .tap (mergeLanes bothLanes (rd s (dropWordAddress 12 .tap)) 701) s
    MemWf s.mem ∧ running s = true ∧ s.part.state ≠ .starting ∧ c.oldTap ≠ 0 ∧ c.newTap ≠ 0 ∧ c.status.conflict = false ∧
      c.oldTap ≠ c.newTap ∧ holderOf s c.newTap c.newPort = none ∧ s.order.retires.length < 16 ∧ isRetiring c = true := by
  decide +kernel

/-- An AWAITING record moves to an address whose retire has been sent: both pending entries go, the retire leaves the list and
its sequence stands in word 9. -/
theorem witness_MoveChangesTheDrop_sent :
    let r : RetireEntry := { tap := 701, port := 3, subscriber := 9, avoided := 4, sent := true, lastSequence := some 200 }
    let s : State := { inService 5 with
      order := { (inService 5).order with retires := [r] }
      tracker := { ready.tracker with table :=
        [entry .awaiting 1, { entry .awaiting 1 with kind := .retire, subscriber := 9, tap := 701, sequence := 200 }] } }
    let c := dropChange 12 .tap (mergeLanes bothLanes (rd s (dropWordAddress 12 .tap)) 701) s
    MemWf s.mem ∧ running s = true ∧ c.status.link = .awaiting ∧ c.status.conflict = false ∧ c.oldTap ≠ c.newTap ∧
      holderOf s c.newTap c.newPort = none ∧ retireWaits s c.newTap c.newPort = true ∧
      entriesLeft true true 12 701 3 s.tracker.table = [] ∧ lastSequenceAfter s 12 701 3 = 200 := by decide +kernel

theorem witness_RetireLeavesUse :
    let s := inService 1
    let t := withSlot .open (withWords ((subscriberWord 12 14, 0x8007) :: (subscriberWord 12 15, 5) :: record12 1) s)
    MemWf s.mem ∧ running s = true ∧ s.part.state ≠ .starting ∧ mergeLanes bothLanes (rd s (subscriberWord 12 0)) 0 = 0 ∧
      (dropChange 12 .tap 0 s).oldTap ≠ 0 ∧ hasLiveEntry s 12 = false ∧ s.order.retires.length < 16 ∧
      isRetiring (dropChange 12 .tap 0 (inService 0)) = false ∧ isRetiring (dropChange 12 .tap 0 s) = true ∧
      16 ≤ (fullRetires 701 3).length ∧ (dropChange 12 .tap 0 t).oldTap ≠ 0 ∧
      hasLiveEntry t 12 = true := by decide +kernel

theorem witness_FeedOrderAndTailWrites :
    (let s := inService 1
     MemWf s.mem ∧ running s = true ∧ noLanes lower = false ∧ s.part.state ≠ .starting ∧ subFeed s 12 = 0 ∧
      (mergeLanes lower (rd s (subscriberWord 12 2)) 255).toNat % 256 = 255 ∧ inUse s 12 = true ∧ inUse s 13 = false ∧
      servable s 12 = true ∧ servable s 13 = false ∧ isWaiting s 12 = false ∧ s.sched.queue.length < 64) ∧
    (let s : State := { ready with writer := { ready.writer with
        journal := some { head := 1, tail := 1023, sequence := 9 } } }
     RingLaw s ∧ ringCopy s .journal = some { head := 1, tail := 1023, sequence := 9 } ∧
      (mergeLanes bothLanes (rd s (tailAddress .journal)) 0).toNat = (1023 + 1) % 1024 ∧
      ¬ (∃ k, k ≤ (1 + 1024 - 1023) % 1024 ∧ 2 = (1023 + k) % 1024) ∧
      (1023 + 1) % 1024 ≠ 1023) := by
  refine ⟨by decide +kernel, ringLaw_of rfl rfl (by decide) (by decide), rfl, by decide +kernel, ?_, by decide⟩
  rintro ⟨k, hk, h⟩
  omega

/-- The part sending a frame. -/
def sendingTo (h : HandOff) : State :=
  { ready with
    sched := { ready.sched with link := .sending [0x13] h 8 }
    tracker := { ready.tracker with table := [entry .sending 1] } }

theorem witness_FrameCompletionHandsOn :
    (sendingTo (.ack 700 3 9)).power.vcc = true ∧
      (sendingTo (.ack 700 3 9)).sched.link = .sending [0x13] (.ack 700 3 9) 8 ∧
      (sendingTo .poll).sched.link = .sending [0x13] .poll 8 := by decide

/-- Each class of frame is eligible in a state in which no class before it is, and in the last state none is. The pending-ack
table is full where REFRESH goes past IMMEDIATE. -/
theorem witness_FrameCompletionHandsOn_classes :
    let r : RetireEntry := { tap := 700, port := 3, subscriber := 12, avoided := 255, sent := false, lastSequence := none }
    let refreshing : State := { ready with
      sched := { ready.sched with queue := [12], refresh := { ready.sched.refresh with maps := 7 } }
      tracker := { ready.tracker with table := List.replicate 16 { entry .awaiting 1 with subscriber := 9 } } }
    let sweeping : State := { ready with sched := { ready.sched with sweeps := [newSweep .lineup] } }
    let serving : State := { refreshing with tracker := ready.tracker }
    let retiring : State := { serving with order := { ready.order with retires := [r] } }
    let polling : State := withTree [(255, element 600 0 .out)] retiring
    let retrying : State := { polling with tracker := { ready.tracker with table := [entry .candidate 1] } }
    let replying : State := { retrying with sched := { retrying.sched with
      replies := [{ tap := 700, port := 3, token := 7, result := 0 }] } }
    [replying, retrying, polling, retiring, serving, sweeping, refreshing, ready].map (fun s => (concluded s s).sched.link) =
      [.granted .reply, .granted .retry, .granted .poll, .granted .retire, .granted .immediate, .granted .sweep,
       .granted .refresh, .idle] ∧
    (∀ s ∈ [replying, retrying, polling, retiring, serving, sweeping, refreshing, ready],
      running s = true ∧ s.part.state = .serving ∧ s.sched.link = .idle) ∧
    running (readyIn .quiescing) = true ∧ (readyIn .quiescing).sched.link = .idle ∧
    (readyIn .quiescing).tracker.table = [] ∧ (readyIn .quiescing).plant.poll = none ∧
    (grantedTo .poll).sched.link ≠ .idle := by decide +kernel

/-- R32: a quiet part that is QUIESCING with a QUIESCE and a CLOSE_NOW in progress, as a command leaves it. -/
theorem witness_FrameCompletionHandsOn_quiet :
    let u : State := { readyIn .quiescing with
      part := { (readyIn .quiescing).part with inProgress := [(7, .quiesce), (0, .closeNow)] }
      order := { ready.order with held := 2 } }
    let t := concluded u u
    MemWf u.mem ∧ u.port.grant = none ∧ u.port.waiting = [] ∧ running u = true ∧ u.part.state = .quiescing ∧
      u.sched.link = .idle ∧ u.tracker.table = [] ∧ u.plant.poll = none ∧ quiesceSlots u = [7] ∧
      t.part.inProgress = [(0, .closeNow)] ∧ rd t (requestWord 7 0) = 0x0300 ∧ rd t (requestWord 7 3) = 2 := by
  decide +kernel

theorem witness_SchedulerGrantsSendWhatTheyHold :
    (let s : State := { grantedTo .reply with sched := { (grantedTo .reply).sched with
        replies := [{ tap := 65535, port := 3, token := 7, result := 0 }] } }
     s.power.vcc = true ∧ s.power.resetting = false ∧ s.sched.link = .granted .reply ∧
      s.sched.replies = { tap := 65535, port := 3, token := 7, result := 0 } :: []) ∧
    (∀ w ∈ [newSweep .lineup, { newSweep .lineup with maps := 8, held := some 12, cursor := 4096 },
        { newSweep (.eventStart 7 5) with held := some 12, cursor := 13 }],
      let s : State := { inService 1 with sched := { (grantedTo .sweep).sched with sweeps := [w] } }
      s.sched.link = .granted .sweep ∧ s.sched.sweeps.find? sweepHolds = some w ∧ servable s 12 = true ∧
        servable ready 12 = false ∧ s.lineup.image = some []) ∧
    (∀ m ∈ [7, 8],
      let s : State := { inService 1 with sched := { (grantedTo .refresh).sched with
        refresh := { Refresh.reset with maps := m, held := some 12 } } }
      s.sched.link = .granted .refresh ∧ s.sched.refresh.maps = m ∧ s.sched.refresh.held = some 12) := by decide +kernel

/-- An image of 96 positions and its last MAP frame; record 12's unacked AUTH frame with an order of CONNECT. -/
theorem witness_SchedulerGrantsSendWhatTheyHold_frames :
    let im := List.replicate 96 (position .event 7)
    im.length = 96 ∧ im[12 * 7 + 11]? = some (position .event 7) ∧
      (mapFor im 7).take 8 = [0x12, 84, 12, 0x03, 0xE7, 0x03, 0xFF, 0x82] ∧ (mapFor im 7).length = 65 ∧
      (authFor (inService 1) 12 0).take 6 = [0x11, 0x02, 0xBC, 3, 0, 1] ∧ subCommand (inService 1) 12 = .full := by
  decide +kernel

theorem witness_RetryGrantSendsAgain :
    (let s : State := { inService 1 with
      sched := (grantedTo .retry).sched, tracker := { ready.tracker with table := [entry .candidate 6] } }
     MemWf s.mem ∧ s.sched.link = .granted .retry ∧ firstCandidate s.tracker.table = some (entry .candidate 6) ∧
      servable s 12 = true ∧ (entry .candidate 6).attempts < 7 ∧ servable ready 12 = false) ∧
    firstCandidate [{ entry .candidate 1 with kind := .retire }] = some { entry .candidate 1 with kind := .retire } := by
  decide +kernel

theorem witness_PollAndRetireGrants :
    (let s := withTree [(255, element 600 0 .unpolled)] (grantedTo .poll)
     MemWf s.mem ∧ s.power.vcc = true ∧ s.power.resetting = false ∧ s.sched.link = .granted .poll ∧ s.plant.poll = none ∧
      choosePoll s.plant.tree s.plant.pollPointer = some 255 ∧
      tableGet s.plant.tree 255 = some (element 600 0 .unpolled)) ∧
    (let r : RetireEntry := { tap := 700, port := 3, subscriber := 12, avoided := 255, sent := false, lastSequence := none }
     let s : State := { grantedTo .retire with
       order := { ready.order with retires := [r] }, tracker := { ready.tracker with retireSequence := 255 } }
     s.sched.link = .granted .retire ∧ s.order.retires.find? (fun x => !x.sent) = some r ∧
      s.tracker.retireSequence = r.avoided) := by decide +kernel

theorem witness_ImmediateGrantAndRefill :
    (∀ rest ∈ [[], List.range 33],
      let s : State := { inService 1 with sched := { (grantedTo .immediate).sched with queue := 12 :: rest } }
      MemWf s.mem ∧ s.power.vcc = true ∧ s.power.resetting = false ∧ s.sched.link = .granted .immediate ∧
        s.sched.queue = 12 :: rest ∧ servable s 12 = true ∧ servable ready 12 = false) ∧
    (let s : State := { ready with sched := { ready.sched with deferred := [0, 4095], refillPointer := 4095 } }
     CapacityLaw s) := by unfold CapacityLaw; decide +kernel

theorem witness_VisitsJudgeTheRecord :
    (∀ c ∈ [0, 4095],
      let w := { newSweep .resync with cursor := c }
      let v := { newSweep (.eventEnd 7 5) with cursor := c }
      let s : State := { ready with sched := { ready.sched with sweeps := [v, w] } }
      let t : State := { ready with sched := { ready.sched with sweeps := [v] } }
      running s = true ∧ s.part.state = .serving ∧ s.sched.sweeps.find? wantsRequeue = some w ∧
        t.sched.sweeps.find? wantsRequeue = none ∧ t.sched.sweeps.find? wantsBroadcast = some v) ∧
    (requeueMatches .resync (inService 8) 12 = true ∧ isWaiting (inService 8) 12 = false ∧
      requeueMatches .resync (inService 1) 12 = false) ∧
    (running ready = true ∧ ready.sched.sweeps.find? wantsBroadcast = none ∧ ready.sched.refresh.maps = 8 ∧
      ready.sched.refresh.held = none ∧ ready.sched.refresh.resting = false ∧ ready.sched.refresh.cursor < 4096) ∧
    ((subStatus (inService 1) 12).link = .settled ∧ (subStatus (inService 9) 12).link = .unreached) := by decide +kernel

/-- A requeue sweep meets a full queue and stops; the sweep after it is then the engine's. -/
theorem witness_VisitsJudgeTheRecord_full :
    let w := { newSweep .resync with cursor := 12 }
    let s : State := { inService 8 with sched := { ready.sched with queue := List.range' 100 64, sweeps := [w] } }
    running s = true ∧ s.part.state = .serving ∧ s.sched.sweeps.find? wantsRequeue = some w ∧
      requeueMatches .resync s 12 = true ∧ isWaiting s 12 = false ∧ 64 ≤ s.sched.queue.length ∧
      (after (exec .sweepVisit s)).sched.sweeps = [{ w with stopped := true }] ∧
      wantsRequeue { w with stopped := true } = false := by decide +kernel

/-- The table splits at the sweep a visit is made for, and refresh stands at the last record, with an image and without. -/
theorem witness_VisitsJudgeTheRecord_ends :
    (let w := newSweep (.eventEnd 7 5)
     let v := newSweep .resync
     let s : State := { ready with sched := { ready.sched with sweeps := [w, v] } }
     s.sched.sweeps = [w] ++ v :: [] ∧ (∀ x ∈ [w], wantsRequeue x = false) ∧ wantsRequeue v = true ∧ wantsBroadcast w = true ∧
      sweepsLeft [{ v with cursor := 4096 }, w] = [w]) ∧
    (∀ im ∈ [none, some []],
      let s : State := { ready with
        lineup := { ready.lineup with image := im }
        sched := { ready.sched with refresh := { ready.sched.refresh with cursor := 4095, visits := 4095 } } }
      running s = true ∧ s.part.state = .serving ∧ s.sched.sweeps = [] ∧ s.sched.refresh.maps = 8 ∧
        s.sched.refresh.held = none ∧ s.sched.refresh.resting = false) := by decide +kernel

/-- A record that matches each kind of sweep, and one that does not. -/
theorem witness_VisitsJudgeTheRecord_kinds :
    let lit := withTree [(255, element 600 0 .inService)] (inService 12)
    let fed (s : State) (ws : List (Nat × Word)) : State :=
      { s with mem := ws.foldl (fun m p => memSetWord m p.1 p.2) s.mem }
    let behind := fed lit [(subscriberWord 12 2, 255)]
    let dark := withTree [(255, element 600 0 .out)] behind
    let buyer := fed (inService 1) [(subscriberWord 12 20, 0x8007), (subscriberWord 12 21, 65535)]
    requeueMatches (.restore 255) behind 12 = true ∧ requeueMatches (.restore 255) lit 12 = false ∧
      requeueMatches (.restore 255) dark 12 = false ∧ requeueMatches .resync behind 12 = true ∧
      requeueMatches .resync dark 12 = false ∧ broadcastMatches .lineup dark 12 = true ∧
      broadcastMatches .lineup (inService 129) 12 = false ∧
      purchaseAt buyer 12 3 = { valid := true, slot := 7, event := 65535 } ∧
      broadcastMatches (.eventStart 7 65535) buyer 12 = true ∧ broadcastMatches (.eventEnd 7 65534) buyer 12 = false ∧
      wantsBroadcast (newSweep .lineup) = false ∧ wantsBroadcast { newSweep .lineup with maps := 8 } = true := by
  decide +kernel

theorem witness_BadFramesAreCountedOnly :
    ready.power.vcc = true ∧ ready.power.resetting = false ∧
      (let f (n : Nat) : UpFrame := { idle := n, bytes := [], framingError := false, overrun := true }
       LineRested (f 20) ready ∧ ¬LineRested (f 19) ready ∧ (f 20).overrun = true ∧
        LineRested (f 0) { ready with receiver := { ready.receiver with rested := true } }) ∧
      withCrc ((0x21 : Byte) :: List.replicate 5 0) ≠ 0x21 :: List.replicate 7 0 := by
  unfold LineRested; decide +kernel

theorem witness_AckEndsItsEntry :
    let s : State := { inService 5 with tracker := { ready.tracker with table := [entry .sending 1] } }
    MemWf s.mem ∧ RingLaw s ∧ started s = true ∧ s.power.vcc = true ∧ s.power.resetting = false ∧
      s.tracker.table.find? (fun x => decide (x.tap = 700 ∧ x.port = 3 ∧ x.sequence = 9)) = some (entry .sending 1) ∧
      (∀ e ∈ s.tracker.table, ¬(e.tap = 700 ∧ e.port = 3 ∧ e.sequence = 8)) ∧ started (starting 9) = false ∧
      (∀ r ∈ [1, 2], LineRested (ackFrame 700 3 9 r) s ∧
        ackFrame 700 3 9 r = { ackFrame 700 3 9 r with idle := (ackFrame 700 3 9 r).idle }) :=
  ⟨by decide +kernel, ringLaw_of rfl rfl (by decide) (by decide), by unfold LineRested; decide +kernel⟩

/-- The part polling element 255. -/
def polling (ph : PollPhase) : State :=
  { ready with plant := { ready.plant with tree := [(255, element 65535 0 .unpolled)], poll := some (poll255 ph) } }

theorem polling_plant (ph : PollPhase) : PlantLaw (polling ph) := by
  refine ⟨show [(255, element 65535 0 .unpolled)].Pairwise (fun x y => x.1 < y.1) by decide,
    show ∀ p ∈ [(255, element 65535 0 .unpolled)], 1 ≤ p.1 ∧ p.1 ≤ 255 by decide, fun p h => ?_⟩
  cases Option.some.inj (show some (poll255 ph) = some p from h)
  exact ⟨by change 1 ≤ 255; decide, by change 255 ≤ 255; decide⟩

theorem witness_StatusAppliesTheResult_PollDeadlinesArePassed :
    MemWf (polling .awaiting).mem ∧ RingLaw (polling .awaiting) ∧ PlantLaw (polling .awaiting) ∧
      PlantLaw (polling .sending) ∧ started (polling .awaiting) = true ∧
      (polling .awaiting).plant.poll = some (poll255 .awaiting) ∧ (poll255 .awaiting).phase = .awaiting ∧
      tableGet (polling .awaiting).plant.tree 255 = some (element 65535 0 .unpolled) ∧
      (let s := withTree [(1, element 600 0 .unpolled)] ready
       started s = true ∧ s.plant.poll = none ∧ someEligible s.plant.tree = true ∧ s.part.state = .serving ∧
        s.sched.link = .idle ∧ s.sched.replies = [] ∧ s.tracker.table = []) ∧
      LineRested (statusFrame 65535 255 3) (polling .awaiting) :=
  ⟨by decide, ringLaw_of rfl rfl (by decide) (by decide), polling_plant _, polling_plant _, by decide +kernel,
    by decide +kernel, by decide +kernel, by decide +kernel, by decide +kernel, by unfold LineRested; decide +kernel⟩

/-- A poll awaits an answer while its element has gone, or is in use at another address. -/
theorem witness_PollDeadlinesArePassed_gone :
    ∀ t ∈ [[], [(254, element 65535 0 .unpolled)], [(255, element 600 0 .unpolled)]],
      let s := withTree t (polling .awaiting)
      started s = true ∧ s.plant.poll = some (poll255 .awaiting) ∧
        (tableGet s.plant.tree 255).all (fun e => decide (e.address ≠ (poll255 .awaiting).address)) = true := by decide +kernel

/-- A STATUS that no poll awaits, one whose element has gone, and the states from which each result starts. -/
theorem witness_StatusAppliesTheResult_results :
    (let s := polling .awaiting
     LineRested (statusFrame 65535 254 0) s ∧ s.plant.poll = some (poll255 .awaiting) ∧
      (poll255 .awaiting).sequence ≠ 254 ∧ ready.plant.poll = none) ∧
    (let s := withTree [(254, element 65535 0 .unpolled)] (polling .awaiting)
     started s = true ∧ s.plant.poll = some (poll255 .awaiting) ∧ tableGet s.plant.tree 255 = none) ∧
    (let s := withWords [(elementWord 255 2, 1), (elementWord 255 3, 1), (elementWord 255 5, 2)] (polling .awaiting)
     let l := elementLimit s 255
     let m := counterMax s 255
     (bandAfter .failed l m .unpolled (counterOf s 255)).1 = .out ∧
      (bandAfter .good l m .out (counterOf s 255)).1 = .inService ∧
      (bandAfter .exhausted l m .out (counterOf s 255)).1 = .latchedOut ∧
      (bandAfter .good l m .unpolled (counterOf s 255)).1 = .inService) := by unfold LineRested; decide +kernel

theorem witness_BuyIsDecidedAndAnswered :
    let s := withSlot .open { inService 1 with mem := (buying .open 300).mem }
    MemWf s.mem ∧ RingLaw s ∧ started s = true ∧ s.part.state = .serving ∧ s.sched.replies.length < 8 ∧
      holderOf s 700 3 = some 12 ∧ holderOf s 700 4 = none ∧ (readyIn .quiesced).part.state ≠ .serving ∧
      s.clock.valid = true ∧ servable s 12 = true ∧ (subStatus s 12).confirmed = .full ∧ slotState s 7 = .open ∧
      livePlaceOf s 12 7 = none ∧ freePlace s 12 = some 0 ∧ (armedOf s 7).price = 300 ∧
      (subRd s 12 13).toNat + 300 ≤ (subRd s 12 5).toNat ∧ LineRested (buyFrame 700 3 7 255) s :=
  ⟨by decide +kernel, ringLaw_of rfl rfl (by decide) (by decide), by unfold LineRested; decide +kernel⟩

/-- R153: each check fails in a state that passes those before it. -/
theorem witness_BuyIsDecidedAndAnswered_refusals :
    let s := withSlot .open { inService 1 with mem := (buying .open 300).mem }
    let more (ws : List (Nat × Word)) : State := { s with mem := ws.foldl (fun m p => memSetWord m p.1 p.2) s.mem }
    holderOf s 700 3 = some 12 ∧ s.part.state = .serving ∧ s.sched.replies.length < 8 ∧ LineRested (buyFrame 700 3 7 255) s ∧
      (subStatus (more [(subscriberWord 12 8, 0)]) 12).confirmed ≠ .full ∧
      purchasable s 6 = false ∧ purchasable s 7 = true ∧
      (livePlaceOf (more [(subscriberWord 12 14, 0x8007), (subscriberWord 12 15, 5)]) 12 7).isSome = true ∧
      (let t := more [(subscriberWord 12 5, 299), (subscriberWord 12 13, 0)]
       livePlaceOf t 12 7 = none ∧ freePlace t 12 = some 0 ∧
        (subRd t 12 5).toNat < (subRd t 12 13).toNat + (armedOf t 7).price) := by unfold LineRested; decide +kernel

theorem witness_AckDeadlinesArePassed :
    (let s (n : Nat) : State := { inService 5 with tracker := { ready.tracker with table := [entry .awaiting n] } }
     MemWf (s 1).mem ∧ RingLaw (s 1) ∧ started (s 1) = true ∧
      earliest .awaiting (s 1).tracker.table = some (entry .awaiting 1) ∧
      isDark (s 1).plant.tree (subFeed (s 1) 12) = false ∧ (planOf (s 1)).maxAttempts = 1 ∧
      earliest .awaiting (s 0).tracker.table = some (entry .awaiting 0) ∧
      isDark [(255, element 600 0 .out)] 255 = true) ∧
    (let s : State := { inService 5 with tracker := { ready.tracker with table := [entry .waiting 1] } }
     MemWf s.mem ∧ started s = true ∧ earliest .waiting s.tracker.table = some (entry .waiting 1) ∧
      started (readyIn .quiescing) = true) :=
  ⟨⟨by decide +kernel, ringLaw_of rfl rfl (by decide) (by decide), by decide +kernel⟩, by decide +kernel⟩

theorem witness_ClockCountsSeconds :
    CalendarLaw ready.clock.now ∧ ready.clock.set = false ∧ ready.power.vcc = true ∧ held.clock.set = true ∧
      CalendarLaw { seconds := 59, minutes := 59, hours := 23, day := 31, month := 12, year := 99 } := by
  unfold CalendarLaw; decide +kernel

theorem witness_MinuteTickReachesItsReceivers :
    let s : State := { ready with
      clock := { ready.clock with ticks := [tickNow ready] }, meter := { ready.meter with owed := 15 } }
    MemWf s.mem ∧ RingLaw s ∧ running s = true ∧ s.clock.ticks = tickNow ready :: [] ∧ (tickNow ready).valid = true ∧
      s.close.copy = some { status := .idle, cursor := 0, number := 0 } ∧ s.plan.copy = some (loadPlan []) ∧
      s.part.state ≠ .starting ∧ AlarmMatches (loadPlan []) (tickNow ready).fields ∧
      ¬AlarmMatches (loadPlan []) { calendarOrigin with minutes := 1 } ∧ (tickNow State.reset).valid = false ∧
      running (starting 9) = true ∧ ready.meter.owed < 15 ∧ openedSweeps ready 0 = [] :=
  ⟨by decide, ringLaw_of rfl rfl (by decide) (by decide), by unfold AlarmMatches; decide +kernel⟩

/-- A tick with transitions due; with no working copy, with a close in progress, and with no close copy. -/
theorem witness_MinuteTickReachesItsReceivers_slots :
    let ten : Calendar := { calendarOrigin with minutes := 10 }
    let s : State := withDueSlots { ready with clock := { ready.clock with ticks := [{ fields := ten, valid := true }] } }
    let u := after (exec .minuteTick s)
    openedSweeps s (stampOf ten) = dueSweeps ∧ u.sched.sweeps = dueSweeps.map newSweep ∧
      (List.range 8).map (fun j => (rd u (slotWord j 6)).toNat) = [3, 0, 0, 0, 0, 0, 2, 3] ∧
      closeStatus (after (exec .minuteTick { s with plan := { s.plan with copy := none } })) = .idle ∧
      (let m : State := { ready with
        clock := { ready.clock with ticks := [tickNow ready] }
        close := { ready.close with copy := some { status := .closing, cursor := 7, number := 65535 } } }
       AlarmMatches (loadPlan []) (tickNow m).fields ∧ running m = true ∧
        (after (exec .minuteTick m)).flags.getLsbD 15 = true) ∧
      ({ ready with close := { ready.close with copy := none } } : State).close.copy = none := by
  unfold AlarmMatches; decide +kernel

/-- R82: each row of the table has its state: the kind is there, there is room, an optional sweep finds no room, a mandatory one
takes the place of the oldest optional one, and four mandatory ones fold. -/
theorem witness_MinuteTickReachesItsReceivers_sweeps :
    let table (ks : List SweepKind) : State := { ready with sched := { ready.sched with sweeps := ks.map newSweep } }
    let mixed := table [.restore 1, .eventEnd 7 65535, .lineup, .resync]
    let kinds (k : SweepKind) (s : State) : List SweepKind := (openSweep k s).sched.sweeps.map fun w => w.kind
    MemWf mixed.mem ∧ RingLaw mixed ∧
      kinds .lineup mixed = [.restore 1, .eventEnd 7 65535, .lineup, .resync] ∧
      kinds (.restore 2) (table [.restore 1]) = [.restore 1, .restore 2] ∧
      kinds (.eventStart 7 1) mixed = [.restore 1, .eventEnd 7 65535, .lineup, .resync] ∧
      kinds (.restore 255) mixed = [.restore 1, .lineup, .resync, .restore 255] ∧
      kinds .resync (table [.restore 1, .restore 2, .restore 3, .restore 4]) = [.resync] ∧
      ringFull .log { head := 0, tail := 0, sequence := 1 } = false :=
  ⟨by decide, ringLaw_of rfl rfl (by decide) (by decide), by decide +kernel⟩

theorem witness_MinuteTickReachesItsReceivers_details :
    DropDetails .lineup 0 65535 0 ∧ DropDetails (.eventStart 7 5) 1 7 5 ∧ DropDetails (.eventEnd 7 65535) 2 7 65535 ∧
      ∀ d₁ d₂ d₃, ¬DropDetails (.restore 1) d₁ d₂ d₃ ∧ ¬DropDetails .resync d₁ d₂ d₃ := by
  simp [DropDetails]

theorem witness_MeteringCountsTheMinute :
    (let s : State := { ready with meter := { ready.meter with owed := 1 } }
     started s = true ∧ 0 < s.meter.owed ∧ s.meter.running = false) ∧
    (let s : State := { inService 1 with meter := { ready.meter with running := true, cursor := 12 } }
     MemWf s.mem ∧ started s = true ∧ s.meter.running = true ∧ servable s 12 = true ∧ servable s 4095 = false) := by
  decide +kernel

/-- The part closing at record `c`. -/
def closing (c : Nat) (s : State) : State :=
  { s with close := { s.close with copy := some { status := .closing, cursor := c, number := 3 }, bound := some 7 } }

theorem closing_slots (c : Nat) (st : Nat) : SlotLaw (closing c (inService st)) := by
  refine ⟨List.nodup_nil, fun n h => absurd h (List.not_mem_nil), fun n h => absurd h (List.not_mem_nil), fun n h => ?_,
    fun h => Bool.noConfusion h, fun h => PartState.noConfusion h⟩
  cases Option.some.inj (show some 7 = some n from h)
  decide

theorem witness_CloseVisitWritesTheStatement :
    SlotLaw (closing 12 (inService 1)) ∧ RingLaw (closing 12 (inService 1)) ∧ SlotLaw (closing 4096 (inService 1)) ∧
    (let s := closing 12 (inService 1)
     MemWf s.mem ∧ closeRuns s = true ∧ s.close.stalled = false ∧ servable s 12 = true ∧ servable s 4095 = false ∧
      s.writer.journal = some { head := 0, tail := 0, sequence := 1 } ∧
      ringFull .journal { head := 0, tail := 0, sequence := 1 } = false ∧
      ringFull .journal { head := 1023, tail := 0, sequence := 1 } = true ∧ closeRuns (closing 4096 (inService 1)) = true) :=
  ⟨closing_slots .., ringLaw_of rfl rfl (by decide) (by decide), closing_slots .., by decide +kernel⟩

theorem witness_StatementsRoundToTheNearestCent :
    subRd ready 12 10 = 0 ∧ (subRd ready 12 11).toNat ≤ (subRd ready 12 10).toNat ∧
      (∀ q ∈ (planOf ready).rates, q ≤ 65535) ∧
      subRd (withWords [(subscriberWord 12 10, 65535)] ready) 12 10 ≠ 0 := by decide +kernel

theorem witness_PowerUpAndResetClearInternalState :
    ready.power.vcc = true ∧ ready.clock.backupIntact = true ∧
      ({ ready with power := { ready.power with resetting := true } } : State).power.resetting = true := by decide

theorem witness_PowerFailStopsNewWork :
    running ready = true ∧ (∀ c, ready.sched.link ≠ .granted c) ∧ (grantedTo .poll).sched.link = .granted .poll ∧
      running { ready with power := { ready.power with failing := true } } = false ∧
      ({ ready with power := { ready.power with vcc := false } } : State).power.vcc = false := by
  refine ⟨rfl, fun c h => ?_, rfl, rfl, rfl⟩
  exact Link.noConfusion (show Link.idle = .granted c from h)

theorem witness_ElementCensusRebuildsTheTree :
    let s := withWords [(elementWord 255 0, 600), (elementWord 255 4, 3), (elementWord 1 0, 601), (elementWord 1 4, 4)]
      (starting 3)
    MemWf s.mem ∧ RingLaw s ∧ atStartStep 3 s = true ∧ rd s (elementWord 255 0) ≠ 0 ∧ rd s (elementWord 255 4) = 3 ∧
      rd s (elementWord 1 4) = 4 ∧ rd s (elementWord 2 0) = 0 :=
  ⟨by decide +kernel, ringLaw_of rfl rfl (by decide) (by decide), by decide +kernel⟩

/-- A table with a chain of nine, a missing parent and a cycle: the eighth of the chain is kept, the ninth, the missing one and
the lowest of the cycle are reset, in the order of the passes. -/
theorem witness_ElementCensusRebuildsTheTree_parents :
    let used (i p : Nat) : List (Nat × Word) := [(elementWord i 0, 600), (elementWord i 1, wordOf p)]
    let s := withWords ((List.range 9).flatMap (fun k => used (k + 1) k) ++ used 20 300 ++ used 31 32 ++ used 32 31)
      (starting 3)
    let t : Tree := (List.range 8).map (fun k => (k + 1, element 600 k .unpolled)) ++ [(9, element 600 0 .unpolled), (32, element 600 31 .unpolled)]
    (storedParent s)^[8] 8 = 0 ∧ (storedParent s)^[8] 9 ≠ 0 ∧ openedParent s 8 = 7 ∧ openedParent s 31 = 0 ∧
      openedParent s 32 = 31 ∧ censusResets s t = [20, 31, 9] ∧
      ringHeld .log { head := 0, tail := 0, sequence := 1 } + 3 ≤ 511 := by decide +kernel

theorem witness_SubscriberCensusRuns :
    (let s : State := { withWords (record12 5) (starting 4) with
      part := { (starting 4).part with censusCursor := 12 } }
     MemWf s.mem ∧ RingLaw s ∧ atStartStep 4 s = true ∧ s.part.censusCursor < 4096 ∧ subTap s 12 ≠ 0 ∧
      holderOf s (subTap s 12) (subPort s 12) = none ∧
      (let t : State := { s with order := { s.order with directory := [(8 * 700 + 3, 5)] } }
       holderOf t (subTap t 12) (subPort t 12) = some 5)) ∧
    (let s : State := { starting 4 with part := { (starting 4).part with censusCursor := 4095 } }
     MemWf s.mem ∧ atStartStep 4 s = true ∧ s.part.censusCursor = 4095 ∧ subTap s 4095 = 0 ∧
      (let t := withWords [(subscriberWord 4095 0, 9)] s
       MemWf t.mem ∧ atStartStep 4 t = true ∧ subTap t 4095 ≠ 0 ∧ holderOf t (subTap t 4095) (subPort t 4095) = none)) :=
  ⟨⟨by decide +kernel, ringLaw_of rfl rfl (by decide) (by decide), by decide +kernel⟩, by decide +kernel⟩

theorem witness_StartupRestoresSlotsRingsAndClose :
    (let s := withWords [(slotWord 7 6, 4), (slotWord 0 6, 3), (slotWord 0 8, 2), (slotWord 0 9, 601)] (starting 5)
     MemWf s.mem ∧ atStartStep 5 s = true ∧ 3 < (rd s (slotWord 7 6)).toNat ∧ (rd s (slotWord 0 6)).toNat ≤ 3 ∧
      rd s (slotWord 0 8) ≠ 0) ∧
    (let s := withWords [(0x120, 512), (0x122, 1), (0x123, 1023), (0x124, 1024), (0x125, 1)]
        { starting 6 with writer := State.reset.writer }
     MemWf s.mem ∧ atStartStep 6 s = true ∧ s.writer.log = none ∧ s.writer.journal = none ∧
      (atStartStep 6 (starting 6) = true ∧ (starting 6).writer.log = some { head := 0, tail := 0, sequence := 1 } ∧
        (starting 6).writer.journal = some { head := 0, tail := 0, sequence := 1 }) ∧
      512 ≤ (rd s 0x120).toNat ∧ (rd s 0x123).toNat < 1024 ∧ (rd s 0x125).toNat ≠ 0 ∧ 1024 ≤ (rd s 0x124).toNat) ∧
    (∀ n ∈ [1, 2],
      let s := withWords [(0x126, wordOf n), (0x127, 4097)] (starting 7)
      MemWf s.mem ∧ atStartStep 7 s = true ∧ rd s 0x126 = wordOf n) := by decide +kernel

theorem witness_StartupEndsInOrder :
    (let s := starting 8
     MemWf s.mem ∧ RingLaw s ∧ atStartStep 8 s = true) ∧
    (let s := withWords [(requestWord 0 0, 0x0109), (requestWord 3 0, 0x0209), (requestWord 7 0, 0x0209),
        (requestWord 5 0, 0x020A)] (starting 9)
     MemWf s.mem ∧ atStartStep 9 s = true ∧ s.close.copy = some { status := .idle, cursor := 0, number := 0 } ∧
      s.close.bound = none ∧ requestStatus s 0 = 1 ∧ requestStatus s 3 = 2 ∧ requestCode s 7 = 9 ∧ requestCode s 5 ≠ 9) ∧
    (let s := starting 10
     MemWf s.mem ∧ RingLaw s ∧ atStartStep 10 s = true ∧ s.slots.noted = false ∧ s.close.noted = false ∧
      s.sched.sweeps.length < 4 ∧ s.plan.copy ≠ none) :=
  ⟨⟨by decide, ringLaw_of rfl rfl (by decide) (by decide), by decide⟩, by decide +kernel,
    ⟨by decide, ringLaw_of rfl rfl (by decide) (by decide), by decide +kernel⟩⟩

/-- Start-up ends with a tick noted and VALID set: transitions are due and the alarm matches, with the close idle and with it in
progress; and with VALID clear. -/
theorem witness_StartupEndsInOrder_noted :
    let p : Plan := { loadPlan [] with closeDay := none, closeHour := some 0, closeMinute := none }
    let s : State := withDueSlots { starting 10 with
      plan := { ready.plan with copy := some p }
      clock := { ready.clock with now := { calendarOrigin with minutes := 10 } }
      slots := { ready.slots with noted := true }, close := { ready.close with noted := true } }
    let t : State := { s with close := { s.close with copy := some { status := .closing, cursor := 7, number := 3 } } }
    let u := after (exec .startupEnd s)
    MemWf s.mem ∧ RingLaw s ∧ atStartStep 10 s = true ∧ currentStamp s = 10 ∧ openedSweeps s 10 = dueSweeps ∧
      AlarmMatches p s.clock.now ∧ s.close.noted = true ∧ s.clock.valid = true ∧
      u.sched.sweeps = [newSweep .resync, newSweep (.eventStart 0 5), newSweep (.eventEnd 0 5), newSweep (.eventStart 6 5)] ∧
      u.flags.getLsbD 14 = true ∧ closeStatus u = .closing ∧ rd u 0x128 = 1 ∧
      (after (exec .startupEnd t)).flags.getLsbD 15 = true ∧
      (let v : State := { s with clock := { s.clock with valid := false } }
       (after (exec .startupEnd v)).slots.armed = s.slots.armed ∧ closeStatus (after (exec .startupEnd v)) = .idle) :=
  ⟨by decide, ringLaw_of rfl rfl (by decide) (by decide), by unfold AlarmMatches; decide +kernel⟩

end Sys2Proof.Tests
end

/-! ## Masked writes (R10) -/

namespace Sys2Proof.Machine

/-! Where the notice words stand. -/

theorem noticeAddress_element (i : Fin 256) : noticeAddress (.element i) = 0x01000 + 16 * i.val + 8 := rfl

theorem noticeAddress_subscriber (i : Fin 4096) : noticeAddress (.subscriber i) = 0x10000 + 32 * i.val + 7 := rfl

theorem toNat_addrOf_noticeAddress (n : NoticeWord) : (addrOf (noticeAddress n)).toNat = noticeAddress n :=
  (Laws.Operands.maskedWrite n bothLanes 0 rfl _ rfl).1

theorem wordClass_noticeAddress (n : NoticeWord) : wordClass (noticeAddress n) = .masked :=
  (Laws.Operands.maskedWrite n bothLanes 0 rfl _ rfl).2 _ rfl

/-- The two ranges of the map that hold MASKED words (12.7, 12.8). -/
theorem range_of_wordClass_masked {a : Nat} (h : wordClass a = .masked) :
    (0x01000 ≤ a ∧ a < 0x02000 ∧ a % 16 = 8) ∨ (0x10000 ≤ a ∧ a < 0x30000 ∧ a % 32 = 7) := by
  simp only [wordClass, ite_eq_iff, reduceCtorEq, and_false, and_true, false_or, or_false] at h
  omega

/-- R10: a word is MASKED exactly when it is a notice word. -/
theorem wordClass_masked_iff (a : Nat) : wordClass a = .masked ↔ ∃ n, noticeAddress n = a := by
  constructor
  · intro h
    rcases range_of_wordClass_masked h with ⟨hlo, hhi, hw⟩ | ⟨hlo, hhi, hw⟩
    · exact ⟨.element ⟨(a - 0x01000) / 16, by omega⟩, by simp only [noticeAddress_element]; omega⟩
    · exact ⟨.subscriber ⟨(a - 0x10000) / 32, by omega⟩, by simp only [noticeAddress_subscriber]; omega⟩
  · rintro ⟨n, rfl⟩
    exact wordClass_noticeAddress n

theorem inLiveBlock_noticeAddress (n : NoticeWord) : inLiveBlock (noticeAddress n) = false := by
  refine decide_eq_false ?_
  cases n with
  | element i => rw [noticeAddress_element]; omega
  | subscriber i => rw [noticeAddress_subscriber]; omega

/-- Of the notice words, only that of element 0 is closed to the host. -/
theorem inHeadEndRecord_noticeAddress {n : NoticeWord} (hn : n ≠ .element 0) :
    inHeadEndRecord (noticeAddress n) = false := by
  rw [inHeadEndRecord, Bool.and_eq_false_imp]
  intro _
  refine decide_eq_false ?_
  cases n with
  | element i =>
    have hi : i.val ≠ 0 := fun h => hn (congrArg NoticeWord.element (Fin.ext h))
    rw [noticeAddress_element]
    omega
  | subscriber i => rw [noticeAddress_subscriber]; omega

/-! The merge, lane by lane and bit by bit. -/

/-- The merge through its mask: the upper byte stays, and the lower one is chosen bit by bit. -/
theorem maskedMerge_eq (l : Lanes) (old d : Word) :
    maskedMerge l old d =
      wordOfBytes (wordHi old) ((wordLo old &&& ~~~maskOf l d) ||| ((if l.lower then wordLo d else 0) &&& maskOf l d)) :=
  rfl

theorem wordHi_maskedMerge (l : Lanes) (old d : Word) : wordHi (maskedMerge l old d) = wordHi old :=
  wordHi_wordOfBytes _ _

theorem getLsbD_maskOf (l : Lanes) (d : Word) {k : Nat} (hk : k < 8) :
    (maskOf l d).getLsbD k = (l.upper && d.getLsbD (8 + k)) := by
  unfold maskOf
  cases l.upper
  · simp
  · simp only [if_true, getLsbD_wordHi, hk, decide_true]

/-- The value bits of a masked write: those of the lower lane, 0 where it is not strobed. -/
theorem getLsbD_laneValue (b : Bool) (d : Word) {k : Nat} (hk : k < 8) :
    (if b then wordLo d else 0).getLsbD k = (b && d.getLsbD k) := by
  cases b
  · simp
  · simp only [if_true, getLsbD_wordLo, hk, decide_true, Bool.true_and]

/-- R10: a bit of the lower byte takes its value bit where its mask bit is set, and stays elsewhere. -/
theorem getLsbD_maskedMerge (l : Lanes) (old d : Word) {k : Nat} (hk : k < 8) :
    (maskedMerge l old d).getLsbD k =
      if (maskOf l d).getLsbD k = true then (l.lower && d.getLsbD k) else old.getLsbD k := by
  rw [maskedMerge_eq, getLsbD_wordOfBytes, if_pos hk, BitVec.getLsbD_or, BitVec.getLsbD_and, BitVec.getLsbD_and,
    BitVec.getLsbD_not, getLsbD_laneValue _ _ hk, getLsbD_wordLo]
  cases (maskOf l d).getLsbD k <;> simp [hk]

theorem maskedMerge_of_maskOf_eq_zero {l : Lanes} {d : Word} (h : maskOf l d = 0) (old : Word) :
    maskedMerge l old d = old := by
  simp only [maskedMerge_eq, h, BitVec.ofNat_eq_ofNat, BitVec.not_zero, BitVec.and_allOnes, BitVec.and_zero,
    BitVec.or_zero, wordOfBytes_lanes]

theorem maskOf_eq_zero {l : Lanes} {d : Word} (h : l.upper = false ∨ wordHi d = 0) : maskOf l d = 0 := by
  rcases h with h | h <;> simp [maskOf, h]

/-! What a masked write does to the state. -/

theorem maskedWrite_of_maskOf_eq_zero {l : Lanes} {d : Word} (h : maskOf l d = 0) (a : Addr) (s : State) :
    maskedWrite a l d s = s := if_pos h

theorem maskedWrite_of_maskOf_ne_zero {l : Lanes} {d : Word} (h : maskOf l d ≠ 0) (a : Addr) (s : State) :
    maskedWrite a l d s = hostStore s a.toNat bothLanes (maskedMerge l (rd s a.toNat) d) := if_neg h

/-- A masked write changes the memory and the port alone. -/
theorem maskedWrite_frame (a : Addr) (l : Lanes) (d : Word) (s : State) :
    maskedWrite a l d s = { s with mem := (maskedWrite a l d s).mem, port := (maskedWrite a l d s).port } := by
  unfold maskedWrite
  split <;> rfl

theorem rd_maskedWrite_same (a : Addr) (l : Lanes) (d : Word) (s : State) (hm : MemWf s.mem) :
    rd (maskedWrite a l d s) a.toNat = maskedMerge l (rd s a.toNat) d := by
  by_cases h : maskOf l d = 0
  · rw [maskedWrite_of_maskOf_eq_zero h, maskedMerge_of_maskOf_eq_zero h]
  · rw [maskedWrite_of_maskOf_ne_zero h, rd_hostStore_same _ _ _ _ hm, mergeLanes_both]

theorem rd_maskedWrite_other (a : Addr) (l : Lanes) (d : Word) (s : State) {k : Nat} (hk : k ≠ a.toNat) :
    rd (maskedWrite a l d s) k = rd s k := by
  by_cases h : maskOf l d = 0
  · rw [maskedWrite_of_maskOf_eq_zero h]
  · rw [maskedWrite_of_maskOf_ne_zero h, rd_hostStore_other _ _ _ _ _ hk]

theorem conditions_maskedWrite (a : Addr) (l : Lanes) (d : Word) (s : State) :
    conditions (maskedWrite a l d s) = conditions s := by
  rw [maskedWrite_frame]
  rfl

/-! The command. -/

/-- R4: the path carries out a host write to a notice word, other than that of element 0, as a masked write, once the part
has left STARTING. -/
theorem hostWrite_noticeAddress {n : NoticeWord} {l : Lanes} {s : State} (d : Word) (hr : running s = true)
    (hl : noLanes l = false) (hs : s.part.state ≠ .starting) (hn : n ≠ .element 0) :
    hostWrite (addrOf (noticeAddress n)) l d s = maskedWrite (addrOf (noticeAddress n)) l d s := by
  simp [hostWrite, writeDecision, toNat_addrOf_noticeAddress, inLiveBlock_noticeAddress,
    inHeadEndRecord_noticeAddress hn, wordClass_noticeAddress, hr, hl, hs]

/-- MASKED_WRITE, where it is not squashed, makes no flag's condition arise: the masked write is all it does. -/
theorem exec_maskedWrite {n : NoticeWord} {l : Lanes} {s : State} (d : Word) (hr : running s = true)
    (hl : noLanes l = false) (hs : s.part.state ≠ .starting) (hn : n ≠ .element 0) :
    exec (.maskedWrite n l d) s = .next (maskedWrite (addrOf (noticeAddress n)) l d s) := by
  show Host.Outcome.next (latchArisen s (hostWrite (addrOf (noticeAddress n)) l d s)) = _
  rw [hostWrite_noticeAddress d hr hl hs hn, latchArisen_eq_self (conditions_maskedWrite _ _ _ _)]

/-- R10: the notice word after a masked write is the merge of the word before it. -/
theorem rd_maskedWrite_noticeAddress (n : NoticeWord) (l : Lanes) (d : Word) (s : State) (hm : MemWf s.mem) :
    rd (maskedWrite (addrOf (noticeAddress n)) l d s) (noticeAddress n) =
      maskedMerge l (rd s (noticeAddress n)) d := by
  simpa only [toNat_addrOf_noticeAddress] using rd_maskedWrite_same (addrOf (noticeAddress n)) l d s hm

theorem wordsKept_maskedWrite_noticeAddress (n : NoticeWord) (l : Lanes) (d : Word) (s : State) :
    WordsKept [noticeAddress n] s (maskedWrite (addrOf (noticeAddress n)) l d s) := by
  intro a ha
  rw [List.mem_singleton] at ha
  exact rd_maskedWrite_other _ l d s (by rwa [toNat_addrOf_noticeAddress])

/-- Settles O12: the command is the masked write of the notice word, whose word afterwards is the merge of the old one. -/
theorem maskedWriteMergesByMask : Obligations.MaskedWriteMergesByMask := by
  refine ⟨wordClass_masked_iff, fun n l d s hm hr hl hs hn => ⟨_, exec_maskedWrite d hr hl hs hn, ?_, ?_, ?_, ?_, ?_⟩⟩
  · intro k hk
    simp only [rd_maskedWrite_noticeAddress n l d s hm, getLsbD_maskedMerge _ _ _ hk, getLsbD_maskOf _ _ hk,
      Bool.and_eq_true]
  · rw [rd_maskedWrite_noticeAddress n l d s hm, wordHi_maskedMerge]
  · exact wordsKept_maskedWrite_noticeAddress n l d s
  · exact fun h => maskedWrite_of_maskOf_eq_zero (maskOf_eq_zero h) _ _
  · exact maskedWrite_frame _ _ _ _

end Sys2Proof.Machine

/-! ## Requests that an owner carries out, and DISARM_EVENT (R29, R147) -/

namespace Sys2Proof.Machine

/-! Tables. -/

theorem tableGet_tableSet_same {α : Type} (t : List (Nat × α)) (k : Nat) (v : α) :
    tableGet (tableSet t k v) k = some v := by
  induction t with
  | nil => simp [tableSet, tableGet]
  | cons e t ih =>
    unfold tableSet
    split
    · simp [tableGet]
    · split
      · simp [tableGet]
      · next hne => rw [tableGet, if_neg hne, ih]

theorem tableGet_tableSet_other {α : Type} (t : List (Nat × α)) {k j : Nat} (v : α) (h : j ≠ k) :
    tableGet (tableSet t k v) j = tableGet t j := by
  induction t with
  | nil => simp [tableSet, tableGet, h]
  | cons e t ih =>
    unfold tableSet
    split
    · rw [tableGet, if_neg h]
    · split
      · next heq => rw [tableGet, if_neg h, tableGet, if_neg (heq ▸ h)]
      · rw [tableGet, tableGet, ih]

/-! Words kept. -/

theorem WordsKept.trans {ws : List Nat} {s t u : State} (h₁ : WordsKept ws s t) (h₂ : WordsKept ws t u) :
    WordsKept ws s u :=
  fun a ha => (h₂ a ha).trans (h₁ a ha)

theorem WordsKept.mono {ws vs : List Nat} {s t : State} (h : WordsKept ws s t) (hs : ws ⊆ vs) : WordsKept vs s t :=
  fun a ha => h a fun hw => ha (hs hw)

theorem wordsKept_wr (s : State) (a : Nat) (w : Word) : WordsKept [a] s (wr s a w) :=
  fun b hb => rd_wr_other s a b w (List.ne_of_not_mem_cons hb)

/-! The code word of a request slot (12.4). -/

theorem RequestError.code_lt (e : RequestError) : e.code < 32 := by cases e <;> decide

theorem requestCode_lt (s : State) (n : Nat) : requestCode s n < 256 := Nat.mod_lt _ (by decide)

/-- The fields of a code word do not overlap. -/
theorem toNat_codeWord {c status : Nat} (hc : c < 256) (hs : status < 8) (e : RequestError) :
    (codeWord c status e).toNat = c + 256 * status + 2048 * e.code := by
  have he := e.code_lt
  rw [codeWord, wordOf, BitVec.toNat_ofNat, Nat.mod_eq_of_lt (by omega)]

/-- A slot whose code word was rewritten with its own request code shows the status and the error code written. -/
theorem slotShows_of_codeWord {n status : Nat} {e : RequestError} {s t : State} (hs : status < 8)
    (h : rd t (requestWord n 0) = codeWord (requestCode s n) status e) : SlotShows n status e.code s t := by
  have hc := requestCode_lt s n
  have he := e.code_lt
  simp only [SlotShows, requestStatus, requestCode.eq_def t, field, h, toNat_codeWord hc hs]
  omega

theorem rd_writeRequestStatus_same {s : State} (n status : Nat) (e : RequestError) (hm : MemWf s.mem) :
    rd (writeRequestStatus n status e s) (requestWord n 0) = codeWord (requestCode s n) status e :=
  rd_wr_same s _ _ hm

theorem wordsKept_writeRequestStatus (n status : Nat) (e : RequestError) (s : State) :
    WordsKept [requestWord n 0] s (writeRequestStatus n status e s) :=
  wordsKept_wr s _ _

/-- A word of an event slot record is no word of a request slot. -/
theorem slotWord_ne_requestWord {n : Nat} (k j : Nat) {w : Nat} (hn : n < 8) (hw : w < 4) :
    slotWord k j ≠ requestWord n w := by
  unfold slotWord requestWord
  omega

theorem requestWord_inj {n v w : Nat} : requestWord n v = requestWord n w ↔ v = w := Nat.add_left_cancel_iff

/-! How a request ends (R29). -/

theorem slotShows_endFailed {s : State} (n : Nat) (e : RequestError) (hm : MemWf s.mem) :
    SlotShows n 4 e.code s (endFailed n e s) :=
  slotShows_of_codeWord (by decide) (rd_writeRequestStatus_same n statusFailed e hm)

theorem wordsKept_endFailed (n : Nat) (e : RequestError) (s : State) :
    WordsKept [requestWord n 0] s (endFailed n e s) :=
  wordsKept_writeRequestStatus n statusFailed e s

theorem slotShows_endDone {s : State} (n r : Nat) (hm : MemWf s.mem) : SlotShows n 3 0 s (endDone n r s) := by
  refine slotShows_of_codeWord (e := .ok) (by decide) ?_
  calc rd (endDone n r s) (requestWord n 0)
      = rd (writeRequestStatus n statusDone .ok s) (requestWord n 0) :=
        rd_wr_other _ _ _ _ (mt requestWord_inj.1 (by decide))
    _ = _ := rd_writeRequestStatus_same n statusDone .ok hm

theorem rd_endDone_result {s : State} (n r : Nat) (hm : MemWf s.mem) :
    rd (endDone n r s) (requestWord n 3) = wordOf r :=
  rd_wr_same _ _ _ (wr_wf s _ _ hm)

theorem wordsKept_endDone (n r : Nat) (s : State) : WordsKept (slotWords n) s (endDone n r s) :=
  ((wordsKept_writeRequestStatus n statusDone .ok s).mono (by simp [slotWords])).trans
    ((wordsKept_wr _ _ _).mono (by simp [slotWords]))

/-! The handing over of a request to its owner (R29). -/

/-- R29: the state in which the owner of the request at the head of the queue takes it: its slot number has left the queue
and its code word shows IN_PROGRESS. -/
def handedOver (n : Nat) (s : State) : State := writeRequestStatus n statusInProgress .ok (popRequest s)

/-- A request at the head of the queue, allowed in the part's state, is handed to its owner. -/
theorem carryOut_eq {r : Request} {n : Nat} {rest : List Nat} {s : State} (owner : Nat → State → State)
    (h : AtHead r n rest s) (ha : r.allowed s.part.state = true) : carryOut r owner s = owner n (handedOver n s) := by
  obtain ⟨hstarted, hqueue, -, hcode⟩ := h
  have hallowed : r.allowed (popRequest s).part.state = true := ha
  simp only [carryOut, takeRequest, hqueue, hstarted, hcode, gateRequest, hallowed, handedOver, decide_true, and_self,
    if_true]

theorem handedOver_frame (n : Nat) (s : State) :
    handedOver n s = { s with
      mem := (handedOver n s).mem, port := (handedOver n s).port
      part := { s.part with queue := s.part.queue.drop 1 } } := rfl

@[simp] theorem handedOver_slots (n : Nat) (s : State) : (handedOver n s).slots = s.slots := rfl

theorem handedOver_wf (n : Nat) {s : State} (hm : MemWf s.mem) : MemWf (handedOver n s).mem := wr_wf _ _ _ hm

theorem wordsKept_handedOver (n : Nat) (s : State) : WordsKept [requestWord n 0] s (handedOver n s) :=
  wordsKept_writeRequestStatus n statusInProgress .ok (popRequest s)

theorem requestCode_handedOver (n : Nat) {s : State} (hm : MemWf s.mem) :
    requestCode (handedOver n s) n = requestCode s n :=
  (slotShows_of_codeWord (by decide) (rd_writeRequestStatus_same n statusInProgress .ok hm) :
    SlotShows n _ _ (popRequest s) (handedOver n s)).1

theorem argA_handedOver (n : Nat) (s : State) : argA (handedOver n s) n = argA s n :=
  congrArg BitVec.toNat (wordsKept_handedOver n s _ (by simp [requestWord_inj]))

theorem rd_slotWord_handedOver {n : Nat} (s : State) (k j : Nat) (hn : n < 8) :
    rd (handedOver n s) (slotWord k j) = rd s (slotWord k j) :=
  wordsKept_handedOver n s _ (by simpa using slotWord_ne_requestWord k j hn (by decide))

/-- What a slot shows against the state handed over, it shows against the state before the command. -/
theorem SlotShows.of_handedOver {n status error : Nat} {s t : State} (hm : MemWf s.mem)
    (h : SlotShows n status error (handedOver n s) t) : SlotShows n status error s t := by
  obtain ⟨hcode, hstatus, herror⟩ := h
  exact ⟨hcode.trans (requestCode_handedOver n hm), hstatus, herror⟩

/-- R29: a request that its owner fails at once writes its code word and leaves the queue and the requests in progress; it
changes nothing else. -/
theorem endFailed_handedOver {n : Nat} {rest : List Nat} {s : State} (e : RequestError) (hm : MemWf s.mem)
    (hq : s.part.queue = n :: rest) :
    let u := endFailed n e (handedOver n s)
    SlotShows n 4 e.code s u ∧ WordsKept [requestWord n 0] s u ∧ u.part = afterRequest n rest s.part ∧
      u = { s with mem := u.mem, port := u.port, part := u.part } := by
  refine ⟨(slotShows_endFailed n e (handedOver_wf n hm)).of_handedOver hm,
    (wordsKept_handedOver n s).trans (wordsKept_endFailed n e _), ?_, ?_⟩
  · rw [endFailed_frame, handedOver_frame, hq]; rfl
  · rw [endFailed_frame, handedOver_frame]

/-! The state of an event slot (R143, R144). -/

theorem setSlotState_frame (k : Nat) (st : SlotState) (s : State) :
    setSlotState k st s = { s with
      mem := (setSlotState k st s).mem, port := (setSlotState k st s).port
      slots := { s.slots with armed := (setSlotState k st s).slots.armed } } := by
  unfold setSlotState
  cases tableGet s.slots.armed k <;> rfl

theorem setSlotState_mem (k : Nat) (st : SlotState) (s : State) :
    (setSlotState k st s).mem = (wr s (slotWord k 6) (wordOf st.code)).mem := by
  unfold setSlotState
  cases tableGet s.slots.armed k <;> rfl

theorem setSlotState_wf (k : Nat) (st : SlotState) {s : State} (hm : MemWf s.mem) : MemWf (setSlotState k st s).mem := by
  rw [setSlotState_mem]
  exact wr_wf _ _ _ hm

theorem wordsKept_setSlotState (k : Nat) (st : SlotState) (s : State) :
    WordsKept [slotWord k 6] s (setSlotState k st s) :=
  fun a ha => (rd_congr (setSlotState_mem k st s) a).trans (wordsKept_wr _ _ _ a ha)

theorem rd_setSlotState_same (k : Nat) (st : SlotState) {s : State} (hm : MemWf s.mem) :
    rd (setSlotState k st s) (slotWord k 6) = wordOf st.code :=
  (rd_congr (setSlotState_mem k st s) _).trans (rd_wr_same _ _ _ hm)

/-- R144: of the armed copy of slot `k`, if there is one, the state alone changes. -/
theorem armed_setSlotState_same (k : Nat) (st : SlotState) (s : State) :
    tableGet (setSlotState k st s).slots.armed k =
      (tableGet s.slots.armed k).map fun a => { a with state := st } := by
  unfold setSlotState
  cases h : tableGet s.slots.armed k with
  | none => simp [h]
  | some a => simp [setArmed, tableGet_tableSet_same]

theorem armed_setSlotState_other {k j : Nat} (st : SlotState) (s : State) (h : j ≠ k) :
    tableGet (setSlotState k st s).slots.armed j = tableGet s.slots.armed j := by
  unfold setSlotState
  cases tableGet s.slots.armed k with
  | none => rfl
  | some a => simp [setArmed, tableGet_tableSet_other _ _ h]

/-- A slot set IDLE is IDLE, with an armed copy or without. -/
theorem slotState_setSlotState_idle (k : Nat) (s : State) : slotState (setSlotState k .idle s) k = .idle := by
  rw [slotState, armed_setSlotState_same]
  cases tableGet s.slots.armed k <;> rfl

theorem slotEvent_setSlotState (k : Nat) (st : SlotState) (s : State) :
    slotEvent (setSlotState k st s) k = slotEvent s k := by
  rw [slotEvent, armed_setSlotState_same, slotEvent]
  cases tableGet s.slots.armed k <;> rfl

/-- R143: the answers of the Event Slot Unit for a slot depend on the armed copies alone. -/
theorem slotState_congr {s t : State} (h : t.slots = s.slots) (k : Nat) : slotState t k = slotState s k := by
  rw [slotState, h, slotState]

theorem slotEvent_congr {s t : State} (h : t.slots = s.slots) (k : Nat) : slotEvent t k = slotEvent s k := by
  rw [slotEvent, h, slotEvent]

/-- R150: an entry that names an IDLE slot is stale. -/
theorem isLive_of_idle {s : State} {p : Purchase} {k : Nat} (hs : slotState s k = .idle) (hp : p.slot = k) :
    isLive s p = false := by
  simp [isLive, hp, hs]

/-! DISARM_EVENT (R147). -/

theorem disarmFault_congr {s t : State} {k : Nat} (hs : t.slots = s.slots)
    (hr : rd t (slotWord k 8) = rd s (slotWord k 8)) : disarmFault t k = disarmFault s k := by
  simp only [disarmFault, slotState_congr hs, hr]

/-- R147: a CLOSED slot, and an OPEN one without purchases, passes the tests. -/
theorem disarmFault_eq_none {s : State} {k : Nat} (hk : k ≤ 7)
    (h : slotState s k = .closed ∨ (slotState s k = .open ∧ rd s (slotWord k 8) = 0)) : disarmFault s k = none := by
  rw [disarmFault, if_neg (Nat.not_lt.2 hk)]
  rcases h with hc | ⟨ho, hcount⟩
  · rw [hc]
  · simp [ho, hcount]

/-- R147: the error that each failing test names. -/
theorem disarmFault_eq_some {s : State} {k e : Nat}
    (h : (7 < k ∧ e = 3) ∨ (k ≤ 7 ∧ slotState s k = .idle ∧ e = 2) ∨
      (k ≤ 7 ∧ (slotState s k = .showing ∨ (slotState s k = .open ∧ rd s (slotWord k 8) ≠ 0)) ∧ e = 20)) :
    ∃ x, disarmFault s k = some x ∧ x.code = e := by
  rcases h with ⟨hk, rfl⟩ | ⟨hk, hidle, rfl⟩ | ⟨hk, hsold, rfl⟩
  · exact ⟨.badIndex, if_pos hk, rfl⟩
  · refine ⟨.wrongState, ?_, rfl⟩
    rw [disarmFault, if_neg (Nat.not_lt.2 hk), hidle]
  · refine ⟨.hasPurchases, ?_, rfl⟩
    rw [disarmFault, if_neg (Nat.not_lt.2 hk)]
    rcases hsold with hshowing | ⟨hopen, hcount⟩
    · rw [hshowing]
    · have hsales : (rd s (slotWord k 8)).toNat ≠ 0 := fun hzero => hcount (BitVec.eq_of_toNat_eq hzero)
      simp only [hopen, if_neg hsales]

theorem disarmEvent_of_some {n : Nat} {s : State} {e : RequestError} (h : disarmFault s (argA s n) = some e) :
    disarmEvent n s = endFailed n e s := by
  simp only [disarmEvent, h]

theorem disarmEvent_of_none {n : Nat} {s : State} (h : disarmFault s (argA s n) = none) :
    disarmEvent n s = endDone n 0 (setSlotState (argA s n) .idle s) := by
  simp only [disarmEvent, h]

/-- R147: DISARM_EVENT is allowed in every part state but STARTING, which takes no request, and UNPLANNED. -/
theorem allowed_disarmEvent {s : State} (hs : started s = true) (hp : s.part.state ≠ .unplanned) :
    Request.disarmEvent.allowed s.part.state = true := by
  have hstarting := ((started_iff s).1 hs).2
  unfold Request.allowed
  cases h : s.part.state with
  | starting => exact absurd h hstarting
  | unplanned => exact absurd h hp
  | serving | quiescing | quiesced => rfl

theorem exec_disarmEvent {n : Nat} {rest : List Nat} {s : State} (h : AtHead .disarmEvent n rest s)
    (hp : s.part.state ≠ .unplanned) :
    exec .disarmEvent s = .next (concluded s (disarmEvent n (handedOver n s))) := by
  show Host.Outcome.next (latchArisen s (carryOut .disarmEvent (fun n t => settle (disarmEvent n t)) s)) = _
  rw [carryOut_eq _ h (allowed_disarmEvent h.1 hp)]
  rfl

/-- The tests of DISARM_EVENT find in the state handed over what they find in the state before the command. -/
theorem disarmFault_handedOver {n : Nat} (s : State) (k : Nat) (hn : n < 8) :
    disarmFault (handedOver n s) k = disarmFault s k :=
  disarmFault_congr rfl (rd_slotWord_handedOver s k 8 hn)

/-- R147: a DISARM_EVENT that fails a test is the failure with its error. -/
theorem exec_disarmEvent_fails {n : Nat} {rest : List Nat} {s : State} {e : RequestError}
    (h : AtHead .disarmEvent n rest s) (hp : s.part.state ≠ .unplanned) (he : disarmFault s (argA s n) = some e) :
    exec .disarmEvent s = .next (concluded s (endFailed n e (handedOver n s))) := by
  have ⟨_, _, hn, _⟩ := h
  rw [exec_disarmEvent h hp, disarmEvent_of_some (by rw [argA_handedOver, disarmFault_handedOver s _ hn, he])]

/-- R147: the state in which a DISARM_EVENT of slot `k` that passes its tests ends. -/
def disarmed (n k : Nat) (s : State) : State := endDone n 0 (setSlotState k .idle (handedOver n s))

theorem exec_disarmEvent_passes {n : Nat} {rest : List Nat} {s : State} (h : AtHead .disarmEvent n rest s)
    (hp : s.part.state ≠ .unplanned) (he : disarmFault s (argA s n) = none) :
    exec .disarmEvent s = .next (concluded s (disarmed n (argA s n) s)) := by
  have ⟨_, _, hn, _⟩ := h
  rw [exec_disarmEvent h hp, disarmEvent_of_none (by rw [argA_handedOver, disarmFault_handedOver s _ hn, he]),
    argA_handedOver, disarmed]

theorem disarmed_slots (n k : Nat) (s : State) :
    (disarmed n k s).slots = (setSlotState k .idle (handedOver n s)).slots := rfl

theorem disarmed_frame (n k : Nat) (s : State) :
    disarmed n k s = { s with
      mem := (disarmed n k s).mem, port := (disarmed n k s).port
      part := afterRequest n (s.part.queue.drop 1) s.part
      slots := { s.slots with armed := (disarmed n k s).slots.armed } } := by
  rw [disarmed, endDone_frame, setSlotState_frame, handedOver_frame]
  rfl

theorem slotState_disarmed (n k : Nat) (s : State) : slotState (disarmed n k s) k = .idle :=
  (slotState_congr (disarmed_slots n k s) k).trans (slotState_setSlotState_idle k _)

theorem slotEvent_disarmed (n k : Nat) (s : State) : slotEvent (disarmed n k s) k = slotEvent s k :=
  ((slotEvent_congr (disarmed_slots n k s) k).trans (slotEvent_setSlotState k _ _)).trans
    (slotEvent_congr (handedOver_slots n s) k)

theorem armed_disarmed_other {n k j : Nat} (s : State) (h : j ≠ k) :
    tableGet (disarmed n k s).slots.armed j = tableGet s.slots.armed j := by
  rw [disarmed_slots, armed_setSlotState_other _ _ h, handedOver_slots]

theorem rd_slotState_disarmed {n : Nat} {s : State} (k : Nat) (hn : n < 8) (hm : MemWf s.mem) :
    rd (disarmed n k s) (slotWord k 6) = 0 := by
  have hkept : slotWord k 6 ∉ slotWords n := by
    simp only [slotWords, List.mem_cons, List.not_mem_nil, or_false, not_or]
    exact ⟨slotWord_ne_requestWord k 6 hn (by decide), slotWord_ne_requestWord k 6 hn (by decide)⟩
  exact (wordsKept_endDone n 0 _ _ hkept).trans (rd_setSlotState_same k .idle (handedOver_wf n hm))

theorem wordsKept_disarmed (n k : Nat) (s : State) : WordsKept (slotWords n ++ [slotWord k 6]) s (disarmed n k s) :=
  (((wordsKept_handedOver n s).mono (by simp [slotWords])).trans
    ((wordsKept_setSlotState k .idle _).mono (by simp))).trans
    ((wordsKept_endDone n 0 _).mono (by simp))

theorem slotShows_disarmed {n : Nat} {s : State} (k : Nat) (hn : n < 8) (hm : MemWf s.mem) :
    SlotShows n 3 0 s (disarmed n k s) := by
  refine SlotShows.of_handedOver hm ?_
  obtain ⟨hcode, hstatus, herror⟩ := slotShows_endDone n 0 (setSlotState_wf k .idle (handedOver_wf n hm))
  have hword := wordsKept_setSlotState k .idle (handedOver n s) (requestWord n 0)
    (by simpa using (slotWord_ne_requestWord k 6 hn (by decide)).symm)
  exact ⟨hcode.trans (congrArg (field · 0 8) hword), hstatus, herror⟩

theorem rd_result_disarmed {n : Nat} {s : State} (k : Nat) (hm : MemWf s.mem) :
    rd (disarmed n k s) (requestWord n 3) = 0 :=
  rd_endDone_result n 0 (setSlotState_wf k .idle (handedOver_wf n hm))

/-- Settles O28: the tests of DISARM_EVENT read nothing that its handing over writes, so that the slot's own state decides
between the disarm, which makes every entry of the slot stale by making it IDLE, and a failure that touches its request
slot alone. -/
theorem disarmEventFreesTheSlot : Obligations.DisarmEventFreesTheSlot := by
  rintro n k rest s hm h hp rfl
  have ⟨_, hqueue, hn, _⟩ := h
  refine ⟨fun hk hslot => ?_, fun e herror => ?_⟩
  · have hidle := slotState_disarmed n (argA s n) s
    have hpart := congrArg State.part (disarmed_frame n (argA s n) s)
    rw [hqueue] at hpart
    refine ⟨_, exec_disarmEvent_passes h hp (disarmFault_eq_none hk hslot), hidle, rd_slotState_disarmed _ hn hm,
      slotEvent_disarmed n _ s, fun j hj => armed_disarmed_other s hj, fun i j => isLive_of_idle hidle,
      slotShows_disarmed _ hn hm, rd_result_disarmed _ hm, wordsKept_disarmed n _ s, hpart, ?_⟩
    rw [disarmed_frame]
  · obtain ⟨x, hx, rfl⟩ := disarmFault_eq_some herror
    exact ⟨_, exec_disarmEvent_fails h hp hx, endFailed_handedOver x hm hqueue⟩

end Sys2Proof.Machine

/-! ## The statement arithmetic (R167) -/

namespace Sys2Proof.Machine

/-- R167 stage 2: the credit is what the outage exceeds the grace by; truncated subtraction gives the rule's 0 otherwise. -/
theorem creditMinutes_eq_ite (outage grace : Nat) :
    creditMinutes outage grace = if grace < outage then outage - grace else 0 := by
  rw [creditMinutes]
  split <;> omega

theorem creditMinutes_le (outage grace : Nat) : creditMinutes outage grace ≤ outage := Nat.sub_le _ _

theorem billableMinutes_le (connected credit : Nat) : billableMinutes connected credit ≤ connected := Nat.sub_le _ _

/-! Stage 1: the subtotal. -/

theorem tierRate_le {rates : List Nat} {bound : Nat} (h : ∀ q ∈ rates, q ≤ bound) (tiers : Word) (t : Nat) :
    (if tiers.getLsbD t then rates.getD t 0 else 0) ≤ bound := by
  split
  · rw [List.getD_eq_getElem?_getD]
    cases hq : rates[t]? with
    | none => exact Nat.zero_le _
    | some q => exact h q (List.mem_of_getElem? hq)
  · exact Nat.zero_le _

/-- R167 stage 1: the base rate and the rates of at most sixteen tiers. -/
theorem monthlySubtotal_le {rates : List Nat} {bound : Nat} (h : ∀ q ∈ rates, q ≤ bound) (base : Nat) (tiers : Word) :
    monthlySubtotal base tiers rates ≤ base + 16 * bound := by
  refine Nat.add_le_add_left (List.sum_le_card_nsmul _ bound fun q hq => ?_) base
  obtain ⟨t, -, rfl⟩ := List.mem_map.1 hq
  exact tierRate_le h tiers t

/-! Stage 4: the charge. -/

/-- R167 stage 4: the charge is the share of the subtotal rounded to the nearest cent, an exact half up. -/
theorem subscriptionCharge_nearest (subtotal billable : Nat) {period : Nat} (hp : period ≠ 0) :
    2 * subtotal * billable < (2 * subscriptionCharge subtotal billable period + 1) * period ∧
      2 * subscriptionCharge subtotal billable period * period ≤ 2 * subtotal * billable + period := by
  have hpos : 0 < 2 * period := by omega
  rw [subscriptionCharge, if_neg hp]
  have hlow := Nat.div_mul_le_self (2 * subtotal * billable + period) (2 * period)
  have hhigh := Nat.lt_div_mul_add hpos (a := 2 * subtotal * billable + period)
  constructor <;> linarith

/-- R167 stage 4: a share of no more than the whole period costs no more than the subtotal. -/
theorem subscriptionCharge_le (subtotal : Nat) {billable period : Nat} (h : billable ≤ period) :
    subscriptionCharge subtotal billable period ≤ subtotal := by
  by_cases hp : period = 0
  · rw [subscriptionCharge, if_pos hp]
    exact Nat.zero_le _
  · have hscaled : 2 * subscriptionCharge subtotal billable period * period ≤ (2 * subtotal + 1) * period :=
      calc 2 * subscriptionCharge subtotal billable period * period
          ≤ 2 * subtotal * billable + period := (subscriptionCharge_nearest subtotal billable hp).2
        _ ≤ 2 * subtotal * period + period := Nat.add_le_add_right (Nat.mul_le_mul_left _ h) _
        _ = (2 * subtotal + 1) * period := (Nat.succ_mul _ _).symm
    have hdoubled := Nat.le_of_mul_le_mul_right hscaled (Nat.pos_of_ne_zero hp)
    omega

/-- Settles O54: the amounts of the rule are the stages of `statementOf`, so each bound is the bound of its stage, at the
widths of the words that the stage reads. -/
theorem statementsRoundToTheNearestCent : Obligations.StatementsRoundToTheNearestCent := by
  intro s i subtotal credit billable period charge total hperiod hsubtotal hcredit hbillable hcharge htotal
  change subtotal = monthlySubtotal (subRd s i 4).toNat (subRd s i 3) (planOf s).rates at hsubtotal
  rw [← creditMinutes_eq_ite] at hcredit
  change billable = billableMinutes (subRd s i 11).toNat credit at hbillable
  change charge = subscriptionCharge subtotal billable period at hcharge
  have hstatement : statementOf s i =
      { credit := credit, charge := charge, ppv := (subRd s i 13).toNat, total := total } := by
    simp only [statementOf, hperiod, hsubtotal, hcredit, hbillable, hcharge, htotal]
  have hbill : billable ≤ (subRd s i 11).toNat := hbillable ▸ billableMinutes_le _ _
  have hshare (hlaw : (subRd s i 11).toNat ≤ period) : charge ≤ subtotal :=
    hcharge ▸ subscriptionCharge_le subtotal (hbill.trans hlaw)
  refine ⟨hstatement, by rw [statementWords, hstatement, hperiod], hcredit ▸ creditMinutes_le _ _, hbill,
    fun hp => hcharge ▸ subscriptionCharge_nearest subtotal billable hp,
    fun hlaw => ⟨hbill.trans hlaw, hshare hlaw⟩, fun hrates => ?_⟩
  have hbase := (subRd s i 4).isLt
  have hminutes := (subRd s i 11).isLt
  have hlength := (subRd s i 10).isLt
  have hppv := (subRd s i 13).isLt
  have hsum : subtotal ≤ 1114095 := by
    have := monthlySubtotal_le hrates (subRd s i 4).toNat (subRd s i 3)
    omega
  have hproduct : 2 * subtotal * billable ≤ 2 * 1114095 * 65535 :=
    Nat.mul_le_mul (Nat.mul_le_mul_left 2 hsum) (by omega)
  refine ⟨hsum, by omega, fun hlaw => ?_⟩
  have := hshare hlaw
  omega

end Sys2Proof.Machine


/-! ## What every operation keeps

The laws that each step keeps, and the latches that only named events clear, are followed through the operations of the
model once: `Moves can s t` says what holds of `t` when an operation has led to it from `s`. -/

namespace Sys2Proof.Machine

/-- The parts of the state whose change a statement may have to name: the part state (R24), and what the quiet condition
reads (R32). -/
inductive Touch where
  | state | quiet

/-- What an operation that touches at most the parts in `can` keeps from `s` to `t`. An operation that leaves a law's
fields alone keeps it by definition, so that a proof names only the fields the operation is about. -/
structure Moves (can : Touch → Prop) (s t : State) : Prop where
  pending : t.pending = s.pending
  pair : t.path.pair = s.path.pair
  power : t.power = s.power
  flags : ∀ k, s.flags.getLsbD k = true → t.flags.getLsbD k = true
  mem : MemWf s.mem → MemWf t.mem
  port : PortIdle s → PortIdle t
  queue : QueueLaw s → QueueLaw t
  capacity : CapacityLaw s → CapacityLaw t
  ring : RingLaw s → RingLaw t
  plant : PlantLaw s → PlantLaw t
  cursor : CursorLaw s → CursorLaw t
  meter : MeterLaw s → MeterLaw t
  clock : ClockLaw s → ClockLaw t
  ack : AckLaw s → AckLaw t
  slot : SlotLaw s → SlotLaw t
  state : ¬can .state → t.part.state = s.part.state
  quiet : ¬can .quiet → isQuiet t = isQuiet s

variable {can : Touch → Prop} {s t u : State}

theorem Moves.refl (s : State) : Moves can s s :=
  ⟨rfl, rfl, rfl, fun _ h => h, id, id, id, id, id, id, id, id, id, id, id, fun _ => rfl, fun _ => rfl⟩

/-! No law reads these parts of the state. -/

theorem plan_moves (p : PlanChecker) (s : State) : Moves can s { s with plan := p } := { Moves.refl s with }

theorem lineup_moves (l : LineUp) (s : State) : Moves can s { s with lineup := l } := { Moves.refl s with }

theorem receiver_moves (r : Receiver) (s : State) : Moves can s { s with receiver := r } := { Moves.refl s with }

theorem slots_moves (e : EventSlots) (s : State) : Moves can s { s with slots := e } := { Moves.refl s with }

theorem matched_moves (n : BitVec 32) (s : State) :
    Moves can s { s with tracker := { s.tracker with matched := n } } := { Moves.refl s with }

theorem framesSent_moves (n : BitVec 32) (s : State) :
    Moves can s { s with sched := { s.sched with framesSent := n } } := { Moves.refl s with }

theorem Moves.trans (h : Moves can s t) (k : Moves can t u) : Moves can s u where
  pending := k.pending.trans h.pending
  pair := k.pair.trans h.pair
  power := k.power.trans h.power
  flags i hi := k.flags i (h.flags i hi)
  mem := k.mem ∘ h.mem
  port := k.port ∘ h.port
  queue := k.queue ∘ h.queue
  capacity := k.capacity ∘ h.capacity
  ring := k.ring ∘ h.ring
  plant := k.plant ∘ h.plant
  cursor := k.cursor ∘ h.cursor
  meter := k.meter ∘ h.meter
  clock := k.clock ∘ h.clock
  ack := k.ack ∘ h.ack
  slot := k.slot ∘ h.slot
  state n := (k.state n).trans (h.state n)
  quiet n := (k.quiet n).trans (h.quiet n)

/-- The last of several operations first, where the states between follow from it. -/
theorem Moves.after (k : Moves can t u) (h : Moves can s t) : Moves can s u := h.trans k

/-- An operation that touches less may stand where more may be touched. -/
theorem Moves.mono {can' : Touch → Prop} (h : Moves can s t) (hc : ∀ x, can x → can' x) : Moves can' s t :=
  { h with
    state := fun n => h.state (mt (hc _) n)
    quiet := fun n => h.quiet (mt (hc _) n) }

/-- A fold of operations moves when each of its steps does. -/
theorem Moves.foldl {α : Type} {f : State → α → State} (hf : ∀ s x, Moves can s (f s x)) (l : List α) :
    ∀ s, Moves can s (l.foldl f s) := by
  induction l with
  | nil => exact Moves.refl
  | cons x t ih => exact fun s => (hf s x).trans (ih _)

/-- A choice of two operations. -/
theorem Moves.ite {c : Prop} [Decidable c] (h : c → Moves can s t) (k : ¬c → Moves can s u) :
    Moves can s (if c then t else u) := by
  split
  · next hc => exact h hc
  · next hc => exact k hc

/-! Memory, flags and the squash latch. -/

theorem grantPort_moves (x : PortSide) (s : State) : Moves can s (grantPort x s) :=
  { Moves.refl s with
    port _ := grantPort_idle x s }

theorem partRead_moves (s : State) : Moves can s (partRead s) := grantPort_moves .part s

theorem wr_moves (s : State) (a : Nat) (w : Word) : Moves can s (wr s a w) :=
  { Moves.refl s with
    mem := wr_wf s a w
    port _ := grantPort_idle .part _ }

theorem wrHeld_moves (s : State) (ws : List (Nat × Word)) : Moves can s (wrHeld s ws) :=
  { Moves.refl s with
    mem := wrHeld_wf s ws
    port _ := grantPort_idle .part _ }

theorem wrPair_moves (s : State) (a n : Nat) : Moves can s (wrPair s a n) := wrHeld_moves s _

theorem hostStore_moves (s : State) (a : Nat) (l : Lanes) (w : Word) : Moves can s (hostStore s a l w) :=
  { Moves.refl s with
    mem := hostStore_wf s a l w
    port _ := grantPort_idle .host _ }

theorem wrAll_moves (l : List (Nat × Word)) : ∀ s : State, Moves can s (wrAll s l) := by
  induction l with
  | nil => exact Moves.refl
  | cons x t ih => exact fun s => (wr_moves s x.1 x.2).trans (ih _)

theorem setNotice_moves (a b : Nat) (s : State) : Moves can s (setNotice a b s) := wr_moves s _ _

theorem writeRecord_moves (l : List Word) : ∀ (s : State) (a : Nat), Moves can s (writeRecord s a l) := by
  induction l with
  | nil => exact fun s _ => Moves.refl s
  | cons w t ih => exact fun s a => (wr_moves s a w).trans (ih _ _)

theorem latch_moves (w : Word) (s : State) : Moves can s (latch w s) :=
  { Moves.refl s with
    flags k h := by simp [latch, h] }

theorem report_moves (f : Flag) (s : State) : Moves can s (report f s) := latch_moves _ s

theorem reportCondition_moves (f : Flag) (s : State) : Moves can s (reportCondition f s) :=
  Moves.ite (fun _ => Moves.refl s) fun _ => latch_moves _ s

theorem latchArisen_moves (s t : State) : Moves can t (latchArisen s t) :=
  Moves.ite (fun _ => Moves.refl t) fun _ => latch_moves _ t

theorem squash_moves (a : Addr) (r : SquashReason) (s : State) : Moves can s (squash a r s) :=
  { Moves.refl s with
    flags k h := by simp [squash, h] }

/-! Statuses and requests. -/

theorem writeStatus_moves (i : Nat) (o n : RecordStatus) (s : State) : Moves can s (writeStatus i o n s) :=
  (wr_moves s _ _).trans { Moves.refl (wr s (subscriberWord i 8) (statusWord n)) with }

theorem writeRequestStatus_moves (n status : Nat) (e : RequestError) (s : State) :
    Moves can s (writeRequestStatus n status e s) := wr_moves s _ _

/-- A request that is in progress no more leaves the slots' law as it was. -/
theorem endRequest_moves (n : Nat) (s : State) :
    Moves can s { s with part := { s.part with inProgress := s.part.inProgress.filter fun p => p.1 != n } } :=
  { Moves.refl s with
    slot := fun ⟨hnodup, hqueue, hprogress, hbound, hreset, hscan⟩ =>
      ⟨hnodup.sublist ((List.Sublist.refl _).append (List.filter_sublist.map _)), hqueue,
        fun p hp => hprogress p (List.mem_of_mem_filter hp), hbound, hreset,
        fun hstate hstep => ⟨(hscan hstate hstep).1, by
          show List.filter _ s.part.inProgress = []
          rw [(hscan hstate hstep).2, List.filter_nil]⟩⟩ }

theorem endFailed_moves (n : Nat) (e : RequestError) (s : State) : Moves can s (endFailed n e s) :=
  (writeRequestStatus_moves n statusFailed e s).trans (endRequest_moves n _)

theorem endDone_moves (n r : Nat) (s : State) : Moves can s (endDone n r s) :=
  ((writeRequestStatus_moves n statusDone .ok s).trans (wr_moves _ _ _)).trans (endRequest_moves n _)

/-! The rings. -/

theorem ringCopy_setRingCopy (n m : RingName) (r : RingCopy) (s : State) :
    ringCopy (setRingCopy n r s) m = if m = n then some r else ringCopy s m := by
  cases n <;> cases m <;> rfl

/-- The law of the rings, said of the copies. -/
theorem ringLaw_iff (s : State) : RingLaw s ↔
    (∀ n r, ringCopy s n = some r → r.head < ringSize n ∧ r.tail < ringSize n) ∧
      (ringCopy s .log = none ↔ ringCopy s .journal = none) := Iff.rfl

/-- Loaded copies replaced by copies that name positions of the ring keep the law. -/
theorem setRingCopy_moves {n : RingName} {r r' : RingCopy} (h : ringCopy s n = some r)
    (hr : r.head < ringSize n → r.tail < ringSize n → r'.head < ringSize n ∧ r'.tail < ringSize n) :
    Moves can s (setRingCopy n r' s) := by
  have hring : RingLaw s → RingLaw (setRingCopy n r' s) := by
    rintro ⟨hpos, hload⟩
    refine (ringLaw_iff _).2 ⟨fun m q hq => ?_, ?_⟩
    · rw [ringCopy_setRingCopy] at hq
      split at hq
      · next hm =>
        cases hq
        cases hm
        exact hr (hpos _ _ h).1 (hpos _ _ h).2
      · exact hpos m q hq
    · have hother : ∀ m, ringCopy s m ≠ none := by
        intro m hm
        cases n <;> cases m <;> simp_all [ringCopy]
      simp only [ringCopy_setRingCopy]
      have hloaded (m : RingName) (hn : (if m = n then some r' else ringCopy s m) = none) : False := by
        split at hn
        · cases hn
        · exact hother m hn
      exact ⟨fun hn => (hloaded _ hn).elim, fun hn => (hloaded _ hn).elim⟩
  cases n <;> exact { Moves.refl _ with ring := hring }

theorem advanceRing_moves {n : RingName} {r : RingCopy} (h : ringCopy s n = some r) :
    Moves can s (advanceRing n r s) := by
  have hsize : 0 < ringSize n := by cases n <;> decide
  have hwrites := (wr_moves (can := can) s (ringControl n).1 (wordOf ((r.head + 1) % ringSize n))).trans
    (wr_moves _ (ringControl n).2.2 (wordOf (nextSequence r.sequence)))
  exact hwrites.trans (setRingCopy_moves (r := r) (by cases n <;> exact h) fun _ ht => ⟨Nat.mod_lt _ hsize, ht⟩)

theorem ringSize_pos (n : RingName) : 0 < ringSize n := by cases n <;> decide

/-- R172: validation loads a ring's copies with positions of the ring. -/
theorem validateRing_copy (n : RingName) (s : State) :
    (∃ r, ringCopy (validateRing n s) n = some r ∧ r.head < ringSize n ∧ r.tail < ringSize n) ∧
      ∀ m, m ≠ n → ringCopy (validateRing n s) m = ringCopy s m := by
  have hpos := ringSize_pos n
  have hkeep (e f : Bool) (t : State) (ht : t.writer = s.writer) (r : RingCopy) (m : RingName) (hm : m ≠ n) :
      ringCopy (setRingCopy n r (noteRing n e f t)) m = ringCopy s m := by
    rw [ringCopy_setRingCopy, if_neg hm]
    cases n <;> cases m <;> simp_all [ringCopy, noteRing]
  have hset (r : RingCopy) (t : State) : ringCopy (setRingCopy n r t) n = some r := by
    rw [ringCopy_setRingCopy, if_pos rfl]
  unfold validateRing
  dsimp only
  split
  · refine ⟨⟨_, hset _ _, hpos, hpos⟩, fun m hm => hkeep _ _ _ ?_ _ m hm⟩
    split <;> rfl
  · split
    · exact ⟨⟨_, hset _ _, hpos, hpos⟩, fun m hm => hkeep _ _ _ (by rfl) _ m hm⟩
    · split
      · exact ⟨⟨_, hset _ _, by dsimp only; omega, by dsimp only; omega⟩, fun m hm => hkeep _ _ _ (by rfl) _ m hm⟩
      · exact ⟨⟨_, hset _ _, by dsimp only; omega, by dsimp only; omega⟩, fun m hm => hkeep _ _ _ (by rfl) _ m hm⟩

theorem noteRing_port (n : RingName) (e f : Bool) (s : State) : (noteRing n e f s).port = s.port := by
  cases n <;> rfl

theorem setRingCopy_port (n : RingName) (r : RingCopy) (s : State) : (setRingCopy n r s).port = s.port := by
  cases n <;> rfl

theorem portIdle_congr (h : t.port = s.port) : PortIdle t ↔ PortIdle s := by
  unfold PortIdle
  rw [h]

theorem validateRing_idle (n : RingName) (h : PortIdle s) : PortIdle (validateRing n s) := by
  unfold validateRing
  dsimp only
  repeat' split
  all_goals rw [portIdle_congr (setRingCopy_port _ _ _), portIdle_congr (noteRing_port _ _ _ _)]
  · exact wr_idle _ _ _
  · exact wr_idle _ _ _
  · exact wr_idle _ _ _
  · exact wr_idle _ _ _
  · exact h

theorem validateRings_idle (h : PortIdle s) : PortIdle (validateRings s) := by
  unfold validateRings
  split
  · exact h
  · exact validateRing_idle _ (validateRing_idle _ (grantPort_idle _ _))

/-- R172: after validation both copies are loaded, with positions of their rings. -/
theorem validateRings_ring (h : RingLaw s) : RingLaw (validateRings s) := by
  unfold validateRings
  split
  · exact h
  · obtain ⟨⟨j, hj, hjh, hjt⟩, hjo⟩ := validateRing_copy .journal (validateRing .log (partRead s))
    obtain ⟨⟨l, hl, hlh, hlt⟩, -⟩ := validateRing_copy .log (partRead s)
    have hl' := (hjo .log (by decide)).trans hl
    refine (ringLaw_iff _).2 ⟨fun n r hr => ?_, by rw [hl', hj]; simp⟩
    cases n
    · cases hl'.symm.trans hr
      exact ⟨hlh, hlt⟩
    · cases hj.symm.trans hr
      exact ⟨hjh, hjt⟩

theorem validateRings_moves (s : State) : Moves can s (validateRings s) := by
  have hmem := validateRings_wf s
  have hport := validateRings_idle (s := s)
  have hring := validateRings_ring (s := s)
  rw [validateRings_frame] at hmem hport hring ⊢
  exact { Moves.refl _ with mem := hmem, port := hport, ring := hring }

theorem logAppend_moves (k : LogKind) (x a b c : Nat) (s : State) : Moves can s (logAppend k x a b c s) := by
  refine (validateRings_moves s).trans ?_
  unfold logAppend
  generalize validateRings s = t
  dsimp only
  split
  · exact Moves.refl t
  · next r hr =>
    refine Moves.ite (fun _ => ?_) fun _ => ?_
    · exact ((wr_moves t _ _).trans (setRingCopy_moves (n := .log) (r := r)
        (r' := { r with sequence := nextSequence r.sequence }) hr fun hh ht => ⟨hh, ht⟩)).trans
        (reportCondition_moves .logFull _)
    · refine (writeRecord_moves _ _ _).trans (advanceRing_moves (n := .log) ?_)
      rw [writeRecord_frame]
      exact hr

theorem takeJournal_moves (s : State) : Moves can s (takeJournal s).1 := by
  refine (validateRings_moves s).trans ?_
  unfold takeJournal
  generalize validateRings s = t
  dsimp only
  split
  · exact Moves.refl t
  · split
    · exact reportCondition_moves _ t
    · exact { Moves.refl t with }

theorem returnJournal_moves (s : State) : Moves can s (returnJournal s) := { Moves.refl s with }

theorem journalAppend_moves (k : JournalKind) (ws : List Nat) (s : State) : Moves can s (journalAppend k ws s) := by
  unfold journalAppend
  split
  · exact Moves.refl s
  · next r hr =>
    refine ((writeRecord_moves _ s _).trans (advanceRing_moves (n := .journal) ?_)).trans (returnJournal_moves _)
    rw [writeRecord_frame]
    exact hr

theorem setTail_moves {n : RingName} {r : RingCopy} {v : Nat} (h : ringCopy s n = some r)
    (hv : r.head < ringSize n → v < ringSize n) : Moves can s (setTail n v s) := by
  simp only [setTail, h]
  exact setRingCopy_moves h fun hh _ => ⟨hh, hv hh⟩

end Sys2Proof.Machine


/-! ## What the scheduler's operations keep -/

namespace Sys2Proof.Machine

variable {can : Touch → Prop} {s t u : State}

/-! Queues. -/

theorem mem_insertNat (l : List Nat) (x y : Nat) : y ∈ insertNat l x ↔ y = x ∨ y ∈ l := by
  induction l with
  | nil => simp [insertNat]
  | cons z t ih =>
    unfold insertNat
    split
    · simp
    · split
      · next h => subst h; simp
      · simp only [List.mem_cons, ih]
        exact or_left_comm

theorem insertNat_pairwise {l : List Nat} (x : Nat) (h : l.Pairwise (· < ·)) : (insertNat l x).Pairwise (· < ·) := by
  induction l with
  | nil => simp [insertNat]
  | cons z t ih =>
    obtain ⟨hz, ht⟩ := List.pairwise_cons.1 h
    unfold insertNat
    split
    · next hlt => exact List.pairwise_cons.2 ⟨fun y hy => (List.mem_cons.1 hy).elim (· ▸ hlt) fun hy => hlt.trans (hz y hy), h⟩
    · split
      · exact h
      · refine List.pairwise_cons.2 ⟨fun y hy => ?_, ih ht⟩
        rcases (mem_insertNat t x y).1 hy with rfl | hy
        · omega
        · exact hz y hy

theorem nodup_of_pairwise_lt {l : List Nat} (h : l.Pairwise (· < ·)) : l.Nodup := h.imp fun hab => Nat.ne_of_lt hab

theorem isWaiting_iff (s : State) (i : Nat) : isWaiting s i = true ↔ i ∈ s.sched.queue ++ s.sched.deferred := by
  simp [isWaiting]

/-- A queue that has grown at its tail keeps the head a grant was given for. -/
theorem ackLaw_of_append {more : List Nat} (h : AckLaw s) (ht : t.tracker.table = s.tracker.table)
    (hl : t.sched.link = s.sched.link) (hq : t.sched.queue = s.sched.queue ++ more) : AckLaw t := by
  obtain ⟨hlen, hretire, himmediate⟩ := h
  refine ⟨ht ▸ hlen, fun h => ht ▸ hretire (hl ▸ h), fun h => ?_⟩
  obtain ⟨i, rest, hhead, hroom⟩ := himmediate (hl ▸ h)
  exact ⟨i, rest ++ more, by rw [hq, hhead, List.cons_append], ht ▸ hroom⟩

theorem wakeRefresh_moves (s : State) : Moves can s (wakeRefresh s) :=
  Moves.ite (fun _ => { Moves.refl s with }) fun _ => Moves.refl s

/-- An insertion keeps the other members and adds one. -/
theorem insertNat_perm {l : List Nat} {x : Nat} (h : x ∉ l) : (insertNat l x).Perm (x :: l) := by
  induction l with
  | nil => exact List.Perm.refl _
  | cons z t ih =>
    obtain ⟨hz, ht⟩ := not_or.1 (mt List.mem_cons.2 h)
    unfold insertNat
    split
    · exact List.Perm.refl _
    · exact ((ih ht).cons z).trans (List.Perm.swap x z t)

theorem submit_moves (i : Nat) (s : State) : Moves can s (submit i s) := by
  refine (wakeRefresh_moves s).trans ?_
  unfold submit
  generalize wakeRefresh s = t
  dsimp only
  refine Moves.ite (fun _ => Moves.refl t) fun hw => ?_
  rw [isWaiting_iff] at hw
  refine Moves.ite (fun hroom => ?_) fun _ => ?_
  · refine { Moves.refl _ with queue := fun h => ?_, capacity := ?_, ack := fun h => ackLaw_of_append h rfl rfl rfl }
    · show (t.sched.queue ++ [i] ++ t.sched.deferred).Nodup
      have hp : (t.sched.queue ++ [i] ++ t.sched.deferred).Perm (i :: (t.sched.queue ++ t.sched.deferred)) := by
        rw [List.append_assoc]
        exact List.perm_middle
      exact hp.nodup_iff.2 (List.nodup_cons.2 ⟨hw, h⟩)
    · rintro ⟨-, hrest⟩
      refine ⟨?_, hrest⟩
      have : t.sched.queue.length < 64 := hroom
      simp only [List.length_append, List.length_singleton]
      omega
  · refine { Moves.refl _ with queue := fun h => ?_, capacity := ?_ }
    · show (t.sched.queue ++ insertNat t.sched.deferred i).Nodup
      have hi : i ∉ t.sched.deferred := fun h' => hw (List.mem_append_right _ h')
      have hp := ((insertNat_perm hi).append_left t.sched.queue).trans List.perm_middle
      exact hp.nodup_iff.2 (List.nodup_cons.2 ⟨hw, h⟩)
    · rintro ⟨hq, hr, hs, ho, hd, hp⟩
      exact ⟨hq, hr, hs, ho, insertNat_pairwise i hd, hp⟩

/-! Refill (R80). -/

theorem refillOrder_perm (d : List Nat) (p : Nat) : (refillOrder d p).Perm d := by
  refine List.Perm.trans ?_ (List.filter_append_perm (fun x => decide (p ≤ x)) d)
  refine List.Perm.append_left _ (List.Perm.of_eq (List.filter_congr fun x _ => ?_))
  simp only [← decide_not, Nat.not_le]

/-- R80: the marks that a refill moves. -/
def refillMoved (s : State) : List Nat :=
  (refillOrder s.sched.deferred s.sched.refillPointer).take (queueCapacity - s.sched.queue.length)

theorem refill_of_nil (h : refillMoved s = []) : refill s = s := by
  rw [refillMoved] at h
  simp [refill, h]

theorem refill_of_last {x : Nat} (h : (refillMoved s).getLast? = some x) :
    refill s = { s with sched := { s.sched with
      queue := s.sched.queue ++ refillMoved s
      deferred := s.sched.deferred.filter fun x => decide (x ∉ refillMoved s)
      refillPointer := (x + 1) % 4096 } } := by
  rw [refillMoved] at h
  simp only [refill, h]
  rfl

theorem refillMoved_subset {x : Nat} (h : x ∈ refillMoved s) : x ∈ s.sched.deferred :=
  (refillOrder_perm _ _).subset (List.take_subset _ _ h)

theorem refillMoved_nodup (h : s.sched.deferred.Nodup) : (refillMoved s).Nodup :=
  ((refillOrder_perm _ _).nodup_iff.2 h).sublist (List.take_sublist _ _)

/-- The queue and the map stay disjoint when marks move from one to the other. -/
theorem refill_moves (s : State) : Moves can s (refill s) := by
  cases h : (refillMoved s).getLast? with
  | none => rw [refill_of_nil (List.getLast?_eq_none_iff.1 h)]; exact Moves.refl s
  | some x =>
    rw [refill_of_last h]
    refine { Moves.refl _ with queue := fun hq => ?_, capacity := ?_, ack := fun h => ackLaw_of_append h rfl rfl rfl }
    · obtain ⟨hqueue, hdef, hdis⟩ := List.nodup_append.1 hq
      refine List.nodup_append.2 ⟨List.nodup_append.2 ⟨hqueue, refillMoved_nodup hdef, ?_⟩, hdef.filter _, ?_⟩
      · exact fun a ha b hb => hdis a ha b (refillMoved_subset hb)
      · intro a ha b hb
        obtain ⟨hb, hbm⟩ := List.mem_filter.1 hb
        rcases List.mem_append.1 ha with ha | ha
        · exact hdis a ha b hb
        · rintro rfl
          exact of_decide_eq_true hbm ha
    · rintro ⟨hq, hr, hs, ho, hd, -⟩
      refine ⟨?_, hr, hs, ho, hd.filter _, Nat.mod_lt _ (by decide)⟩
      have hlen : (refillMoved s).length ≤ 64 - s.sched.queue.length := List.length_take_le _ _
      simp only [List.length_append]
      omega

/-! Sweeps. -/

/-- The sweep table replaced by one that keeps the cursors in their table. -/
theorem sweeps_moves {ws : List Sweep} (hlen : s.sched.sweeps.length ≤ 4 → ws.length ≤ 4)
    (hcur : (∀ w ∈ s.sched.sweeps, w.cursor ≤ 4096 ∧ w.maps ≤ 8) → ∀ w ∈ ws, w.cursor ≤ 4096 ∧ w.maps ≤ 8) :
    Moves can s { s with sched := { s.sched with sweeps := ws } } :=
  { Moves.refl s with
    capacity := fun ⟨hq, hr, hs, ho, hd, hp⟩ => ⟨hq, hr, hlen hs, ho, hd, hp⟩
    cursor := fun ⟨hc, hr, hm, hw, hp⟩ => ⟨hc, hr, hm, hcur hw, hp⟩ }

/-- Sweeps changed one by one. -/
theorem mapSweeps_moves {f : Sweep → Sweep} (hf : ∀ w, w.cursor ≤ 4096 ∧ w.maps ≤ 8 → (f w).cursor ≤ 4096 ∧ (f w).maps ≤ 8)
    (s : State) : Moves can s { s with sched := { s.sched with sweeps := s.sched.sweeps.map f } } :=
  sweeps_moves (by simp) fun h w hw => by
    obtain ⟨v, hv, rfl⟩ := List.mem_map.1 hw
    exact hf v (h v hv)

theorem unstopSweeps_moves (s : State) : Moves can s (unstopSweeps s) :=
  Moves.ite (fun _ => mapSweeps_moves (f := fun w => { w with stopped := false }) (fun _ h => h) s) fun _ => Moves.refl s

theorem dropSweep_moves (k : SweepKind) (c : Nat) (s : State) : Moves can s (dropSweep k c s) :=
  (logAppend_moves _ _ _ _ _ s).trans (report_moves _ _)

theorem eraseFirst_sublist {α : Type} (p : α → Bool) (l : List α) : (eraseFirst p l).Sublist l := by
  induction l with
  | nil => exact List.Sublist.refl _
  | cons x t ih =>
    unfold eraseFirst
    split
    · exact List.sublist_cons_self x t
    · exact ih.cons_cons x

theorem eraseFirst_length {α : Type} {p : α → Bool} {l : List α} {x : α} (hx : x ∈ l) (hp : p x = true) :
    (eraseFirst p l).length + 1 = l.length := by
  induction l with
  | nil => cases hx
  | cons y t ih =>
    unfold eraseFirst
    split
    · rfl
    · next hy =>
      rcases List.mem_cons.1 hx with rfl | hx
      · exact absurd hp hy
      · rw [List.length_cons, List.length_cons, ih hx]

theorem dropSweep_sched (k : SweepKind) (c : Nat) (s : State) : (dropSweep k c s).sched = s.sched := by
  rw [dropSweep_frame]

theorem openSweep_moves (k : SweepKind) (s : State) : Moves can s (openSweep k s) := by
  have hnew (k : SweepKind) : (newSweep k).cursor ≤ 4096 ∧ (newSweep k).maps ≤ 8 := by simp [newSweep]
  unfold openSweep
  dsimp only
  refine Moves.ite (fun _ => ?_) fun _ => Moves.ite (fun hroom => ?_) fun _ => Moves.ite (fun _ => ?_) fun _ => ?_
  · exact mapSweeps_moves (fun w h => by split <;> [exact hnew k; exact h]) s
  · refine sweeps_moves (fun _ => ?_) fun h w hw => ?_
    · have : s.sched.sweeps.length < 4 := hroom
      simp only [List.length_append, List.length_singleton]
      omega
    · rcases List.mem_append.1 hw with hw | hw
      · exact h w hw
      · exact List.mem_singleton.1 hw ▸ hnew k
  · exact dropSweep_moves k 0 s
  · split
    · next w hw =>
      refine (dropSweep_moves w.kind w.cursor s).trans (sweeps_moves (fun h => ?_) fun h v hv => ?_)
      · rw [dropSweep_sched] at h ⊢
        have := eraseFirst_length (p := fun v : Sweep => v.kind.optional) (List.mem_of_find?_eq_some hw)
          (List.find?_some (p := fun v : Sweep => v.kind.optional) hw)
        simp only [List.length_append, List.length_singleton]
        omega
      · rcases List.mem_append.1 hv with hv | hv
        · exact h v ((eraseFirst_sublist _ _).subset hv)
        · exact List.mem_singleton.1 hv ▸ hnew k
    · exact sweeps_moves (fun _ => by simp) fun _ w hw => List.mem_singleton.1 hw ▸ hnew _

/-- A part that is not in a reset leaves STARTING, or goes from one other state to another. -/
theorem setState_moves (hc : can .state) (hp : s.power.resetting = false) {st : PartState} (hst : st ≠ .starting) :
    Moves can s { s with part := { s.part with state := st } } :=
  { Moves.refl s with
    state h := absurd hc h
    slot := fun ⟨hnodup, hqueue, hprogress, hbound, _, _⟩ =>
      ⟨hnodup, hqueue, hprogress, hbound, fun h => absurd (hp.symm.trans h) (by decide), fun h => absurd h hst⟩ }

theorem enterServing_moves (hc : can .state) (hp : s.power.resetting = false) : Moves can s (enterServing s) :=
  ((setState_moves hc hp (by decide)).trans (wakeRefresh_moves _)).trans (openSweep_moves _ _)

/-! The pending-ack table. -/

/-- A table that is no longer, and in which a subscriber has an entry still unless the table has become shorter, has room
wherever it had. -/
theorem ackLaw_of_table {tb : List PendingAck} (hlen : tb.length ≤ s.tracker.table.length)
    (hentry : ∀ i, s.tracker.table.any (isEntryOf i) = true →
      tb.any (isEntryOf i) = true ∨ tb.length < s.tracker.table.length)
    (h : AckLaw s) : AckLaw { s with tracker := { s.tracker with table := tb } } := by
  obtain ⟨hl, hretire, himmediate⟩ := h
  refine ⟨hlen.trans hl, fun h => hlen.trans_lt (hretire h), fun h => ?_⟩
  obtain ⟨i, rest, hhead, hroom⟩ := himmediate h
  refine ⟨i, rest, hhead, ?_⟩
  rcases hroom with hroom | hroom
  · exact .inl (hlen.trans_lt hroom)
  · rcases hentry i hroom with hkept | hless
    · exact .inr hkept
    · exact .inl (hless.trans_le hl)

theorem filterTable_moves (hc : can .quiet) (p : PendingAck → Bool) (s : State) :
    Moves can s { s with tracker := { s.tracker with table := s.tracker.table.filter p } } :=
  { Moves.refl s with
    quiet h := absurd hc h
    ack := ackLaw_of_table (List.length_filter_le _ _) fun i hi => by
      by_cases hp : ∀ e ∈ s.tracker.table, p e = true
      · exact .inl ((List.filter_eq_self.2 hp).symm ▸ hi)
      · obtain ⟨e, he, hpe⟩ := not_forall₂.1 hp
        exact .inr (List.length_filter_lt_length_iff_exists.2 ⟨e, he, hpe⟩) }

theorem supersede_moves (hc : can .quiet) (i : Nat) (s : State) : Moves can s (supersede i s) :=
  filterTable_moves hc _ s

theorem freeEntry_moves (hc : can .quiet) (tap port : Nat) (s : State) : Moves can s (freeEntry tap port s) :=
  filterTable_moves hc _ s

theorem updateEntry_moves (hc : can .quiet) (tap port : Nat) {f : PendingAck → PendingAck}
    (hf : ∀ e, (f e).kind = e.kind ∧ (f e).subscriber = e.subscriber) (s : State) :
    Moves can s (updateEntry tap port f s) :=
  { Moves.refl s with
    quiet h := absurd hc h
    ack := ackLaw_of_table (by simp) fun i hi => by
      obtain ⟨e, he, hei⟩ := List.any_eq_true.1 hi
      refine .inl (List.any_eq_true.2 ⟨_, List.mem_map.2 ⟨e, he, rfl⟩, ?_⟩)
      split
      · rw [isEntryOf, (hf e).1, (hf e).2]; exact hei
      · exact hei }

/-! The link. -/

theorem link_moves (hc : can .quiet) {l : Link} (hr : l ≠ .granted .retire) (hi : l ≠ .granted .immediate) (s : State) :
    Moves can s { s with sched := { s.sched with link := l } } :=
  { Moves.refl s with
    quiet h := absurd hc h
    ack := fun ⟨hl, _, _⟩ => ⟨hl, fun h => absurd h hr, fun h => absurd h hi⟩ }

theorem sendFrame_moves (hc : can .quiet) (f : List Byte) (h : HandOff) (s : State) : Moves can s (sendFrame f h s) :=
  Moves.ite (fun _ => link_moves hc (by simp) (by simp) s) fun _ => link_moves hc (by simp) (by simp) s

/-- R71: a class is granted while it is eligible. -/
theorem arbiterDecide_moves (hc : can .quiet) (s : State) : Moves can s (arbiterDecide s) := by
  refine Moves.ite (fun _ => ?_) fun _ => Moves.refl s
  split
  · next c hcl =>
    have hel : classEligible s c = true := List.find?_some hcl
    refine { Moves.refl _ with quiet := fun h => absurd hc h, ack := fun ⟨hl, _, _⟩ => ⟨hl, fun h => ?_, fun h => ?_⟩ }
    · cases Link.granted.inj h
      simp only [classEligible, Bool.and_eq_true, decide_eq_true_eq] at hel
      exact hel.2
    · cases Link.granted.inj h
      simp only [classEligible] at hel
      split at hel
      · cases hel
      · next i rest hq =>
        rw [Bool.or_eq_true, decide_eq_true_eq] at hel
        exact ⟨i, rest, hq, hel⟩
  · exact Moves.refl s

theorem endQuiesces_moves (r : Nat) (l : List Nat) (s : State) : Moves can s (l.foldl (fun t n => endDone n r t) s) :=
  Moves.foldl (fun s n => endDone_moves n r s) l s

theorem quietTest_moves (hs : can .state) (s : State) : Moves can s (quietTest s) :=
  Moves.ite (fun h => (setState_moves hs ((running_iff s).1 h.1).2.1 (by decide)).trans (endQuiesces_moves _ _ _))
    fun _ => Moves.refl s

theorem settle_moves (hc : ∀ x, can x) (s : State) : Moves can s (settle s) :=
  (quietTest_moves (hc _) s).trans (arbiterDecide_moves (hc _) _)

theorem lapse_moves (hc : ∀ x, can x) (s : State) : Moves can s (lapse s) :=
  (link_moves (hc _) (by simp) (by simp) s).trans (settle_moves hc _)

end Sys2Proof.Machine


/-! ## What the blocks' operations keep -/

namespace Sys2Proof.Machine

variable {can : Touch → Prop} {s t u : State}

/-! The Order Monitor (chapter 4). -/

/-- The Order Monitor replaced, its retire list within its capacity. -/
theorem order_moves {o : OrderMonitor}
    (h : s.order.retires.length ≤ 16 → o.retires.length ≤ 16) :
    Moves can s { s with order := o } :=
  { Moves.refl s with
    capacity := fun ⟨hq, hr, hs, ho, hd, hp⟩ => ⟨hq, hr, hs, h ho, hd, hp⟩ }

theorem setDirect_moves (e n : Nat) (s : State) : Moves can s (setDirect e n s) :=
  (wr_moves _ _ _).after (order_moves (by exact id))

theorem raiseDirect_moves (e : Nat) (s : State) : Moves can s (raiseDirect e s) := setDirect_moves _ _ s

theorem lowerDirect_moves (e : Nat) (s : State) : Moves can s (lowerDirect e s) := setDirect_moves _ _ s

theorem removeRetire_moves (tap port : Nat) (s : State) : Moves can s (removeRetire tap port s) :=
  order_moves fun h => (List.length_filter_le _ _).trans h

/-- R58: with the retire list not overfull a cancellation leaves it so. -/
theorem cancelRetire_moves (hc : can .quiet) (tap port i : Nat) (s : State) : Moves can s (cancelRetire tap port i s) := by
  unfold cancelRetire
  split
  · exact Moves.refl s
  · have h := (removeRetire_moves tap port s).trans (freeEntry_moves hc tap port _)
    dsimp only
    split
    · exact h.trans (wr_moves _ _ _)
    · exact h

theorem enterDirectory_moves (tap port i : Nat) (s : State) : Moves can s (enterDirectory tap port i s) :=
  order_moves id

theorem leaveDirectory_moves (tap port : Nat) (s : State) : Moves can s (leaveDirectory tap port s) :=
  order_moves id

theorem joinRetire_moves (tap port i : Nat) (h : s.order.retires.length < 16) : Moves can s (joinRetire tap port i s) :=
  order_moves fun _ => by
    simp only [List.length_append, List.length_singleton]
    omega

theorem retireEntryAt_isSome_iff (s : State) (tap port : Nat) :
    (retireEntryAt s tap port).isSome = true ↔ ∃ r ∈ s.order.retires, r.tap = tap ∧ r.port = port := by
  simp [retireEntryAt, List.find?_isSome]

/-- R57, R58: a drop that joins the list while the entry of the new address leaves it. -/
theorem joinRetire_cancelRetire_moves (hc : can .quiet) (oldTap oldPort tap port i : Nat)
    (h : s.order.retires.length < 16 ∨ (retireEntryAt s tap port).isSome = true) :
    Moves can s (cancelRetire tap port i (joinRetire oldTap oldPort i s)) := by
  rcases h with h | h
  · exact (joinRetire_moves oldTap oldPort i h).trans (cancelRetire_moves hc tap port i _)
  · obtain ⟨x, hx, hxt, hxp⟩ := (retireEntryAt_isSome_iff s tap port).1 h
    have hj : Moves can s (removeRetire tap port (joinRetire oldTap oldPort i s)) := by
      refine order_moves fun hlen => ?_
      have hless : (s.order.retires.filter
          fun r => !(decide (r.tap = tap) && decide (r.port = port))).length < s.order.retires.length :=
        List.length_filter_lt_length_iff_exists.2 ⟨x, hx, by simp [hxt, hxp]⟩
      simp only [joinRetire, List.filter_append, List.length_append]
      have := List.length_filter_le (fun r : RetireEntry => !(decide (r.tap = tap) && decide (r.port = port)))
        [{ tap := oldTap, port := oldPort, subscriber := i, avoided := (subRd s i 9).toNat, sent := false
           lastSequence := none }]
      simp only [List.length_singleton] at this
      omega
    unfold cancelRetire
    split
    · next hnone =>
      have := (retireEntryAt_isSome_iff (joinRetire oldTap oldPort i s) tap port).2
        ⟨x, List.mem_append_left _ hx, hxt, hxp⟩
      rw [hnone] at this
      cases this
    · have h' := hj.trans (freeEntry_moves hc tap port _)
      dsimp only
      split
      · exact h'.trans (wr_moves _ _ _)
      · exact h'

theorem withOutstanding_moves (i : Nat) (k : ActionKind) {f : State → State}
    (hf : Moves can { s with order := { s.order with outstanding := some (i, k) } }
      (f { s with order := { s.order with outstanding := some (i, k) } })) :
    Moves can s (withOutstanding i k f s) :=
  Moves.after (t := f { s with order := { s.order with outstanding := some (i, k) } }) (order_moves (by exact id))
    (hf.after (order_moves (by exact id)))

theorem clearRecord_moves (i : Nat) (s : State) : Moves can s (clearRecord i s) :=
  ((wrAll_moves _ s).trans (wrPair_moves _ _ _)).trans (wr_moves _ _ _)

theorem dropIfAwaiting_moves (hc : can .quiet) (c : DropChange) (s : State) : Moves can s (dropIfAwaiting c s) :=
  Moves.ite (fun _ => supersede_moves hc _ s) fun _ => Moves.refl s

theorem dropIfAwaiting_order (c : DropChange) (s : State) : (dropIfAwaiting c s).order = s.order := by
  unfold dropIfAwaiting
  split <;> rfl

theorem activationAction_moves (hc : can .quiet) (c : DropChange) (s : State) : Moves can s (activationAction c s) :=
  (withOutstanding_moves _ _ ((((clearRecord_moves _ _).trans (enterDirectory_moves _ _ _ _)).trans
    (cancelRetire_moves hc _ _ _ _)).trans (raiseDirect_moves _ _))).trans (submit_moves _ _)

theorem rewriteAction_moves (c : DropChange) (s : State) : Moves can s (rewriteAction c s) :=
  (withOutstanding_moves _ _ (Moves.refl _)).trans (submit_moves _ _)

theorem claimAction_moves (hc : can .quiet) (c : DropChange) (s : State) : Moves can s (claimAction c s) :=
  (withOutstanding_moves _ _ (((enterDirectory_moves _ _ _ _).trans (cancelRetire_moves hc _ _ _ _)).trans
    (writeStatus_moves _ _ _ _))).trans (submit_moves _ _)

/-- R57: what the verdict has found of the retire list. -/
theorem room_of_overfillsRetires {c : DropChange} (h : overfillsRetires c s = false) (hr : isRetiring c = true) :
    s.order.retires.length < 16 ∨ c.newTap ≠ 0 ∧ (retireEntryAt s c.newTap c.newPort).isSome = true := by
  by_cases hw : c.newTap ≠ 0 ∧ (retireEntryAt s c.newTap c.newPort).isSome = true
  · exact .inr hw
  · simp only [overfillsRetires, hr, if_neg hw, Bool.true_and, decide_eq_false_iff_not, retireCapacity] at h
    exact .inl (by omega)

theorem moveAction_moves (hc : can .quiet) {c : DropChange} (h : overfillsRetires c s = false) :
    Moves can s (moveAction c s) := by
  refine (submit_moves _ _).after (withOutstanding_moves _ _ ?_)
  dsimp only
  refine (writeStatus_moves _ _ _ _).after ?_
  have hbefore (v : State) := ((dropIfAwaiting_moves hc c v).trans (leaveDirectory_moves c.oldTap c.oldPort _)).trans
    (enterDirectory_moves c.newTap c.newPort c.sub _)
  split
  · next hr =>
    refine (joinRetire_cancelRetire_moves hc _ _ _ _ _ ?_).after (hbefore _)
    have horder : ∀ v : State, (enterDirectory c.newTap c.newPort c.sub
        (leaveDirectory c.oldTap c.oldPort (dropIfAwaiting c v))).order.retires = v.order.retires := fun v => by
      simp [enterDirectory, leaveDirectory, dropIfAwaiting_order]
    rw [retireEntryAt, horder]
    exact (room_of_overfillsRetires h hr).imp id And.right
  · exact (cancelRetire_moves hc _ _ _ _).after (hbefore _)

theorem retireAction_moves (hc : can .quiet) {c : DropChange} (h : overfillsRetires c s = false) (h0 : c.newTap = 0) :
    Moves can s (retireAction c s) := by
  unfold retireAction
  refine withOutstanding_moves _ _ ?_
  dsimp only
  refine (writeStatus_moves _ _ _ _).after ((lowerDirect_moves _ _).after ?_)
  refine Moves.after (Moves.ite (fun hr => joinRetire_moves _ _ _ ?_) fun _ => Moves.refl _) (Moves.after
    (Moves.ite (fun _ => Moves.refl _) fun _ => leaveDirectory_moves _ _ _) (dropIfAwaiting_moves hc c _))
  have horder : ∀ v : State, (if c.status.conflict = true then dropIfAwaiting c v
      else leaveDirectory c.oldTap c.oldPort (dropIfAwaiting c v)).order.retires = v.order.retires := fun v => by
    split <;> simp [leaveDirectory, dropIfAwaiting_order]
  rw [horder]
  rcases room_of_overfillsRetires h hr with h | h
  · exact h
  · exact absurd h0 h.1

/-! The subscriber census. -/

theorem correctMinutes_moves (i : Nat) (s : State) : Moves can s (correctMinutes i s) := by
  unfold correctMinutes
  dsimp only
  exact (Moves.ite (fun _ => Moves.refl s) fun _ => wr_moves _ _ _).trans
    (Moves.ite (fun _ => Moves.refl _) fun _ => wr_moves _ _ _)

theorem censusVisit_moves (i : Nat) (s : State) : Moves can s (censusVisit i s) := by
  unfold censusVisit
  refine Moves.ite (fun _ => partRead_moves s) fun _ => ?_
  split
  · unfold censusClaim
    dsimp only
    exact (correctMinutes_moves _ _).after ((raiseDirect_moves _ _).after
      ((Moves.ite (fun _ => order_moves (by exact id)) fun _ => writeStatus_moves _ _ _ _).after (enterDirectory_moves _ _ _ s)))
  · unfold censusConflict
    dsimp only
    exact (((wr_moves _ _ _).trans (setNotice_moves _ _ _)).trans (logAppend_moves _ _ _ _ _ _)).trans
      ((raiseDirect_moves _ _).trans (correctMinutes_moves _ _))

/-! The Line-Up Unit (chapter 3). -/

theorem startCommitCheck_moves (w : Word) (s : State) : Moves can s (startCommitCheck w s) := { Moves.refl s with }

theorem lineupEdited_moves (p : Nat) (s : State) : Moves can s (lineupEdited p s) := by
  unfold lineupEdited
  split
  · exact { Moves.refl s with }
  · exact Moves.trans (lineup_moves _ s) (logAppend_moves _ _ _ _ _ _)

theorem completeCommitCheck_moves (w : Word) (s : State) : Moves can s (completeCommitCheck w s) := by
  unfold completeCommitCheck
  dsimp only
  refine Moves.ite (fun _ => ?_) fun _ => ?_
  · exact Moves.trans (lineup_moves _ s)
      (((logAppend_moves _ _ _ _ _ _).trans (openSweep_moves _ _)).trans (wakeRefresh_moves _))
  · exact Moves.trans (lineup_moves _ s) (logAppend_moves _ _ _ _ _ _)

/-! The Acknowledgement Tracker (chapter 6). -/

theorem reach_moves (n : Nat) (s : State) : Moves can s (reach n s) := { Moves.refl s with }

theorem stepNoise_moves (f : Plan → Receiver → Receiver) (s : State) : Moves can s (stepNoise f s) := by
  unfold stepNoise
  split
  · exact { Moves.refl s with }
  · exact Moves.refl s

theorem freeWithLink_moves (hc : can .quiet) (e : PendingAck) (l : LinkStatus) (s : State) :
    Moves can s (freeWithLink e l s) := (freeEntry_moves hc _ _ s).trans (writeStatus_moves _ _ _ _)

theorem applied_moves (hc : can .quiet) (e : PendingAck) (s : State) : Moves can s (applied e s) :=
  (freeEntry_moves hc _ _ s).trans (writeStatus_moves _ _ _ _)

theorem portFaulted_moves (hc : can .quiet) (e : PendingAck) (s : State) : Moves can s (portFaulted e s) :=
  ((freeWithLink_moves hc _ _ s).trans (setNotice_moves _ _ _)).trans (logAppend_moves _ _ _ _ _ _)

theorem endRetire_moves (hc : can .quiet) (e : PendingAck) (s : State) : Moves can s (endRetire e s) :=
  (freeEntry_moves hc _ _ s).trans (removeRetire_moves _ _ _)

theorem failRetire_moves (hc : can .quiet) (e : PendingAck) (c : Nat) (s : State) : Moves can s (failRetire e c s) :=
  (endRetire_moves hc e s).trans (logAppend_moves _ _ _ _ _ _)

theorem giveUp_moves (hc : can .quiet) (e : PendingAck) (s : State) : Moves can s (giveUp e s) := by
  unfold giveUp
  split
  · exact freeWithLink_moves hc _ _ s
  · exact (freeEntry_moves hc _ _ s).trans (order_moves fun h => by simpa using h)

theorem giveUpCandidates_moves (hc : can .quiet) (s : State) : Moves can s (giveUpCandidates s) :=
  Moves.foldl (fun s e => giveUp_moves hc e s) _ s

theorem endByAck_moves (hc : can .quiet) (e : PendingAck) (r : Nat) (s : State) : Moves can s (endByAck e r s) := by
  unfold endByAck
  split
  · exact Moves.ite (fun _ => applied_moves hc e s) fun _ => portFaulted_moves hc e s
  · exact Moves.ite (fun _ => endRetire_moves hc e s) fun _ => failRetire_moves hc e 0 s

theorem beginWait_moves (hc : can .quiet) (e : PendingAck) (s : State) : Moves can s (beginWait e s) :=
  updateEntry_moves hc e.tap e.port (f := fun x => { x with
    phase := if (planOf s).retryWait = 0 then .candidate else .waiting
    deadline := s.time + retryWaitBits (planOf s).retryWait }) (fun _ => ⟨rfl, rfl⟩) s

theorem entryTimeout_moves (hc : can .quiet) (e : PendingAck) (s : State) : Moves can s (entryTimeout e s) := by
  unfold entryTimeout subscriberTimeout retireTimeout exhausted
  split
  · exact Moves.ite (fun _ => freeWithLink_moves hc _ _ s) fun _ =>
      Moves.ite (fun _ => (partRead_moves s).trans (beginWait_moves hc e _)) fun _ =>
        ((freeWithLink_moves hc _ _ s).trans (setNotice_moves _ _ _)).trans (logAppend_moves _ _ _ _ _ _)
  · exact Moves.ite (fun _ => giveUp_moves hc e s) fun _ =>
      Moves.ite (fun _ => beginWait_moves hc e s) fun _ => failRetire_moves hc e 1 s

theorem entryWaitEnd_moves (hc : can .quiet) (e : PendingAck) (s : State) : Moves can s (entryWaitEnd e s) :=
  Moves.ite (fun _ => giveUp_moves hc e s) fun _ =>
    updateEntry_moves hc e.tap e.port (f := fun x => { x with phase := .candidate }) (fun _ => ⟨rfl, rfl⟩) s

/-! The Plant Monitor (chapter 7). -/

theorem mem_tableSet {α : Type} {t : List (Nat × α)} {k : Nat} {v : α} {p : Nat × α} (h : p ∈ tableSet t k v) :
    p = (k, v) ∨ p ∈ t := by
  induction t with
  | nil => exact .inl (List.mem_singleton.1 h)
  | cons e t ih =>
    unfold tableSet at h
    split at h
    · exact (List.mem_cons.1 h).imp id id
    · split at h
      · exact (List.mem_cons.1 h).imp id (List.mem_cons_of_mem _)
      · rcases List.mem_cons.1 h with h | h
        · exact .inr (h ▸ List.mem_cons_self)
        · exact (ih h).imp id (List.mem_cons_of_mem _)

theorem tableSet_pairwise {α : Type} {t : List (Nat × α)} (k : Nat) (v : α) (h : t.Pairwise fun x y => x.1 < y.1) :
    (tableSet t k v).Pairwise fun x y => x.1 < y.1 := by
  induction t with
  | nil => exact List.pairwise_singleton _ _
  | cons e t ih =>
    obtain ⟨he, ht⟩ := List.pairwise_cons.1 h
    unfold tableSet
    split
    · next hlt =>
      exact List.pairwise_cons.2 ⟨fun y hy => (List.mem_cons.1 hy).elim (· ▸ hlt) fun hy => hlt.trans (he y hy), h⟩
    · split
      · next heq => exact List.pairwise_cons.2 ⟨fun y hy => heq ▸ he y hy, ht⟩
      · refine List.pairwise_cons.2 ⟨fun y hy => ?_, ih ht⟩
        rcases mem_tableSet hy with rfl | hy
        · show e.1 < k
          omega
        · exact he y hy

theorem mem_of_tableGet {α : Type} {t : List (Nat × α)} {k : Nat} {v : α} (h : tableGet t k = some v) : (k, v) ∈ t := by
  induction t with
  | nil => cases h
  | cons e t ih =>
    unfold tableGet at h
    split at h
    · next heq =>
      cases h
      exact heq ▸ List.mem_cons_self
    · exact List.mem_cons_of_mem _ (ih h)

/-- R109, R111: the tree copy lists elements 1 to 255, rising. -/
def TreeListed (t : Tree) : Prop := t.Pairwise (fun x y => x.1 < y.1) ∧ ∀ p ∈ t, 1 ≤ p.1 ∧ p.1 ≤ 255

theorem TreeListed.set {t : Tree} (h : TreeListed t) {i : Nat} (hi : 1 ≤ i ∧ i ≤ 255) (e : Element) :
    TreeListed (tableSet t i e) :=
  ⟨tableSet_pairwise i e h.1, fun p hp => (mem_tableSet hp).elim (fun hpe => hpe ▸ hi) (h.2 p)⟩

theorem TreeListed.index {t : Tree} (h : TreeListed t) {i : Nat} {e : Element} (he : tableGet t i = some e) :
    1 ≤ i ∧ i ≤ 255 := h.2 _ (mem_of_tableGet he)

theorem TreeListed.setState {t : Tree} (h : TreeListed t) (i : Nat) (st : ElementState) :
    TreeListed (treeSetState t i st) := by
  unfold treeSetState
  split
  · next he => exact h.set (h.index he) _
  · exact h

theorem TreeListed.setParent {t : Tree} (h : TreeListed t) (i p : Nat) : TreeListed (treeSetParent t i p) := by
  unfold treeSetParent
  split
  · next he => exact h.set (h.index he) _
  · exact h

theorem TreeListed.erase {t : Tree} (h : TreeListed t) (i : Nat) : TreeListed (tableErase t i) :=
  ⟨h.1.filter _, fun p hp => h.2 p (List.mem_of_mem_filter hp)⟩

/-- The Plant Monitor replaced, its poll and its poll pointer left alone. -/
theorem plant_moves {p : Plant} (htree : TreeListed s.plant.tree → TreeListed p.tree)
    (hpoll : p.poll = s.plant.poll) (hpointer : p.pollPointer = s.plant.pollPointer) :
    Moves can s { s with plant := p } :=
  { Moves.refl s with
    plant := fun ⟨hl, hi, hp⟩ => ⟨(htree ⟨hl, hi⟩).1, (htree ⟨hl, hi⟩).2, fun q hq => hp q (hpoll ▸ hq)⟩
    cursor := fun ⟨hc, hr, hm, hw, hl, hh, hk⟩ =>
      ⟨hc, hr, hm, hw, (show _ ≤ p.pollPointer by rwa [hpointer]), (show p.pollPointer ≤ _ by rwa [hpointer]), hk⟩
    quiet _ := by simp only [isQuiet, hpoll] }

theorem setElementState_moves (i : Nat) (st : ElementState) (s : State) : Moves can s (setElementState i st s) :=
  (wr_moves _ _ _).after (plant_moves (by exact fun h => h.setState i st) (by rfl) (by rfl))

theorem setCounter_moves (i c : Nat) (s : State) : Moves can s (setCounter i c s) := wr_moves _ _ _

theorem stampOutage_moves (i : Nat) (s : State) : Moves can s (stampOutage i s) :=
  (wrPair_moves s _ _).trans (wr_moves _ _ _)

theorem beginOutage_moves (i c : Nat) (s : State) : Moves can s (beginOutage i c s) :=
  (logAppend_moves _ _ _ _ _ _).after ((setNotice_moves _ _ _).after
    ((plant_moves (by exact id) (by rfl) (by rfl)).after ((setElementState_moves i .out s).trans (stampOutage_moves i _))))

theorem sweepIfLit_moves (i : Nat) (s : State) : Moves can s (sweepIfLit i s) :=
  Moves.ite (fun _ => Moves.refl s) fun _ => openSweep_moves _ s

theorem endOutage_moves (i c : Nat) (s : State) : Moves can s (endOutage i c s) :=
  (sweepIfLit_moves i _).after ((logAppend_moves _ _ _ _ _ _).after ((setNotice_moves _ _ _).after
    ((plant_moves (by exact id) (by rfl) (by rfl)).after ((setElementState_moves i .inService s).trans (wr_moves _ _ _)))))

theorem latchOut_moves (i : Nat) (was : ElementState) (s : State) : Moves can s (latchOut i was s) := by
  unfold latchOut
  dsimp only
  refine (logAppend_moves _ _ _ _ _ _).after ((setNotice_moves _ _ _).after
    ((plant_moves (by exact id) (by rfl) (by rfl)).after ?_))
  refine ((setCounter_moves i (counterMax s i) s).trans (setElementState_moves i .latchedOut _)).trans ?_
  cases was
  · exact stampOutage_moves i _
  · exact stampOutage_moves i _
  · exact plant_moves id rfl rfl
  · exact Moves.refl _

theorem applyResult_moves (i : Nat) (st : ElementState) (r : PollResult) (s : State) :
    Moves can s (applyResult i st r s) := by
  unfold applyResult
  split
  · unfold failedResult
    dsimp only
    split
    · exact Moves.ite (fun _ => (setCounter_moves _ _ s).trans (beginOutage_moves _ _ _)) fun _ => setCounter_moves _ _ s
    · exact Moves.ite (fun _ => (setCounter_moves _ _ s).trans (beginOutage_moves _ _ _)) fun _ => setCounter_moves _ _ s
    · exact setCounter_moves _ _ s
    · exact setCounter_moves _ _ s
  · unfold goodResult
    dsimp only
    split
    · exact Moves.ite (fun _ => (setCounter_moves _ _ s).trans (endOutage_moves _ _ _)) fun _ => setCounter_moves _ _ s
    · exact (setCounter_moves _ _ s).trans (setElementState_moves _ _ _)
    · exact setCounter_moves _ _ s
    · exact setCounter_moves _ _ s
  · exact latchOut_moves i st s

theorem setWarnings_moves (i : Nat) (a b : Bool) (s : State) : Moves can s (setWarnings i a b s) :=
  (plant_moves (by exact id) (by rfl) (by rfl)).after (wr_moves s _ _)

theorem takeLatency_moves (i count status : Nat) (s : State) : Moves can s (takeLatency i count status s) :=
  (wr_moves s _ _).trans (setWarnings_moves _ _ _ _)

theorem endPoll_moves (hc : can .quiet) (s : State) : Moves can s (endPoll s) :=
  { Moves.refl s with
    plant := fun ⟨hl, hi, _⟩ => ⟨hl, hi, fun _ h => by cases h⟩
    quiet h := absurd hc h }

theorem clearWarnings_moves (a b : Bool) (s : State) (i : Nat) : Moves can s (clearWarnings a b s i) :=
  Moves.ite (fun _ => setWarnings_moves _ _ _ s) fun _ => partRead_moves s

theorem clearDisabledWarnings_moves (s : State) : Moves can s (clearDisabledWarnings s) :=
  (Moves.foldl (fun s i => clearWarnings_moves _ _ s i) _ s).trans (plant_moves (by exact id) (by rfl) (by rfl))

theorem readTree_listed (s : State) : TreeListed (readTree s) := by
  have hkey {k : Nat} {p : Nat × Element} (h : (if (rd s (elementWord (k + 1) 0)).toNat = 0 then none
      else some (k + 1, ({ address := (rd s (elementWord (k + 1) 0)).toNat, parent := (rd s (elementWord (k + 1) 1)).toNat
                           state := censusState (rd s (elementWord (k + 1) 4)).toNat } : Element))) = some p) :
      p.1 = k + 1 := by
    split at h
    · cases h
    · cases h; rfl
  unfold readTree
  refine ⟨List.pairwise_filterMap.2 ?_, fun p hp => ?_⟩
  · exact List.pairwise_lt_range.imp fun hab p hp q hq => by
      rw [hkey hp, hkey hq]
      omega
  · obtain ⟨k, hk, hp⟩ := List.mem_filterMap.1 hp
    rw [hkey hp]
    have := List.mem_range.1 hk
    omega

theorem wrIfChanged_moves (s : State) (a : Nat) (w : Word) : Moves can s (wrIfChanged s a w) :=
  Moves.ite (fun _ => Moves.refl s) fun _ => wr_moves s a w

theorem censusRead_moves (s : State) : Moves can s (censusRead s) :=
  ((wrAll_moves _ s).trans (Moves.foldl (fun s _ =>
    Moves.ite (fun _ => (wrIfChanged_moves s _ _).trans (wrIfChanged_moves _ _ _)) fun _ => Moves.refl s) _ _)).trans
    (plant_moves (by exact fun _ => readTree_listed _) (by rfl) (by rfl))

theorem resetParent_moves (i : Nat) (s : State) : Moves can s (resetParent i s) := by
  unfold resetParent
  split
  · exact Moves.refl s
  · exact (logAppend_moves _ _ _ _ _ _).after ((wr_moves _ _ _).after (plant_moves (by exact fun h => h.setParent i 0) (by rfl) (by rfl)))

theorem censusPass_moves (bad : Tree → Nat → Bool) (s : State) : Moves can s (censusPass bad s) :=
  Moves.foldl (fun s i => Moves.ite (fun _ => resetParent_moves i s) fun _ => Moves.refl s) _ s

theorem censusElementState_moves (s : State) (i : Nat) : Moves can s (censusElementState s i) := by
  unfold censusElementState
  dsimp only
  refine Moves.trans (t := wr s (elementWord i 7) 0) (wr_moves s _ _) (Moves.ite (fun _ => setCounter_moves _ _ _) fun _ => ?_)
  exact (((setElementState_moves _ _ _).trans (setCounter_moves _ _ _)).trans (wr_moves _ _ _)).trans
    (Moves.ite (fun _ => wr_moves _ _ _) fun _ => Moves.refl _)

theorem elementCensus_moves (s : State) : Moves can s (elementCensus s) :=
  ((((censusRead_moves s).trans (censusPass_moves _ _)).trans (censusPass_moves _ _)).trans
    (censusPass_moves _ _)).trans ((Moves.foldl censusElementState_moves _ _).trans (plant_moves (by exact id) (by rfl) (by rfl)))

/-! The Event Slot Unit (chapter 9). -/

theorem setArmed_moves (k : Nat) (a : ArmedSlot) (s : State) : Moves can s (setArmed k a s) := { Moves.refl s with }

theorem setSlotState_moves (k : Nat) (st : SlotState) (s : State) : Moves can s (setSlotState k st s) := by
  unfold setSlotState
  dsimp only
  refine (wr_moves _ _ _).after ?_
  split
  · exact setArmed_moves _ _ s
  · exact Moves.refl s

theorem evaluateSlot_moves (stamp : Nat) (s : State) (k : Nat) : Moves can s (evaluateSlot stamp s k) := by
  unfold evaluateSlot
  split
  · exact Moves.refl s
  · refine Moves.ite (fun _ => ?_) fun _ => Moves.refl s
    exact (setSlotState_moves _ _ _).after ((Moves.ite (fun _ => openSweep_moves _ _) fun _ => Moves.refl _).after
      (Moves.ite (fun _ => openSweep_moves _ s) fun _ => Moves.refl s))

theorem evaluateSlots_moves (stamp : Nat) (s : State) : Moves can s (evaluateSlots stamp s) :=
  Moves.foldl (evaluateSlot_moves stamp) _ s

theorem reloadSlot_moves (s : State) (k : Nat) : Moves can s (reloadSlot s k) := by
  unfold reloadSlot
  dsimp only
  exact (setArmed_moves _ _ _).after ((Moves.ite (fun _ => wrPair_moves _ _ _) fun _ => Moves.refl _).after
    (Moves.ite (fun _ => wr_moves s _ _) fun _ => Moves.refl s))

theorem reloadSlots_moves (s : State) : Moves can s (reloadSlots s) :=
  (partRead_moves s).trans (Moves.foldl reloadSlot_moves _ _)

theorem wrapClear_moves (k : Nat) (s : State) : Moves can s (wrapClear k s) :=
  Moves.foldl (fun s _ => wrHeld_moves s _) _ s

theorem refuse_moves (i : Nat) (e : RequestError) (s : State) : Moves can s (refuse i e s).1 :=
  Moves.ite (fun _ => setNotice_moves _ _ s) fun _ => Moves.refl s

theorem setSlotTotals_moves (k c r : Nat) (s : State) : Moves can s (setSlotTotals k c r s) :=
  (wr_moves s _ _).trans (wrPair_moves _ _ _)

theorem acceptPurchase_moves (i k j source token : Nat) (s : State) :
    Moves can s (acceptPurchase i k j source token s).1 :=
  (((wrHeld_moves s _).trans (journalAppend_moves _ _ _)).trans (setSlotTotals_moves _ _ _ _)).trans
    (Moves.ite (fun _ => submit_moves _ _) fun _ => Moves.refl _)

theorem fillPurchase_moves (i k source token : Nat) (s : State) : Moves can s (fillPurchase i k source token s).1 := by
  unfold fillPurchase
  split
  · exact acceptPurchase_moves _ _ _ _ _ s
  · exact ((partRead_moves s).trans (returnJournal_moves _)).trans (refuse_moves _ _ _)
  · exact ((partRead_moves s).trans (returnJournal_moves _)).trans (refuse_moves _ _ _)

theorem decidePurchase_moves (i k source token : Nat) (s : State) :
    Moves can s (decidePurchase i k source token s).1 := by
  refine (partRead_moves s).trans ?_
  unfold decidePurchase
  dsimp only
  split
  · exact refuse_moves _ _ _
  · have h := takeJournal_moves (can := can) (partRead s)
    split
    · next ht =>
      rw [ht] at h
      exact h.trans (fillPurchase_moves _ _ _ _ _)
    · next ht =>
      rw [ht] at h
      exact h.trans (refuse_moves _ _ _)

theorem queueReply_moves (tap port token r : Nat) (h : s.sched.replies.length < 8) :
    Moves can s (queueReply tap port token r s) :=
  { Moves.refl s with
    capacity := fun ⟨hq, _, hs⟩ => ⟨hq, by
      simp only [queueReply, List.length_append, List.length_singleton]
      omega, hs⟩ }

end Sys2Proof.Machine


/-! ## What requests, the close and host accesses keep -/

namespace Sys2Proof.Machine

variable {can : Touch → Prop} {s t u : State}

/-! The Close Engine and the Meter Engine (chapters 8 and 10). -/

/-- The Close Engine replaced: its cursor in the table while it is CLOSING, its bound slot a slot. -/
theorem close_moves {c : CloseEngine}
    (hcursor : (∀ k, s.close.copy = some k → k.status = .closing → k.cursor ≤ 4096) →
      ∀ k, c.copy = some k → k.status = .closing → k.cursor ≤ 4096)
    (hbound : SlotLaw s → ∀ n, c.bound = some n → n < 8) :
    Moves can s { s with close := c } :=
  { Moves.refl s with
    cursor := fun ⟨hc, hr, hm, hw, hl, hh, hk⟩ => ⟨hc, hr, hm, hw, hl, hh, hcursor hk⟩
    slot := fun h => ⟨h.1, h.2.1, h.2.2.1, hbound h, h.2.2.2.2⟩ }

theorem closeCursor_of_copy {k : CloseCopy} (h : s.close.copy = some k) : closeCursor s = k.cursor := by
  rw [closeCursor, h]

theorem closeCursor_congr (h : t.close = s.close) : closeCursor t = closeCursor s := by
  rw [closeCursor, h, closeCursor]

theorem setCloseStatus_moves {st : CloseStatus} (h : st = .closing → closeCursor s ≤ 4096) :
    Moves can s (setCloseStatus st s) := by
  unfold setCloseStatus
  split
  · next c hc =>
    refine (wr_moves _ _ _).after (close_moves (by
      rintro - k hk hst
      cases hk
      exact closeCursor_of_copy hc ▸ h hst) (by exact fun h => h.2.2.2.1))
  · exact Moves.refl s

theorem setCloseCursor_moves {n : Nat} (h : n ≤ 4096) (s : State) : Moves can s (setCloseCursor n s) := by
  unfold setCloseCursor
  split
  · refine (wr_moves _ _ _).after (close_moves (by
      rintro - k hk -
      cases hk
      exact h) (by exact fun h => h.2.2.2.1))
  · exact Moves.refl s

theorem setCloseNumber_moves (n : Nat) (s : State) : Moves can s (setCloseNumber n s) := by
  unfold setCloseNumber
  split
  · next c hc =>
    refine (wr_moves _ _ _).after (close_moves (by
      intro h k hk hst
      cases hk
      exact h c hc hst) (by exact fun h => h.2.2.2.1))
  · exact Moves.refl s

theorem closeCursor_setCloseCursor_zero (s : State) : closeCursor (setCloseCursor 0 s) = 0 := by
  unfold setCloseCursor
  cases h : s.close.copy with
  | none => simp [closeCursor, h]
  | some c => rfl

theorem beginClose_moves {bound : Option Nat} (s : State) (h : SlotLaw s → ∀ n, bound = some n → n < 8) :
    Moves can s (beginClose bound s) := by
  have hbegin (n : Nat) : Moves can s (setCloseStatus .closing (setCloseCursor 0 (setCloseNumber n
      { s with close := { s.close with statements := 0, resumed := false, stalled := false, bound := bound } }))) :=
    (setCloseStatus_moves fun _ => by rw [closeCursor_setCloseCursor_zero]; exact Nat.zero_le _).after
      ((setCloseCursor_moves (Nat.zero_le _) _).after ((setCloseNumber_moves _ _).after
        (close_moves (by exact id) (by exact h))))
  unfold beginClose
  dsimp only
  split <;> exact (logAppend_moves _ _ _ _ _ _).after (hbegin _)

theorem lateTrigger_moves (s : State) : Moves can s (lateTrigger s) :=
  (report_moves _ _).after (logAppend_moves _ _ _ _ _ s)

theorem testAlarm_moves (k : Tick) (s : State) : Moves can s (testAlarm k s) := by
  unfold testAlarm
  split
  · split
    · split
      · exact beginClose_moves s (by simp)
      · exact lateTrigger_moves s
    · exact Moves.refl s
  · exact Moves.refl s

theorem advanceClose_moves (h : closeCursor s < 4096) : Moves can s (advanceClose s) := setCloseCursor_moves h s

theorem journalAppend_close (k : JournalKind) (ws : List Nat) (s : State) : (journalAppend k ws s).close = s.close := by
  rw [journalAppend_frame]

theorem takeJournal_close (s : State) : (takeJournal s).1.close = s.close := by rw [takeJournal_frame]

theorem writeStatement_moves {i : Nat} (h : closeCursor s < 4096) : Moves can s (writeStatement i s) := by
  unfold writeStatement
  dsimp only
  refine (advanceClose_moves ?_).after (Moves.after (close_moves (by exact id) (by exact fun h => h.2.2.2.1)) ((setNotice_moves _ _ _).after
    ((journalAppend_moves _ _ _).after (wrHeld_moves s _))))
  have hcopy : (journalAppend .statement (statementWords s i) (closeRecord i (statementOf s i).total s)).close.copy =
      s.close.copy := by rw [journalAppend_close]; rfl
  simp only [closeCursor, setNotice_close, hcopy]
  exact h

theorem statementVisit_moves {i : Nat} (h : closeCursor s < 4096) : Moves can s (statementVisit i s) := by
  have ht := takeJournal_moves (can := can) s
  have hclose := takeJournal_close s
  unfold statementVisit
  split
  · next v hv =>
    rw [hv] at ht
    exact Moves.after (close_moves (by exact id) (by exact fun h => h.2.2.2.1)) ht
  · next v hv =>
    rw [hv] at ht hclose
    have hv' : closeCursor v < 4096 := by rw [closeCursor_congr hclose]; exact h
    refine (Moves.ite (fun _ => writeStatement_moves hv') fun _ => ?_).after ht
    exact (advanceClose_moves (closeCursor_congr (s := v) rfl ▸ hv')).after
      ((returnJournal_moves _).after (partRead_moves v))

theorem endClose_moves (s : State) : Moves can s (endClose s) := by
  unfold endClose
  dsimp only
  have h := (logAppend_moves .closeEnd (closeNumber s) s.close.statements (if s.close.resumed then 1 else 0) 0
    _).after (setCloseStatus_moves (can := can) (s := s) (st := .idle) (by simp))
  split
  · exact (endDone_moves _ _ _).after ((close_moves (by exact id) (by simp)).after h)
  · exact h

theorem closeStep_moves (s : State) : Moves can s (closeStep s) := by
  refine Moves.ite (fun _ => Moves.ite (fun _ => endClose_moves s) fun hcursor => ?_) fun _ => Moves.refl s
  have hcursor : closeCursor s < 4096 := Nat.lt_of_not_le hcursor
  exact Moves.ite (fun _ => (partRead_moves s).trans (statementVisit_moves hcursor)) fun _ =>
    (partRead_moves s).trans (advanceClose_moves hcursor)

theorem resumeClose_moves (s : State) : Moves can s (resumeClose s) := by
  refine (partRead_moves s).trans ?_
  unfold resumeClose
  dsimp only
  refine Moves.ite (fun _ => ?_) fun _ => ?_
  · refine (close_moves (by
      rintro - k hk -
      cases hk
      exact Nat.min_le_right _ _) (by exact fun h => h.2.2.2.1)).after (Moves.ite (fun _ => wr_moves _ _ _) fun _ => Moves.refl _)
  · refine (close_moves (by
      rintro - k hk hst
      cases hk
      cases hst) (by exact fun h => h.2.2.2.1)).after (Moves.ite (fun _ => Moves.refl _) fun _ => wr_moves _ _ _)

theorem meterVisit_moves (i : Nat) (s : State) : Moves can s (meterVisit i s) :=
  Moves.ite (fun _ => wrHeld_moves s _) fun _ => partRead_moves s

theorem advancePass_moves (s : State) : Moves can s (advancePass s) :=
  Moves.ite (fun h => { Moves.refl _ with meter := fun ⟨ho, hl, _⟩ => ⟨ho, hl, h⟩ })
    fun _ => { Moves.refl _ with meter := fun ⟨ho, hl, _⟩ => ⟨ho, hl, (by decide : 0 < 4096)⟩ }

theorem meterTick_moves (s : State) : Moves can s (meterTick s) := by
  refine Moves.ite (fun h => { Moves.refl _ with meter := fun ⟨_, hl, hc⟩ => ⟨h, hl, hc⟩ }) fun _ => ?_
  exact (report_moves _ _).after ((logAppend_moves _ _ _ _ _ _).after
    { Moves.refl _ with meter := fun ⟨ho, _, hc⟩ => ⟨ho, Nat.min_le_right _ _, hc⟩ })

/-! Requests (chapter 2). -/

theorem popRequest_moves (s : State) : Moves can s (popRequest s) :=
  { Moves.refl s with
    slot := fun ⟨hn, hq, hp, hb, hx, hs⟩ =>
      ⟨hn.sublist ((List.drop_sublist _ _).append (List.Sublist.refl _)), fun n h => hq n (List.mem_of_mem_drop h), hp, hb, hx,
        fun h k => ⟨by
          show s.part.queue.drop 1 = []
          rw [(hs h k).1, List.drop_nil], (hs h k).2⟩⟩ }

theorem handedOver_moves (n : Nat) (s : State) : Moves can s (handedOver n s) :=
  (popRequest_moves s).trans (writeRequestStatus_moves _ _ _ _)

/-- R28: the slot that has just left the head of the queue may go on in progress. -/
theorem stayInProgress_moves {n : Nat} {rest : List Nat} (r : LongRequest) (hq : s.part.queue = n :: rest)
    (hst : s.part.state ≠ .starting) : Moves can s (stayInProgress n r (popRequest s)) :=
  { Moves.refl s with
    slot := by
      rintro ⟨hnodup, hqueue, hp, hb, hx, -⟩
      have hqueue' : (popRequest s).part.queue = rest := by simp [popRequest, hq]
      refine ⟨?_, fun m hm => hqueue m (List.mem_of_mem_drop hm), fun p hp' => ?_, hb, hx, fun h => absurd h hst⟩
      · show ((popRequest s).part.queue ++ (s.part.inProgress ++ [(n, r)]).map Prod.fst).Nodup
        rw [hq] at hnodup
        rw [hqueue', List.map_append, ← List.append_assoc]
        exact (List.perm_append_singleton n _).nodup_iff.2 hnodup
      · rcases List.mem_append.1 hp' with hp' | hp'
        · exact hp p hp'
        · rw [List.mem_singleton.1 hp']
          exact hqueue n (hq ▸ List.mem_cons_self) }

/-- R29: what a request keeps when its owner, handed the request at the head of the queue, keeps it. -/
theorem carryOut_moves {r : Request} {owner : Nat → State → State}
    (h : ∀ n rest, s.part.queue = n :: rest → started s = true → Moves can s (owner n (handedOver n s))) :
    Moves can s (carryOut r owner s) := by
  unfold carryOut takeRequest
  split
  · exact Moves.refl s
  · next n rest hq =>
    refine Moves.ite (fun hs => ?_) fun _ => Moves.refl s
    exact Moves.ite (fun _ => h n rest hq hs.1) fun _ => (popRequest_moves s).trans (endFailed_moves _ _ _)

theorem failUnknown_moves (s : State) : Moves can s (failUnknown s) := by
  unfold failUnknown takeRequest
  split
  · exact Moves.refl s
  · exact Moves.ite (fun _ => (popRequest_moves s).trans (endFailed_moves _ _ _)) fun _ => Moves.refl s

theorem isElementIndex_iff (i : Nat) : isElementIndex i = true ↔ 1 ≤ i ∧ i ≤ 255 := by simp [isElementIndex]

theorem isElementIndex_of_addFault {i a p : Nat} (h : addFault s i a p = none) : 1 ≤ i ∧ i ≤ 255 := by
  rw [← isElementIndex_iff]
  by_contra hi
  rw [Bool.not_eq_true] at hi
  simp [addFault, hi] at h

theorem addElement_moves (n : Nat) (s : State) : Moves can s (addElement n s) := by
  unfold addElement
  dsimp only
  split
  · exact endFailed_moves _ _ s
  · next hf =>
    exact (endDone_moves _ _ _).after ((logAppend_moves _ _ _ _ _ _).after
      ((plant_moves (by exact fun h => h.set (isElementIndex_of_addFault hf) _) (by rfl) (by rfl)).after
        ((wrAll_moves _ _).after ((wrPair_moves _ _ _).after (wrAll_moves _ s)))))

theorem uncountState_moves (st : ElementState) (s : State) : Moves can s (uncountState st s) := by
  unfold uncountState
  split
  · exact plant_moves id rfl rfl
  · exact plant_moves id rfl rfl
  · exact Moves.refl s
  · exact Moves.refl s

theorem retireElement_moves (n : Nat) (s : State) : Moves can s (retireElement n s) := by
  unfold retireElement
  dsimp only
  split
  · exact (endDone_moves _ _ _).after ((logAppend_moves _ _ _ _ _ _).after
      ((plant_moves (by exact fun h => h.erase _) (by rfl) (by rfl)).after ((wrAll_moves _ _).after
        ((uncountState_moves _ _).after (setWarnings_moves _ _ _ s)))))
  · exact endFailed_moves _ _ s
  · exact endFailed_moves _ _ s

theorem moveElement_moves (i o p : Nat) (s : State) : Moves can s (moveElement i o p s) :=
  (Moves.ite (fun _ => sweepIfLit_moves _ _) fun _ => Moves.refl _).after ((logAppend_moves _ _ _ _ _ _).after
    ((wr_moves _ _ _).after (plant_moves (by exact fun h => h.setParent i p) (by rfl) (by rfl))))

theorem setFeed_moves (n : Nat) (s : State) : Moves can s (setFeed n s) := by
  unfold setFeed
  dsimp only
  split
  · exact Moves.ite (fun _ => endDone_moves _ _ s) fun _ => (endDone_moves _ _ _).after (moveElement_moves _ _ _ s)
  · exact endFailed_moves _ _ s
  · exact endFailed_moves _ _ s

theorem releaseLatch_moves (i : Nat) (s : State) : Moves can s (releaseLatch i s) :=
  (sweepIfLit_moves _ _).after ((logAppend_moves _ _ _ _ _ _).after (Moves.after (plant_moves (by exact id) (by rfl) (by rfl)) ((wr_moves _ _ _).after
    ((setCounter_moves _ _ _).after (setElementState_moves _ _ s)))))

theorem clearLatch_moves (n : Nat) (s : State) : Moves can s (clearLatch n s) := by
  unfold clearLatch
  dsimp only
  split
  · exact endFailed_moves _ _ s
  · exact (endDone_moves _ _ _).after (releaseLatch_moves _ s)

theorem armSlot_moves (k : Nat) (s : State) : Moves can s (armSlot k s) :=
  (setSlotTotals_moves _ _ _ _).after ((wrAll_moves _ _).after ((setArmed_moves _ _ _).after
    (Moves.ite (fun _ => wrapClear_moves k s) fun _ => Moves.refl s)))

theorem armEvent_moves (n : Nat) (s : State) : Moves can s (armEvent n s) := by
  refine (partRead_moves s).trans ?_
  unfold armEvent
  dsimp only
  split
  · exact endFailed_moves _ _ _
  · exact (endDone_moves _ _ _).after (armSlot_moves _ _)

theorem disarmEvent_moves (n : Nat) (s : State) : Moves can s (disarmEvent n s) := by
  unfold disarmEvent
  dsimp only
  split
  · exact endFailed_moves _ _ s
  · exact (endDone_moves _ _ _).after (setSlotState_moves _ _ s)

theorem deskPurchase_moves (n : Nat) (s : State) : Moves can s (deskPurchase n s) := by
  unfold deskPurchase
  dsimp only
  refine Moves.ite (fun _ => endFailed_moves _ _ s) fun _ => ?_
  have h := decidePurchase_moves (can := can) (argA s n) (argB s n) sourceDesk 0 s
  split
  · next hd => rw [hd] at h; exact (endDone_moves _ _ _).after h
  · next hd => rw [hd] at h; exact (endFailed_moves _ _ _).after h

theorem cancelEntry_moves (i k j : Nat) (s : State) : Moves can s (cancelEntry i k j s) :=
  (setSlotTotals_moves _ _ _ _).after ((wrHeld_moves _ _).after (journalAppend_moves _ _ s))

theorem cancelPurchase_moves (n : Nat) (s : State) : Moves can s (cancelPurchase n s) := by
  refine (partRead_moves s).trans ?_
  unfold cancelPurchase
  dsimp only
  refine Moves.ite (fun _ => endFailed_moves _ _ _) fun _ => Moves.ite (fun _ => endFailed_moves _ _ _) fun _ => ?_
  split
  · have h := takeJournal_moves (can := can) (partRead s)
    split
    · next ht => rw [ht] at h; exact (endDone_moves _ _ _).after ((cancelEntry_moves _ _ _ _).after h)
    · next ht => rw [ht] at h; exact (endFailed_moves _ _ _).after h
  · exact endFailed_moves _ _ _

/-- R161: what CLOSE_NOW leaves, handed over, is a request in progress with its code word written after it, or a failure. -/
theorem closeNow_moves {n : Nat} {rest : List Nat} (hq : s.part.queue = n :: rest) (hst : s.part.state ≠ .starting) :
    Moves can s (closeNow n (handedOver n s)) := by
  unfold closeNow
  split
  · have hstay : stayInProgress n .closeNow (handedOver n s) =
        wr (stayInProgress n .closeNow (popRequest s)) (requestWord n 0)
          (codeWord (requestCode (popRequest s) n) statusInProgress .ok) := rfl
    rw [hstay]
    have h := (wr_moves _ (requestWord n 0) (codeWord (requestCode (popRequest s) n) statusInProgress .ok)).after
      (stayInProgress_moves (can := can) .closeNow hq hst)
    refine (beginClose_moves _ fun hl m hm => ?_).after h
    obtain ⟨-, -, hp, -⟩ := hl
    exact Option.some.inj hm ▸ hp (n, .closeNow) (List.mem_append_right _ (List.mem_singleton_self _))
  · exact (endFailed_moves _ _ _).after (handedOver_moves n s)

end Sys2Proof.Machine


/-! ## How commands end: requests and host writes

Nearly every command ends with the quiet test and the arbiter's decision, or leaves what they test alone. -/

namespace Sys2Proof.Machine

variable {can : Touch → Prop} {s t u : State}

/-- How a command that touches at most the parts in `can` ends: with nothing touched that the quiet condition reads; with the
link or an entry busy, so that the condition does not hold in a part that runs; or with the test of the condition. -/
inductive Ends (can : Touch → Prop) (s : State) : State → Prop
  | plain {t : State} : Moves (fun _ => False) s t → Ends can s t
  | busy {t : State} : Moves (fun x => x = .quiet ∧ can .quiet) s t → (running t = true → isQuiet t = false) → Ends can s t
  | settled {u : State} : Moves can s u → Ends can s (settle u)

theorem Ends.mono {can' : Touch → Prop} (h : Ends can s t) (hc : ∀ x, can x → can' x) : Ends can' s t := by
  cases h with
  | plain h => exact .plain h
  | busy h hq => exact .busy (h.mono fun _ ⟨hx, hy⟩ => ⟨hx, hc _ hy⟩) hq
  | settled h => exact .settled (h.mono hc)

theorem Ends.refl (s : State) : Ends can s s := .plain (Moves.refl s)

/-- A choice of two endings. -/
theorem Ends.ite {c : Prop} [Decidable c] (h : c → Ends can s t) (k : ¬c → Ends can s u) :
    Ends can s (if c then t else u) := by
  split
  · next hc => exact h hc
  · next hc => exact k hc

/-- A command that touches nothing may first have operations before it. -/
theorem Ends.after (k : Ends can t u) (h : Moves (fun _ => False) s t) : Ends can s u := by
  cases k with
  | plain k => exact .plain (h.trans k)
  | busy k hq => exact .busy ((h.mono fun _ => False.elim).trans k) hq
  | settled k => exact .settled ((h.mono fun _ => False.elim).trans k)

/-- What every ending keeps. -/
theorem Ends.moves (h : Ends can s t) : Moves (fun _ => True) s t := by
  cases h with
  | plain h => exact h.mono fun _ _ => trivial
  | busy h _ => exact h.mono fun _ _ => trivial
  | settled h => exact (h.mono fun _ _ => trivial).trans (settle_moves (fun _ => trivial) _)

/-! Requests. -/

theorem carryOut_ends {r : Request} {owner : Nat → State → State}
    (h : ∀ n rest, s.part.queue = n :: rest → started s = true → r.allowed s.part.state = true →
      Ends can s (owner n (handedOver n s))) :
    Ends can s (carryOut r owner s) := by
  unfold carryOut takeRequest
  split
  · exact Ends.refl s
  · next n rest hq =>
    refine Ends.ite (fun hs => ?_) fun _ => Ends.refl s
    exact Ends.ite (fun ha => h n rest hq hs.1 ha) fun _ => .plain ((popRequest_moves s).trans (endFailed_moves _ _ _))

/-- A request whose owner touches nothing, and which is followed by the quiet test. -/
theorem carryOut_settled {r : Request} {owner : Nat → State → State} (h : ∀ n t, Moves can t (owner n t)) (s : State) :
    Ends can s (carryOut r (fun n t => settle (owner n t)) s) :=
  carryOut_ends fun n _ _ _ _ => .settled ((handedOver_moves n s).trans (h n _))

theorem handedOver_power (n : Nat) (s : State) : (handedOver n s).power = s.power := rfl

theorem giveUp_after_stay (n : Nat) (s : State) :
    { stayInProgress n .quiesce (handedOver n s) with
      part := { (stayInProgress n .quiesce (handedOver n s)).part with state := .quiescing } } =
    wr { stayInProgress n .quiesce (popRequest s) with
      part := { (stayInProgress n .quiesce (popRequest s)).part with state := .quiescing } } (requestWord n 0)
        (codeWord (requestCode (popRequest s) n) statusInProgress .ok) := rfl

/-- R32: QUIESCE, handed over. -/
theorem quiesce_moves (hc : ∀ x, can x) {n : Nat} {rest : List Nat} (hq : s.part.queue = n :: rest)
    (hs : started s = true) : Moves can s (quiesce n (handedOver n s)) := by
  obtain ⟨hr, hst⟩ := (started_iff s).1 hs
  obtain ⟨-, hreset, -⟩ := (running_iff s).1 hr
  have hstay := stayInProgress_moves (can := can) .quiesce hq hst
  unfold quiesce
  split
  · have hstate := (setState_moves (st := .quiescing) (hc _)
      (s := stayInProgress n .quiesce (popRequest s)) hreset (by decide)).after hstay
    refine (quietTest_moves (hc _) _).after ((giveUpCandidates_moves (hc _) _).after ?_)
    dsimp only
    rw [giveUp_after_stay]
    exact (wr_moves _ _ _).after hstate
  · exact (wr_moves (stayInProgress n .quiesce (popRequest s)) (requestWord n 0)
      (codeWord (requestCode (popRequest s) n) statusInProgress .ok)).after hstay
  · exact (endDone_moves _ _ _).after (handedOver_moves n s)

/-- R33: RESUME, handed over. -/
theorem resume_moves (hc : ∀ x, can x) (n : Nat) (hreset : s.power.resetting = false) : Moves can s (resume n s) :=
  (endDone_moves _ _ _).after ((Moves.foldl (fun s m => endFailed_moves m .superseded s) _ _).after
    (enterServing_moves (hc _) hreset))

/-! Host writes to the live block. -/

theorem monthLength_pos (m y : Nat) : 1 ≤ monthLength m y := by
  unfold monthLength
  repeat' split
  all_goals decide

theorem clampCalendar_law (c : Calendar) : CalendarLaw (clampCalendar c) := by
  have hm := monthLength_pos (clampNat 1 12 c.month) (clampNat 0 99 c.year)
  unfold CalendarLaw clampCalendar
  dsimp only
  generalize monthLength (clampNat 1 12 c.month) (clampNat 0 99 c.year) = m at hm ⊢
  unfold clampNat
  omega

theorem beginHold_moves (h : s.clock.set = false) : Moves can s (beginHold s) :=
  { Moves.refl s with
    clock hl := by
      rw [ClockLaw, h] at hl
      exact hl }

theorem releaseHold_moves (s : State) : Moves can s (releaseHold s) :=
  { Moves.refl s with
    clock _ := clampCalendar_law _ }

theorem storeClockWord_moves (f : ClockField) (l : Lanes) (d : Word) (h : s.clock.set = true) :
    Moves can s (storeClockWord f l d s) :=
  { Moves.refl s with
    clock hl := by
      rw [ClockLaw, h] at hl
      show if s.clock.set then _ else _
      rw [h]
      exact hl }

theorem releaseClock_ends (s : State) : Ends can s (releaseClock s) := by
  have hlog {can} : Moves can s (logClockSet (stampOf s.clock.holdTime) s.clock.valid (releaseHold s)) :=
    (logAppend_moves _ _ _ _ _ _).after (releaseHold_moves s)
  unfold releaseClock
  dsimp only
  refine Ends.ite (fun _ => .plain ?_) fun _ => .settled ((evaluateSlots_moves _ _).after hlog)
  exact (slots_moves _ _).after hlog

theorem writeClockControl_ends (l : Lanes) (d : Word) (s : State) : Ends can s (writeClockControl l d s) :=
  Ends.ite (fun h => .plain (beginHold_moves h.1)) fun _ => Ends.ite (fun _ => releaseClock_ends s) fun _ => Ends.refl s

theorem liveWrite_ends (a : Addr) (l : Lanes) (d : Word) (s : State) : Ends can s (liveWrite a l d s) := by
  refine Ends.ite (fun _ => writeClockControl_ends l d s) fun _ => ?_
  split
  · exact Ends.ite (fun h => .plain (storeClockWord_moves _ l d h)) fun _ => .plain (squash_moves a _ s)
  · exact .plain (squash_moves a _ s)

/-! Host writes to memory. -/

theorem advancePlanCheck_moves (s : State) : Moves can s (advancePlanCheck s) := by
  unfold advancePlanCheck
  split
  · exact Moves.refl s
  · exact { Moves.refl s with }

theorem plainWrite_moves (a : Addr) (l : Lanes) (d : Word) (s : State) : Moves can s (plainWrite a l d s) :=
  (hostStore_moves _ _ _ _).after (Moves.ite (fun _ => advancePlanCheck_moves s) fun _ => Moves.refl s)

theorem maskedWrite_moves (a : Addr) (l : Lanes) (d : Word) (s : State) : Moves can s (maskedWrite a l d s) :=
  Moves.ite (fun _ => Moves.refl s) fun _ => hostStore_moves _ _ _ _

theorem slotBusy_eq_false (n : Nat) : slotBusy s n = false ↔ n ∉ s.part.queue ++ s.part.inProgress.map Prod.fst := by
  simp only [slotBusy, Bool.or_eq_false_iff, decide_eq_false_iff_not, List.any_eq_false, decide_eq_true_eq,
    List.mem_append, List.mem_map, not_or, not_exists, not_and]

/-- R28: a request that is posted outside STARTING in a slot that is not busy. -/
theorem postRequest_moves {n : Nat} (hn : n < 8) (hb : slotBusy s n = false) (hst : s.part.state ≠ .starting) :
    Moves can s { s with part := { s.part with queue := s.part.queue ++ [n] } } :=
  { Moves.refl s with
    slot := by
      rintro ⟨hnodup, hqueue, hp, hbound, hx, -⟩
      refine ⟨?_, fun m hm => ?_, hp, hbound, hx, fun h => absurd h hst⟩
      · rw [List.append_assoc]
        exact List.perm_middle.nodup_iff.2 (List.nodup_cons.2 ⟨(slotBusy_eq_false n).1 hb, hnodup⟩)
      · rcases List.mem_append.1 hm with hm | hm
        · exact hqueue m hm
        · exact List.mem_singleton.1 hm ▸ hn }

theorem writeRequestCode_moves {a : Addr} (ha : a.toNat < 0xA0) (merged : Word) (hst : s.part.state ≠ .starting) :
    Moves can s (writeRequestCode a merged s) := by
  unfold writeRequestCode
  dsimp only
  refine Moves.ite (fun _ => (squash_moves _ _ _).after (grantPort_moves _ s)) fun hb => ?_
  refine Moves.ite (fun _ => ?_) fun _ => hostStore_moves s _ _ _
  exact (postRequest_moves (s := hostStore s a.toNat bothLanes merged) (n := (a.toNat - 0x80) / 4) (by omega) (Bool.not_eq_true _ ▸ hb) hst).after (hostStore_moves s _ _ _)

theorem tailStored_lt {n : RingName} {r : RingCopy} (v : Nat) (h : r.head < ringSize n) : tailStored n r v < ringSize n := by
  unfold tailStored
  dsimp only
  split
  · next hv => exact hv.1
  · exact h

theorem freeStalled_moves (s : State) : Moves can s (freeStalled s) := { Moves.refl s with }

theorem writeTail_moves (n : RingName) (a : Addr) (merged : Word) (s : State) : Moves can s (writeTail n a merged s) := by
  unfold writeTail
  split
  · exact hostStore_moves s _ _ _
  · next r hr =>
    have h : Moves can s (setTail n (tailStored n r merged.toNat)
        (hostStore s a.toNat bothLanes (wordOf (tailStored n r merged.toNat)))) := by
      refine (setTail_moves (r := r) ?_ fun hh => tailStored_lt _ hh).after (hostStore_moves s _ _ _)
      cases n <;> exact hr
    dsimp only
    exact Moves.ite (fun _ => (freeStalled_moves _).after h) fun _ => h

theorem dropVerdict_room {c : DropChange} (h : dropVerdict c s = none) (hk : c.kind = .move ∨ c.kind = .retire) :
    overfillsRetires c s = false := by
  unfold dropVerdict at h
  rcases hk with hk | hk <;> rw [hk] at h <;> dsimp only at h <;> split at h
  · cases h
  · split at h
    · cases h
    · next ho => exact Bool.eq_false_iff.2 ho
  · cases h
  · split at h
    · cases h
    · next ho => exact Bool.eq_false_iff.2 ho

theorem newTap_of_kind_retire {c : DropChange} (h : c.kind = .retire) : c.newTap = 0 := by
  by_contra hn
  unfold DropChange.kind at h
  simp only [hn, if_false] at h
  split at h
  · cases h
  · split at h
    · cases h
    · split at h <;> cases h

theorem dropAction_ends (hc : can .quiet) {c : DropChange}
    (h : c.kind = .move ∨ c.kind = .retire → overfillsRetires c s = false) : Ends can s (dropAction c s) := by
  unfold dropAction
  split
  · exact Ends.refl s
  · exact .settled (activationAction_moves hc c s)
  · next hk => exact .settled (retireAction_moves hc (h (.inr hk)) (newTap_of_kind_retire hk))
  · next hk => exact .settled (moveAction_moves hc (h (.inl hk)))
  · exact .settled (rewriteAction_moves c s)
  · exact .settled (claimAction_moves hc c s)

/-- R55: the verdict of a write, taken before the write lands, stands when the write has landed. -/
theorem writeDropWord_ends (hc : can .quiet) (i : Nat) (w : DropWord) (a : Addr) (merged : Word) (s : State) :
    Ends can s (writeDropWord i w a merged s) := by
  unfold writeDropWord
  dsimp only
  split
  · exact .plain ((squash_moves _ _ _).after (grantPort_moves _ s))
  · next h =>
    have hroom := dropVerdict_room h
    exact (dropAction_ends (s := hostStore s a.toNat bothLanes merged) hc hroom).after (hostStore_moves s _ _ _)

/-- Words 0 and 1 of the subscriber records, whose writes can end a pending entry (R58, R103). -/
def isDropPlace (a : Nat) : Prop := 0x10000 ≤ a ∧ a % 32 < 2

theorem feedAction_moves (i : Nat) (old merged : Word) (s : State) : Moves can s (feedAction i old merged s) :=
  Moves.ite (fun _ => withOutstanding_moves _ _ ((raiseDirect_moves _ _).after (lowerDirect_moves _ _)))
    fun _ => partRead_moves s

theorem orderAction_ends (i : Nat) (s : State) : Ends can s (orderAction i s) :=
  Ends.ite (fun _ => .settled ((submit_moves _ _).after ((withOutstanding_moves _ _ (Moves.refl _)).after
    (partRead_moves s)))) fun _ => .plain (partRead_moves s)

theorem writeSubscriberWord_ends (a : Addr) (merged : Word) (s : State) (ha : 0x10000 ≤ a.toNat)
    (hc : isDropPlace a.toNat → can .quiet) : Ends can s (writeSubscriberWord a merged s) := by
  unfold writeSubscriberWord
  dsimp only
  refine Ends.ite (fun hw => writeDropWord_ends (hc ⟨ha, by omega⟩) _ _ _ _ s) fun _ =>
    Ends.ite (fun hw => writeDropWord_ends (hc ⟨ha, by omega⟩) _ _ _ _ s) fun _ =>
    Ends.after ?_ (hostStore_moves s a.toNat bothLanes merged)
  exact Ends.ite (fun _ => .plain (feedAction_moves _ _ _ _)) fun _ =>
    Ends.ite (fun _ => orderAction_ends _ _) fun _ => Ends.refl _

/-- R2: from 0x2000 on, the words below the subscriber table are the rings, whose words are PART, and free words. -/
theorem wordClass_of_ring {a : Nat} (h : 0x2000 ≤ a) (h' : a < 0x10000) : wordClass a = .part ∨ wordClass a = .plain := by
  have h₁ : planCheckWord = 0x7F := rfl
  have h₂ : commitWord = 0x580 := rfl
  unfold wordClass
  by_cases h3 : a < 0x3000
  · simp (disch := omega) only [if_pos, if_neg, true_or]
  · by_cases h4 : a < 0x4000
    · simp (disch := omega) only [if_pos, if_neg, or_true]
    · by_cases h8 : a < 0x8000
      · simp (disch := omega) only [if_pos, if_neg, true_or]
      · simp (disch := omega) only [if_pos, if_neg, or_true]

theorem wordClass_eq_watched {a : Nat} (h : wordClass a = .watched) (ha : 0x2000 ≤ a) : 0x10000 ≤ a := by
  by_contra hn
  rcases wordClass_of_ring ha (Nat.lt_of_not_le hn) with h' | h' <;> cases h.symm.trans h'

theorem ite_ne {α : Type} {c : Prop} [Decidable c] {x y z : α} (hx : x ≠ z) (hy : y ≠ z) : (if c then x else y) ≠ z := by
  split <;> assumption

theorem wordClass_eq_live {a : Nat} (h : wordClass a = .live) : inLiveBlock a = true := by
  by_contra hn
  have ha : ¬a < 0x40 := by simpa [inLiveBlock] using hn
  rw [wordClass, if_neg ha] at h
  refine absurd h ?_
  repeat' refine ite_ne ?_ ?_
  all_goals simp

theorem observedWrite_ends {a : Addr} (merged : Word) (hst : s.part.state ≠ .starting) (hw : wordClass a.toNat = .watched)
    (hc : isDropPlace a.toNat → can .quiet) : Ends can s (observedWrite a merged s) := by
  have hstored {can} := hostStore_moves (can := can) s a.toNat bothLanes merged
  unfold observedWrite
  dsimp only
  refine Ends.ite (fun _ => .plain ((plan_moves _ _).after hstored)) fun _ =>
    Ends.ite (fun h => .plain (writeRequestCode_moves h merged hst)) fun _ => Ends.ite (fun _ => .plain hstored) fun _ =>
    Ends.ite (fun _ => .plain (writeTail_moves _ _ _ s)) fun _ => Ends.ite (fun _ => .plain (writeTail_moves _ _ _ s))
    fun _ => Ends.ite (fun _ => .plain ((lineupEdited_moves _ _).after hstored)) fun _ =>
    Ends.ite (fun _ => .plain ((startCommitCheck_moves _ _).after hstored)) fun _ =>
    Ends.ite (fun _ => .plain hstored) fun h => ?_
  exact writeSubscriberWord_ends a merged s (wordClass_eq_watched hw (Nat.le_of_not_lt h)) hc

/-- A host write: only one to word 0 or 1 of a subscriber record can end a pending entry. -/
theorem hostWrite_ends (a : Addr) (l : Lanes) (d : Word) (s : State) (hc : isDropPlace a.toNat → can .quiet) :
    Ends can s (hostWrite a l d s) := by
  refine Ends.ite (fun _ => Ends.refl s) fun _ => Ends.ite (fun _ => liveWrite_ends a l d s) fun hlive =>
    Ends.ite (fun _ => .plain (squash_moves a _ s)) fun _ => Ends.ite (fun _ => .plain (plainWrite_moves a l d s)) fun hplain =>
    Ends.ite (fun _ => .plain (squash_moves a _ s)) fun hst => ?_
  split
  · exact .plain (squash_moves a _ s)
  · exact .plain (maskedWrite_moves a l d s)
  · next hpart hmasked =>
    refine observedWrite_ends _ hst ?_ hc
    cases h : wordClass a.toNat
    · exact absurd h hplain
    · rfl
    · exact absurd h hmasked
    · exact absurd h hpart
    · exact absurd (wordClass_eq_live h) hlive

end Sys2Proof.Machine


/-! ## How commands end: the downstream link and the visit engine -/

namespace Sys2Proof.Machine

variable {can : Touch → Prop} {s t u : State}

/-! Completion (R70). -/

theorem startAckTimeout_moves (hc : can .quiet) (tap port q : Nat) (s : State) :
    Moves can s (startAckTimeout tap port q s) :=
  updateEntry_moves hc tap port (f := fun e => if e.sequence = q ∧ e.phase = .sending then
    { e with phase := .awaiting, deadline := s.time + timeoutBits (planOf s).ackTimeout, completed := s.time } else e)
    (fun e => by split <;> exact ⟨rfl, rfl⟩) s

theorem startPollTimeout_moves (s : State) : Moves can s (startPollTimeout s) := by
  unfold startPollTimeout
  split
  · next p hp =>
    refine { Moves.refl _ with plant := fun ⟨hl, hi, hpoll⟩ => ⟨hl, hi, ?_⟩, quiet := fun _ => by simp [isQuiet, hp] }
    rintro q hq
    cases hq
    exact hpoll p hp
  · exact Moves.refl s

theorem handOn_moves (hc : can .quiet) (h : HandOff) (s : State) : Moves can s (handOn h s) := by
  cases h
  · exact Moves.refl s
  · exact startPollTimeout_moves s
  · exact startAckTimeout_moves hc _ _ _ s

theorem completeFrame_ends (hc : can .quiet) (h : HandOff) (ends : Nat) (s : State) : Ends can s (completeFrame h ends s) := by
  refine .settled ((handOn_moves hc h _).after ?_)
  have hidle := (link_moves hc (l := .idle) (by simp) (by simp) _).after (reach_moves ends s)
  exact (framesSent_moves _ _).after hidle

/-! Grants. -/

/-- A frame that is sent makes the link busy, unless a reset drains the part. -/
theorem sendFrame_busy (f : List Byte) (h : HandOff) (s : State) (hr : running (sendFrame f h s) = true) :
    isQuiet (sendFrame f h s) = false := by
  obtain ⟨-, hreset, -⟩ := (running_iff _).1 hr
  rw [sendFrame_frame] at hreset
  simp [isQuiet, sendFrame_link f h s hreset]

theorem sendFrame_ends (hc : can .quiet) (f : List Byte) (h : HandOff)
    (hm : Moves (fun x => x = .quiet ∧ can .quiet) s t) : Ends can s (sendFrame f h t) :=
  .busy ((sendFrame_moves ⟨rfl, hc⟩ f h t).after hm) (sendFrame_busy f h t)

theorem lapse_ends (hc : can .quiet) (hm : Moves can s t) : Ends can s (lapse t) :=
  .settled ((link_moves hc (by simp) (by simp) t).after hm)

/-- The Downstream Scheduler's replies and refresh state replaced. -/
theorem replies_moves {rs : List Reply} (h : rs.length ≤ s.sched.replies.length) :
    Moves can s { s with sched := { s.sched with replies := rs } } :=
  { Moves.refl s with
    capacity := fun ⟨hq, hr, hs⟩ => ⟨hq, h.trans hr, hs⟩ }

theorem buildReply_ends (hc : can .quiet) (s : State) : Ends can s (buildReply s) := by
  unfold buildReply
  split
  · exact lapse_ends hc (Moves.refl s)
  · next r rest hr => exact sendFrame_ends hc _ _ (replies_moves (by simp [hr]))

theorem buildRetry_ends (hc : can .quiet) (s : State) : Ends can s (buildRetry s) := by
  have hc' : (fun x => x = Touch.quiet ∧ can .quiet) .quiet := ⟨rfl, hc⟩
  unfold buildRetry
  split
  · exact lapse_ends hc (Moves.refl s)
  · next e _ =>
    split
    · refine Ends.ite (fun _ => sendFrame_ends hc _ _ ((writeStatus_moves _ _ _ _).after ?_)) fun _ =>
        lapse_ends hc (freeWithLink_moves hc e _ s)
      exact updateEntry_moves hc' e.tap e.port (f := fun x => { x with
        attempts := x.attempts + 1, command := subCommand s e.subscriber, phase := .sending }) (fun _ => ⟨rfl, rfl⟩) s
    · exact sendFrame_ends hc _ _ (updateEntry_moves hc' e.tap e.port
        (f := fun x => { x with attempts := x.attempts + 1, phase := .sending }) (fun _ => ⟨rfl, rfl⟩) s)

theorem choosePoll_index {t : Tree} {p i : Nat} (h : choosePoll t p = some i) : 1 ≤ i ∧ i ≤ 255 := by
  obtain ⟨k, -, hk⟩ := List.mem_map.1 (List.mem_of_find?_eq_some h)
  omega

theorem nextIndex_index {i : Nat} (h : 1 ≤ i ∧ i ≤ 255) : 1 ≤ nextIndex i ∧ nextIndex i ≤ 255 := by
  unfold nextIndex
  split <;> omega

/-- R113: the poll record and the pointer after a POLL frame has been built. -/
theorem beginPoll_moves (hc : can .quiet) {i q a : Nat} (hi : 1 ≤ i ∧ i ≤ 255) (s : State) :
    Moves can s { s with plant := { s.plant with
      pollPointer := nextIndex i, pollSequence := sequenceAfter q
      poll := some { index := i, address := a, sequence := q, phase := .sending, completed := 0, deadline := 0 } } } :=
  { Moves.refl s with
    plant := fun ⟨hl, hr, _⟩ => ⟨hl, hr, fun p hp => by cases hp; exact hi⟩
    cursor := fun ⟨hcu, hr, hm, hw, _, _, hk⟩ => ⟨hcu, hr, hm, hw, (nextIndex_index hi).1, (nextIndex_index hi).2, hk⟩
    quiet := fun h => absurd hc h }

theorem buildPoll_ends (hc : can .quiet) (s : State) : Ends can s (buildPoll s) := by
  unfold buildPoll
  split
  · next hi => exact sendFrame_ends hc _ _ ((beginPoll_moves ⟨rfl, hc⟩ (choosePoll_index hi) _).after (wr_moves s _ _))
  · exact lapse_ends hc (Moves.refl s)

/-- The pending-ack table of the state an operation leads to replaced. -/
theorem Moves.withTracker (h : Moves can s t) (hc : can .quiet) {x : Tracker}
    (hack : AckLaw s → AckLaw { t with tracker := x }) : Moves can s { t with tracker := x } :=
  { h with ack := hack, quiet := fun n => absurd hc n }

/-- R72: the build leaves the link to its frame, whatever it was granted for. -/
theorem sendFrame_idle (f : List Byte) (h : HandOff) (s : State) :
    sendFrame f h { s with sched := { s.sched with link := .idle } } = sendFrame f h s := rfl

theorem ackLaw_of_idle (hl : t.sched.link = .idle) (ht : t.tracker.table.length ≤ 16) : AckLaw t :=
  ⟨ht, fun h => Link.noConfusion (hl.symm.trans h), fun h => Link.noConfusion (hl.symm.trans h)⟩

theorem markSent_length (tap port q : Nat) (rs : List RetireEntry) : (markSent tap port q rs).length = rs.length := by
  simp [markSent]

/-- R71: the place that a RETIRE grant found is still free at its build. -/
theorem buildRetire_ends (hc : can .quiet) (h : s.sched.link = .granted .retire) : Ends can s (buildRetire s) := by
  unfold buildRetire
  split
  · exact lapse_ends hc (Moves.refl s)
  · dsimp only
    rw [← sendFrame_idle]
    refine sendFrame_ends hc _ _ ?_
    refine ((order_moves fun hr => (markSent_length _ _ _ _).symm ▸ hr).after
      (link_moves (l := .idle) ⟨rfl, hc⟩ (by simp) (by simp) s)).withTracker ⟨rfl, hc⟩ fun hl => ackLaw_of_idle rfl ?_
    obtain ⟨-, hretire, -⟩ := hl
    have := hretire h
    simp only [List.length_append, List.length_singleton]
    omega

/-! The immediate queue at its grant (R79, R80). -/

theorem refill_link (l : Link) (s : State) : refill { s with sched := { s.sched with link := l } } =
    { refill s with sched := { (refill s).sched with link := l } } := by
  unfold refill
  dsimp only
  split <;> rfl

theorem unstopSweeps_link (l : Link) (s : State) : unstopSweeps { s with sched := { s.sched with link := l } } =
    { unstopSweeps s with sched := { (unstopSweeps s).sched with link := l } } := by
  unfold unstopSweeps
  split <;> rfl

/-- The head leaves the queue; the link is left idle here, as the build or the lapse that follows leaves it to its own. -/
theorem popQueue_moves (hc : can .quiet) {i : Nat} {rest : List Nat} (hq : s.sched.queue = i :: rest) :
    Moves can s { popQueue rest s with sched := { (popQueue rest s).sched with link := .idle } } := by
  have hpop : Moves can s { s with sched := { s.sched with queue := rest, link := .idle } } :=
    { Moves.refl s with
      queue := fun h => by
        rw [QueueLaw, hq] at h
        exact (List.nodup_cons.1 h).2
      capacity := fun ⟨hlen, hrest⟩ => ⟨by rw [hq, List.length_cons] at hlen; exact Nat.le_of_succ_le hlen, hrest⟩
      ack := fun h => ackLaw_of_idle rfl h.1
      quiet := fun n => absurd hc n }
  unfold popQueue
  dsimp only
  rw [← unstopSweeps_link]
  refine (unstopSweeps_moves _).after ?_
  split
  · rw [← refill_link]
    exact (refill_moves _).after hpop
  · exact hpop

theorem popQueue_frame (rest : List Nat) (s : State) : popQueue rest s = { s with sched := (popQueue rest s).sched } := by
  unfold popQueue
  dsimp only
  rw [unstopSweeps_frame]
  split
  · rw [refill_frame]
  · rfl

theorem supersede_length {i : Nat} (h : s.tracker.table.length ≤ 16)
    (hroom : s.tracker.table.length < 16 ∨ s.tracker.table.any (isEntryOf i) = true) :
    (s.tracker.table.filter fun e => !isEntryOf i e).length < 16 := by
  rcases hroom with hroom | hany
  · exact (List.length_filter_le _ _).trans_lt hroom
  · obtain ⟨e, he, hei⟩ := List.any_eq_true.1 hany
    exact (List.length_filter_lt_length_iff_exists.2 ⟨e, he, by simp [hei]⟩).trans_le h

/-- R79: the service of a subscriber, with the link to be given to its frame, and a place in the pending-ack table. -/
theorem serveSubscriber_ends (hc : can .quiet) {i : Nat}
    (hm : Moves (fun x => x = .quiet ∧ can .quiet) s { t with sched := { t.sched with link := .idle } })
    (ht : t.tracker = s.tracker)
    (hroom : AckLaw s → s.tracker.table.length < 16 ∨ s.tracker.table.any (isEntryOf i) = true) :
    Ends can s (serveSubscriber i t) := by
  unfold serveSubscriber
  dsimp only
  rw [← sendFrame_idle]
  generalize { kind := .subscriber, subscriber := i, .. : PendingAck } = e
  have hserved := (wr_moves _ (subscriberWord i 9) (wordOf (serviceSequence (subRd t i 9).toNat))).after hm
  have htracked := hserved.withTracker ⟨rfl, hc⟩ (x := { t.tracker with
    table := (t.tracker.table.filter fun e => !isEntryOf i e) ++ [e] }) fun hl => ackLaw_of_idle rfl (by
      have := supersede_length hl.1 (hroom hl)
      simp only [ht, List.length_append, List.length_singleton]
      omega)
  exact sendFrame_ends hc _ _ ((writeStatus_moves i (subStatus t i)
    { subStatus t i with link := .awaiting, attempts := 1 } _).after htracked)

/-- R71, R79: the place that an IMMEDIATE grant found is still there at its build, free or held by the entry it supersedes. -/
theorem buildImmediate_ends (hc : can .quiet) (h : s.sched.link = .granted .immediate) : Ends can s (buildImmediate s) := by
  unfold buildImmediate
  split
  · exact lapse_ends hc (Moves.refl s)
  · next i rest hq =>
    have hpop {can : Touch → Prop} (hc : can .quiet) := (popQueue_moves hc (s := partRead s) hq).after (partRead_moves s)
    have htracker : (popQueue rest (partRead s)).tracker = s.tracker := by rw [popQueue_frame]; rfl
    refine Ends.ite (fun _ => ?_) fun _ => .settled (hpop hc)
    refine serveSubscriber_ends hc (hpop ⟨rfl, hc⟩) htracker fun ⟨_, _, himm⟩ => ?_
    obtain ⟨j, rest', hj, hroom⟩ := himm h
    cases hq.symm.trans hj
    exact hroom

end Sys2Proof.Machine


/-! ## How commands end: sweeps, visits, frames from the plant, deadlines -/

namespace Sys2Proof.Machine

variable {can : Touch → Prop} {s t u : State}

/-! Sweeps and refresh. -/

/-- The sweep that a table's first change meets is the first that satisfies the test; the others stay. -/
theorem mem_updateFirstSweep {p : Sweep → Bool} {f : Sweep → Sweep} {l : List Sweep} {w x : Sweep}
    (h : l.find? p = some w) (hx : x ∈ updateFirstSweep p f l) : x = f w ∨ x ∈ l := by
  induction l with
  | nil => cases h
  | cons y t ih =>
    unfold updateFirstSweep at hx
    split at hx
    · next hy =>
      rw [List.find?_cons_of_pos hy] at h
      cases h
      exact (List.mem_cons.1 hx).imp id (List.mem_cons_of_mem _)
    · next hy =>
      rw [List.find?_cons_of_neg hy] at h
      rcases List.mem_cons.1 hx with rfl | hx
      · exact .inr List.mem_cons_self
      · exact (ih h hx).imp id (List.mem_cons_of_mem _)

theorem updateFirstSweep_length (p : Sweep → Bool) (f : Sweep → Sweep) (l : List Sweep) :
    (updateFirstSweep p f l).length = l.length := by
  induction l with
  | nil => rfl
  | cons y t ih =>
    unfold updateFirstSweep
    split
    · rfl
    · rw [List.length_cons, ih, List.length_cons]

/-- The first sweep that satisfies a test is changed to one whose cursor stays in the table. -/
theorem updateFirst_moves {p : Sweep → Bool} {f : Sweep → Sweep} {w : Sweep} (h : s.sched.sweeps.find? p = some w)
    (hf : w.cursor ≤ 4096 ∧ w.maps ≤ 8 → (f w).cursor ≤ 4096 ∧ (f w).maps ≤ 8) :
    Moves can s { s with sched := { s.sched with sweeps := updateFirstSweep p f s.sched.sweeps } } :=
  sweeps_moves (by rw [updateFirstSweep_length]; exact fun h => h) fun hl x hx => by
    rcases mem_updateFirstSweep h hx with rfl | hx
    · exact hf (hl w (List.mem_of_find?_eq_some h))
    · exact hl x hx

theorem changeSweep_moves {p : Sweep → Bool} {f : Sweep → Sweep} {w : Sweep} (h : s.sched.sweeps.find? p = some w)
    (hf : w.cursor ≤ 4096 ∧ w.maps ≤ 8 → (f w).cursor ≤ 4096 ∧ (f w).maps ≤ 8) : Moves can s (changeSweep p f s) :=
  updateFirst_moves h hf

theorem removeEndedSweeps_moves (s : State) : Moves can s (removeEndedSweeps s) :=
  sweeps_moves (fun h => (List.length_filter_le _ _).trans h) fun h w hw => h w (List.mem_of_mem_filter hw)

theorem sendMap_ends (hc : can .quiet) (n : Nat) (hm : ∀ can, Moves can s t) : Ends can s (sendMap n t) := by
  unfold sendMap
  split
  · exact sendFrame_ends hc _ _ (hm _)
  · exact lapse_ends hc (hm _)

theorem sendUnacked_ends (hc : can .quiet) (i : Nat) (hm : ∀ can, Moves can s t) : Ends can s (sendUnacked i t) :=
  Ends.ite (fun _ => sendFrame_ends hc _ _ ((partRead_moves t).after (hm _))) fun _ =>
    lapse_ends hc ((partRead_moves t).after (hm _))

theorem buildSweep_ends (hc : can .quiet) (s : State) : Ends can s (buildSweep s) := by
  unfold buildSweep
  split
  · exact lapse_ends hc (Moves.refl s)
  · next w hw =>
    refine Ends.ite (fun h => sendMap_ends hc _ fun _ => updateFirst_moves hw fun hl => ⟨hl.1, h.2⟩) fun _ => ?_
    split
    · exact sendUnacked_ends hc _ fun _ => (removeEndedSweeps_moves _).after (updateFirst_moves hw fun hl => hl)
    · exact lapse_ends hc (Moves.refl s)

theorem setRefresh_moves {r : Refresh} (h : s.sched.refresh.cursor < 4096 → s.sched.refresh.maps ≤ 8 →
    r.cursor < 4096 ∧ r.maps ≤ 8) : Moves can s (setRefresh r s) :=
  { Moves.refl s with
    cursor := fun ⟨hcu, hr, hm, hrest⟩ => ⟨hcu, (h hr hm).1, (h hr hm).2, hrest⟩ }

theorem buildRefresh_ends (hc : can .quiet) (s : State) : Ends can s (buildRefresh s) := by
  unfold buildRefresh
  dsimp only
  refine Ends.ite (fun h => sendMap_ends hc _ fun _ => setRefresh_moves fun hr _ => ⟨hr, h⟩) fun _ => ?_
  split
  · exact sendUnacked_ends hc _ fun _ => setRefresh_moves fun hr hm => ⟨hr, hm⟩
  · exact lapse_ends hc (Moves.refl s)

/-- R72: the build of a grant of any class. -/
theorem buildFrame_ends (hc : can .quiet) {c : FrameClass} (h : s.sched.link = .granted c) :
    Ends can s (buildFrame c s) := by
  cases c
  · exact buildReply_ends hc s
  · exact buildRetry_ends hc s
  · exact buildPoll_ends hc s
  · exact buildRetire_ends hc h
  · exact buildImmediate_ends hc h
  · exact buildSweep_ends hc s
  · exact buildRefresh_ends hc s

theorem grantStep_ends (hc : can .quiet) (c : FrameClass) (s : State) : Ends can s (grantStep c (buildFrame c) s) :=
  Ends.ite (fun h => buildFrame_ends hc h.2) fun _ => Ends.refl s

theorem finishGrant_moves (s : State) : Moves (fun _ => True) s (finishGrant s) := by
  unfold finishGrant
  split
  · next h => exact (buildFrame_ends (can := fun _ => True) trivial h).moves
  · exact Moves.refl s

/-! Visits (R83 to R88). -/

theorem visitRequeue_moves {w : Sweep} (h : s.sched.sweeps.find? wantsRequeue = some w) :
    Moves can s (visitRequeue w s) := by
  have hcursor : w.cursor < 4096 := by
    have := List.find?_some h
    simp only [wantsRequeue, Bool.and_eq_true, decide_eq_true_eq] at this
    exact this.2
  have hpass {can : Touch → Prop} : Moves can s (changeSweep wantsRequeue (fun v => { v with cursor := v.cursor + 1 }) s) :=
    changeSweep_moves h fun hl => ⟨hcursor, hl.2⟩
  exact Moves.ite (fun _ => hpass) fun _ => Moves.ite (fun _ => (submit_moves _ _).after hpass) fun _ =>
    changeSweep_moves h fun hl => hl

theorem visitSweep_ends (s : State) : Ends can s (visitSweep s) := by
  unfold visitSweep
  split
  · next w hw =>
    exact .settled ((removeEndedSweeps_moves _).after ((visitRequeue_moves (s := partRead s) hw).after (partRead_moves s)))
  · split
    · next w hw =>
      refine .settled ((removeEndedSweeps_moves _).after ((changeSweep_moves (s := partRead s) hw fun hl => ?_).after
        (partRead_moves s)))
      have := List.find?_some hw
      simp only [wantsBroadcast, Bool.and_eq_true, decide_eq_true_eq] at this
      exact ⟨this.2, hl.2⟩
    · exact Ends.refl s

theorem refreshAfter_law (b : Bool) (o : RefreshOutcome) {r : Refresh} (_ : r.cursor < 4096) (hm : r.maps ≤ 8) :
    (refreshAfter b o r).cursor < 4096 ∧ (refreshAfter b o r).maps ≤ 8 := by
  have hcursor : (if decide (subscriberCount ≤ r.cursor + 1) then 0 else r.cursor + 1) < 4096 := by
    by_cases hw : subscriberCount ≤ r.cursor + 1
    · simp [hw]
    · rw [if_neg (by simpa using hw)]
      exact Nat.lt_of_not_le hw
  unfold refreshAfter
  dsimp only
  split
  · exact ⟨hcursor, Nat.zero_le _⟩
  · split
    · exact ⟨hcursor, hm⟩
    · exact ⟨hcursor, hm⟩

theorem visitRefresh_ends (s : State) : Ends can s (visitRefresh s) :=
  .settled (Moves.after (Moves.ite (fun _ => submit_moves _ _) fun _ => Moves.refl _)
    ((setRefresh_moves (s := partRead s) fun hc hm => refreshAfter_law _ _ hc hm).after (partRead_moves s)))

/-! Frames from the plant (R91, R92). -/

theorem takeAck_ends (hc : can .quiet) (tap port q r : Nat) (s : State) : Ends can s (takeAck tap port q r s) := by
  refine Ends.ite (fun _ => ?_) fun _ => Ends.refl s
  split
  · exact .settled ((endByAck_moves hc _ _ _).after (matched_moves _ s))
  · exact Ends.refl s

theorem endPollByReply_ends (hc : can .quiet) (p : Poll) (status : Nat) (s : State) :
    Ends can s (endPollByReply p status s) := by
  unfold endPollByReply
  dsimp only
  split
  · exact .settled ((applyResult_moves _ _ _ _).after ((takeLatency_moves _ _ _ _).after (endPoll_moves hc s)))
  · exact .settled (endPoll_moves hc s)

theorem endPollByTimeout_ends (hc : can .quiet) (p : Poll) (s : State) : Ends can s (endPollByTimeout p s) := by
  unfold endPollByTimeout
  dsimp only
  split
  · exact .settled ((applyResult_moves _ _ _ _).after (endPoll_moves hc s))
  · exact .settled (endPoll_moves hc s)

theorem takeStatus_ends (hc : can .quiet) (a q st : Nat) (s : State) : Ends can s (takeStatus a q st s) := by
  unfold takeStatus
  split
  · exact Ends.ite (fun _ => endPollByReply_ends hc _ _ s) fun _ => Ends.refl s
  · exact Ends.refl s

/-! A purchase leaves the replies alone. -/

theorem refuse_replies (i : Nat) (e : RequestError) (s : State) : (refuse i e s).1.sched.replies = s.sched.replies := by
  unfold refuse
  dsimp only
  split <;> rfl

theorem submit_replies (i : Nat) (s : State) : (submit i s).sched.replies = s.sched.replies := by
  unfold submit wakeRefresh
  dsimp only
  repeat' split
  all_goals rfl

theorem acceptPurchase_replies (i k j source token : Nat) (s : State) :
    (acceptPurchase i k j source token s).1.sched.replies = s.sched.replies := by
  unfold acceptPurchase setSlotTotals fillEntry
  dsimp only
  split
  · rw [submit_replies, journalAppend_frame]
    rfl
  · rw [journalAppend_frame]
    rfl

theorem decidePurchase_replies (i k source token : Nat) (s : State) :
    (decidePurchase i k source token s).1.sched.replies = s.sched.replies := by
  have ht := takeJournal_frame (partRead s)
  unfold decidePurchase
  dsimp only
  split
  · exact refuse_replies _ _ _
  · split
    · next v hv =>
      rw [hv] at ht
      dsimp only at ht
      unfold fillPurchase
      split
      · rw [acceptPurchase_replies, ht]
        rfl
      · rw [refuse_replies, ht]
        rfl
      · rw [refuse_replies, ht]
        rfl
    · next v hv =>
      rw [hv] at ht
      dsimp only at ht
      rw [refuse_replies, ht]
      rfl

theorem answerBuy_moves (tap port slot token : Nat) (h : s.sched.replies.length < 8) :
    Moves can s (answerBuy tap port slot token s) := by
  unfold answerBuy
  split
  · exact queueReply_moves _ _ _ _ h
  · next i _ =>
    refine Moves.ite (fun _ => queueReply_moves _ _ _ _ h) fun _ => ?_
    have hreplies := decidePurchase_replies i slot sourceConverter token s
    exact (queueReply_moves _ _ _ _ (hreplies.symm ▸ h)).after (decidePurchase_moves i slot sourceConverter token s)

theorem takeBuy_ends (tap port slot token : Nat) (s : State) : Ends can s (takeBuy tap port slot token s) :=
  Ends.ite (fun h => .settled (answerBuy_moves _ _ _ _ h.2)) fun _ => Ends.refl s

theorem takeGoodFrame_ends {owner : State → State} (h : ∀ s, Ends can s (owner s)) (s : State) :
    Ends can s (takeGoodFrame owner s) := by
  unfold takeGoodFrame
  dsimp only
  exact (Ends.ite (fun _ => h _) fun _ => Ends.refl _).after (stepNoise_moves _ s)

theorem judgeAndHand_ends (hc : can .quiet) (f : UpFrame) (s : State) : Ends can s (judgeAndHand f s) := by
  unfold judgeAndHand
  split
  · exact .plain ((stepNoise_moves _ _).after (receiver_moves _ s))
  · exact takeGoodFrame_ends (fun s => takeAck_ends hc _ _ _ _ s) s
  · exact takeGoodFrame_ends (fun s => takeStatus_ends hc _ _ _ s) s
  · exact takeGoodFrame_ends (fun s => takeBuy_ends _ _ _ _ s) s

theorem lineRests_moves (s : State) : Moves can s (lineRests s) := { Moves.refl s with }

theorem receiveFrame_ends (hc : can .quiet) (f : UpFrame) (s : State) : Ends can s (receiveFrame f s) :=
  Ends.ite (fun _ => Ends.ite (fun _ => (judgeAndHand_ends hc f _).after (lineRests_moves s))
    fun _ => .plain (lineRests_moves s)) fun _ => Ends.refl s

end Sys2Proof.Machine


/-! ## How commands end: checks, start-up and time -/

namespace Sys2Proof.Machine

variable {can : Touch → Prop} {s t u : State}

/-! Start-up steps (R26). -/

theorem atStartStep_iff (k : Nat) (s : State) : atStartStep k s = true ↔
    (s.power.vcc = true ∧ s.power.resetting = false ∧ s.power.failing = false) ∧ s.part.state = .starting ∧
      s.part.startStep = k := by
  simp [atStartStep, running, and_assoc]

/-- One of the first nine steps gives way to another, the slots not scanned yet. -/
theorem toStartStep_moves {k : Nat} (hk : k ≤ 9) (hs : s.part.startStep ≤ 9) : Moves can s (toStartStep k s) :=
  { Moves.refl s with
    slot := fun ⟨hn, hq, hp, hb, hx, hscan⟩ =>
      ⟨hn, hq, hp, hb, fun h => ⟨(hx h).1, hk⟩, fun h _ => hscan h hs⟩ }

/-- One whole step before the scan. -/
theorem startStep_ends {k : Nat} {work : State → State} (hk : k ≤ 8) (h : Moves (fun _ => False) s (work s))
    (hpart : (work s).part = s.part) : Ends can s (startStep k work s) := by
  refine Ends.ite (fun hs => .plain ((toStartStep_moves (by omega) ?_).after h)) fun _ => Ends.refl s
  obtain ⟨-, -, hstep⟩ := (atStartStep_iff k s).1 hs
  rw [hpart, hstep]
  omega

theorem writeDirectCounts_moves (s : State) : Moves can s (writeDirectCounts s) := wrAll_moves _ s

/-- The Request Engine's part with other census fields, at step 4 or 5. -/
theorem censusFields_moves {c k : Nat} {d : Bool} (hc : c < 4096) (hk : k ≤ 9) (hs : s.part.startStep ≤ 9) :
    Moves can s { s with part := { s.part with censusCursor := c, censusDone := d, startStep := k } } :=
  { Moves.refl s with
    cursor := fun ⟨_, hrest⟩ => ⟨hc, hrest⟩
    slot := fun ⟨hn, hq, hp, hb, hx, hscan⟩ =>
      ⟨hn, hq, hp, hb, fun h => ⟨(hx h).1, hk⟩, fun h _ => hscan h hs⟩ }

theorem correctMinutes_part (i : Nat) (s : State) : (correctMinutes i s).part = s.part := by
  unfold correctMinutes
  dsimp only
  repeat' split
  all_goals rfl

theorem censusVisit_part (i : Nat) (s : State) : (censusVisit i s).part = s.part := by
  unfold censusVisit
  split
  · rfl
  · split
    · unfold censusClaim
      dsimp only
      rw [correctMinutes_part]
      split <;> rfl
    · unfold censusConflict
      dsimp only
      rw [correctMinutes_part]
      show (logAppend _ _ _ _ _ _).part = s.part
      rw [logAppend_frame]
      rfl

theorem censusStep_moves (h : s.part.startStep ≤ 9) : Moves can s (censusStep s) := by
  unfold censusStep
  dsimp only
  have hvisit {can} := censusVisit_moves (can := can) s.part.censusCursor s
  have hpart := censusVisit_part s.part.censusCursor s
  generalize censusVisit s.part.censusCursor s = v at hvisit hpart ⊢
  have hstep : v.part.startStep ≤ 9 := hpart ▸ h
  refine Moves.ite (fun hc => ?_) fun _ => ?_
  · exact (censusFields_moves (k := v.part.startStep) hc hstep hstep).after hvisit
  · exact (censusFields_moves (s := writeDirectCounts v) (by decide) (by decide)
      ((congrArg Part.startStep (by rw [writeDirectCounts, wrAll_frame])).trans_le hstep)).after
      ((writeDirectCounts_moves v).after hvisit)

/-! The scan of the request slots (R31). -/

theorem stayInProgress_eq (n : Nat) (r : LongRequest) (s : State) : stayInProgress n r s =
    { s with part := { s.part with inProgress := s.part.inProgress ++ [(n, r)] } } := rfl

/-- One slot of the scan changes memory, the Request Engine's lists and the close's bound slot. -/
theorem scanSlot_frame (s : State) (n : Nat) : scanSlot s n = { s with
    mem := (scanSlot s n).mem, port := (scanSlot s n).port
    part := { s.part with queue := (scanSlot s n).part.queue, inProgress := (scanSlot s n).part.inProgress }
    close := { s.close with bound := (scanSlot s n).close.bound } } := by
  unfold scanSlot
  dsimp only
  split
  · rfl
  · split
    · split
      · split
        · split <;> rfl
        · rfl
      · rfl
    · rfl

theorem scan_frame (l : List Nat) : ∀ s : State, l.foldl scanSlot s = { s with
    mem := (l.foldl scanSlot s).mem, port := (l.foldl scanSlot s).port
    part := { s.part with queue := (l.foldl scanSlot s).part.queue, inProgress := (l.foldl scanSlot s).part.inProgress }
    close := { s.close with bound := (l.foldl scanSlot s).close.bound } } := by
  induction l with
  | nil => exact fun _ => rfl
  | cons n t ih =>
    intro s
    rw [List.foldl_cons, ih, scanSlot_frame]

theorem scanSlot_wf (n : Nat) (h : MemWf s.mem) : MemWf (scanSlot s n).mem := by
  unfold scanSlot
  repeat' split
  · exact h
  · exact endFailed_wf _ _ _ h
  · exact h
  · exact endDone_wf _ _ _ h
  · exact endFailed_wf _ _ _ h
  · exact h

theorem scanSlot_idle (n : Nat) (h : PortIdle s) : PortIdle (scanSlot s n) := by
  have hfailed (e : RequestError) := (endFailed_moves (can := fun _ => True) n e s).port h
  have hdone (r : Nat) := (endDone_moves (can := fun _ => True) n r s).port h
  unfold scanSlot
  repeat' split
  · exact h
  · exact hfailed _
  · exact h
  · exact hdone _
  · exact hfailed _
  · exact h

/-- The slots that the scan has met, as they stand in the queue and in progress. -/
def takenSlots (s : State) : List Nat := s.part.queue ++ s.part.inProgress.map Prod.fst

theorem takenSlots_endProgress (n : Nat) (l : List (Nat × LongRequest)) (q : List Nat) :
    (q ++ (l.filter fun p => p.1 != n).map Prod.fst).Sublist (q ++ l.map Prod.fst) :=
  (List.Sublist.refl _).append (List.filter_sublist.map _)

/-- R28, R31: what a scan that has met the slots below `n` has found. -/
structure Scanned (n : Nat) (s : State) : Prop where
  nodup : (takenSlots s).Nodup
  below : ∀ m ∈ takenSlots s, m < n
  bound : ∀ m, s.close.bound = some m → m < 8

theorem Scanned.of_sublist {n : Nat} (h : Scanned n s) (hs : (takenSlots t).Sublist (takenSlots s))
    (hb : t.close.bound = s.close.bound) : Scanned (n + 1) t :=
  ⟨h.nodup.sublist hs, fun m hm => (h.below m (hs.subset hm)).trans (Nat.lt_succ_self n), hb ▸ h.bound⟩

theorem Scanned.of_perm {n : Nat} (h : Scanned n s) (hp : (takenSlots t).Perm (n :: takenSlots s))
    (hb : ∀ m, t.close.bound = some m → m < 8) : Scanned (n + 1) t where
  nodup := hp.nodup_iff.2 (List.nodup_cons.2 ⟨fun hn => Nat.lt_irrefl n (h.below n hn), h.nodup⟩)
  below m hm := by
    rcases List.mem_cons.1 (hp.subset hm) with rfl | hm
    · exact Nat.lt_succ_self m
    · exact (h.below m hm).trans (Nat.lt_succ_self n)
  bound := hb

theorem takenSlots_stay (n : Nat) (r : LongRequest) (s : State) :
    (takenSlots (stayInProgress n r s)).Perm (n :: takenSlots s) := by
  simp only [takenSlots, stayInProgress, List.map_append, List.map_singleton, ← List.append_assoc]
  exact List.perm_append_singleton _ _

theorem scanSlot_scanned {n : Nat} (hn : n < 8) (h : Scanned n s) : Scanned (n + 1) (scanSlot s n) := by
  have hfailed (e : RequestError) : Scanned (n + 1) (endFailed n e s) := h.of_sublist (takenSlots_endProgress n _ _) rfl
  unfold scanSlot
  split
  · refine h.of_perm (t := { s with part := { s.part with queue := s.part.queue ++ [n] } }) ?_ h.bound
    simp only [takenSlots, List.append_assoc]
    exact List.perm_middle
  · split
    · split
      · split
        · split
          · exact hfailed _
          · exact h.of_perm (takenSlots_stay n .closeNow s) fun m hm => Option.some.inj hm ▸ hn
        · exact h.of_sublist (t := endDone n _ s) (takenSlots_endProgress n _ _) rfl
      · exact hfailed _
    · exact h.of_sublist (List.Sublist.refl _) rfl

theorem scan_scanned (k : Nat) (hk : k ≤ 8) (h : Scanned 0 s) : Scanned k ((List.range k).foldl scanSlot s) := by
  induction k with
  | zero => exact h
  | succ k ih =>
    rw [List.range_succ, List.foldl_append]
    exact scanSlot_scanned hk (ih (Nat.le_of_succ_le hk))

/-- R31: step 9, and with it the end of the time in which nothing is queued. -/
theorem scanStep_moves (h : atStartStep 9 s = true) : Moves can s (toStartStep 10 (scanSlots s)) := by
  obtain ⟨⟨-, hreset, -⟩, hstate, hstep⟩ := (atStartStep_iff 9 s).1 h
  have hwf : ∀ (l : List Nat) (v : State), MemWf v.mem → MemWf (l.foldl scanSlot v).mem := fun l => by
    induction l with
    | nil => exact fun _ h => h
    | cons n t ih => exact fun v h => ih _ (scanSlot_wf n h)
  have hidle : ∀ (l : List Nat) (v : State), PortIdle v → PortIdle (l.foldl scanSlot v) := fun l => by
    induction l with
    | nil => exact fun _ h => h
    | cons n t ih => exact fun v h => ih _ (scanSlot_idle n h)
  have hscan := scan_scanned (s := partRead s) 8 (Nat.le_refl 8)
  have hport := hidle (List.range 8) (partRead s) (partRead_idle s)
  have hmem := hwf (List.range 8) (partRead s)
  unfold scanSlots
  rw [scan_frame] at hscan hport hmem ⊢
  exact { Moves.refl s with
    mem := hmem
    port := fun _ => hport
    slot := fun ⟨_, _, _, hbound, _, hempty⟩ => by
      obtain ⟨hq, hp⟩ := hempty hstate (by omega)
      have hzero : Scanned 0 (partRead s) := by
        refine ⟨?_, fun m hm => ?_, hbound⟩
        · show (s.part.queue ++ s.part.inProgress.map Prod.fst).Nodup
          rw [hq, hp]
          exact List.nodup_nil
        · change m ∈ s.part.queue ++ s.part.inProgress.map Prod.fst at hm
          rw [hq, hp] at hm
          cases hm
      obtain ⟨hnodup, hbelow, hb⟩ := hscan hzero
      refine ⟨hnodup, fun n hn => hbelow n (List.mem_append_left _ hn),
        fun p hp => hbelow p.1 (List.mem_append_right _ (List.mem_map_of_mem hp)), hb, fun hr => ?_, fun _ hk => ?_⟩
      · exact absurd (hreset.symm.trans hr) (by decide)
      · exact absurd hk (by simp [toStartStep]) }

/-! Checks at their completion (R21, R39). -/

theorem loadWorkingCopy_moves (ws : List Word) (s : State) : Moves can s (loadWorkingCopy ws s) := { Moves.refl s with }

/-- R21: what a plan check comes to: its record, the next step, or in UNPLANNED the entry to SERVING. -/
theorem completePlanCheck_cases (c : PlanCheck) (s : State) :
    Moves (fun _ => False) s (completePlanCheck c s) ∨
      s.part.state = .unplanned ∧ ∃ u, completePlanCheck c s = settle (enterServing u) ∧ Moves (fun _ => False) s u := by
  unfold completePlanCheck
  dsimp only
  generalize hw : c.words ++ planWordsFrom s c.words.length = ws
  generalize planOutcome c.expected ws = r
  have hlog : ∀ can, Moves can s (logAppend .planCommit 0 r.code c.expected.toNat (crcOfWords ws).toNat
      { (if r = .ok then loadWorkingCopy ws s else s) with
        plan := { (if r = .ok then loadWorkingCopy ws s else s).plan with check := none, last := some r } }) := fun can =>
    (logAppend_moves _ _ _ _ _ _).after ((plan_moves _ _).after
      (Moves.ite (fun _ => loadWorkingCopy_moves _ s) fun _ => Moves.refl s))
  have hstate := (hlog (fun _ => False)).state not_false
  generalize logAppend .planCommit 0 r.code c.expected.toNat (crcOfWords ws).toNat
      { (if r = .ok then loadWorkingCopy ws s else s) with
        plan := { (if r = .ok then loadWorkingCopy ws s else s).plan with check := none, last := some r } } = v at hlog hstate ⊢
  unfold afterPlanCheck
  split
  · left
    split
    · next hstep =>
      exact ((startCommitCheck_moves _ _).after (toStartStep_moves (by decide) (by omega))).after (hlog _)
    · exact hlog _
  · next hun =>
    split
    · exact .inr ⟨hstate ▸ hun, v, rfl, hlog _⟩
    · exact .inl (hlog _)
  · exact .inl (hlog _)

theorem clearDisabledWarnings_ends (s : State) : Ends can s (clearDisabledWarnings s) := .plain (clearDisabledWarnings_moves s)

theorem endCommitCheck_ends (w : Word) (s : State) : Ends can s (endCommitCheck w s) := by
  unfold endCommitCheck
  refine .settled (Moves.after (Moves.ite (fun h => toStartStep_moves (by decide) ?_) fun _ => Moves.refl _)
    (completeCommitCheck_moves w s))
  obtain ⟨-, -, hstep⟩ := (atStartStep_iff 2 _).1 h
  omega

/-! The end of start-up (R26, R27). -/

theorem noted_moves (s : State) (a b : Bool) :
    Moves can s { s with slots := { s.slots with noted := a }, close := { s.close with noted := b } } := { Moves.refl s with }

theorem takeNoted_moves (s : State) : Moves can s (takeNoted s) := by
  unfold takeNoted
  dsimp only
  exact (noted_moves _ _ _).after (Moves.after (Moves.ite (fun _ => testAlarm_moves _ _) fun _ => Moves.refl _)
    (Moves.ite (fun _ => evaluateSlots_moves _ s) fun _ => Moves.refl s))

theorem leaveStarting_moves (hc : can .state) (h : s.power.resetting = false) : Moves can s (leaveStarting s) :=
  Moves.ite (fun _ => enterServing_moves hc h) fun _ => setState_moves hc h (by decide)

theorem endStartup_ends (hc : can .state) (h : s.power.resetting = false) : Ends can s (endStartup s) :=
  .settled ((takeNoted_moves _).after ((leaveStarting_moves (s := latch (conditions s) s) hc h).after (latch_moves _ s)))

/-! The Clock and the minute tick (R130, R131). -/

theorem nextSecond_law {c : Calendar} (h : CalendarLaw c) : CalendarLaw (nextSecond c) := by
  obtain ⟨hs, hm, hh, hd, hdm, hmo, hmo', hy⟩ := h
  have hone := monthLength_pos (c.month + 1) c.year
  unfold nextSecond CalendarLaw
  repeat' split
  · exact ⟨by dsimp only; omega, hm, hh, hd, hdm, hmo, hmo', hy⟩
  · exact ⟨Nat.zero_le _, by dsimp only; omega, hh, hd, hdm, hmo, hmo', hy⟩
  · exact ⟨Nat.zero_le _, Nat.zero_le _, by dsimp only; omega, hd, hdm, hmo, hmo', hy⟩
  · next hlt => exact ⟨Nat.zero_le _, Nat.zero_le _, Nat.zero_le _, Nat.succ_le_succ (Nat.zero_le _), hlt, hmo, hmo', hy⟩
  · exact ⟨Nat.zero_le _, Nat.zero_le _, Nat.zero_le _, Nat.le_refl 1, hone, by dsimp only; omega, by dsimp only; omega, hy⟩
  · exact ⟨Nat.zero_le _, Nat.zero_le _, Nat.zero_le _, Nat.le_refl 1, monthLength_pos 1 _, Nat.le_refl 1, by dsimp only; omega,
      by dsimp only; omega⟩
  · exact ⟨Nat.zero_le _, Nat.zero_le _, Nat.zero_le _, Nat.le_refl 1, monthLength_pos 1 _, Nat.le_refl 1, by dsimp only; omega,
      by dsimp only; omega⟩

theorem countSecond_moves (h : clockCounts s = true) : Moves can s (countSecond s) :=
  { Moves.refl s with
    clock hl := by
      have hset : s.clock.set = false := by
        simp only [clockCounts, Bool.and_eq_true, Bool.not_eq_true'] at h
        exact h.1
      rw [ClockLaw, hset] at hl
      show if s.clock.set then _ else _
      rw [hset]
      exact nextSecond_law hl }

theorem ticks_moves (l : List Tick) (s : State) : Moves can s { s with clock := { s.clock with ticks := l } } := { Moves.refl s with }

theorem validTick_moves (k : Tick) (s : State) : Moves can s (validTick k s) :=
  Moves.ite (fun _ => Moves.refl s) fun _ => Moves.ite (fun _ => noted_moves s _ _) fun _ =>
    (testAlarm_moves _ _).after (evaluateSlots_moves _ s)

theorem handTick_ends (k : Tick) (rest : List Tick) (s : State) : Ends can s (handTick k rest s) := by
  unfold handTick
  dsimp only
  exact Ends.ite (fun _ => .settled ((validTick_moves _ _).after ((meterTick_moves _).after (ticks_moves rest s))))
    fun _ => .plain (ticks_moves rest s)

theorem beginPass_moves (h : 0 < s.meter.owed) :
    Moves can s { s with meter := { s.meter with owed := s.meter.owed - 1, running := true, cursor := 0 } } :=
  { Moves.refl s with
    meter := fun ⟨ho, hl, _⟩ => ⟨by dsimp only; omega, hl, (by decide : 0 < 4096)⟩ }

end Sys2Proof.Machine


/-! ## How each command ends -/

namespace Sys2Proof.Machine

variable {can : Touch → Prop} {s t u : State}

/-- The commands that read, that move the part state, and those of power and reset, which do not end as the others do. -/
def standsApart : Instr → Bool
  | .squashReasonRead _ | .pairLowRead _ _ | .pairHighRead _ _ | .clusterFlagRead _ | .clockSecondsRead _
  | .clockYearRead _ | .planCheckComplete | .quiesce | .resume | .startupEnd | .powerUp | .pwrfail | .powerFailPortIdle
  | .reset | .resetEnd | .pwrfailReturningHigh | .powerLoss | .backupIntactLatchCleared => true
  | _ => false

/-- What a command may touch that the quiet condition reads (R32). -/
def quietTouch (c : Instr) (x : Touch) : Prop := x = .quiet ∧ canQuiet c = true

/-- The command leaves `t` but for the flags whose conditions arose, and ends as a command of its kind does. -/
def LeavesTo (c : Instr) (s t : State) : Prop := exec c s = .next (latchArisen s t) ∧ Ends (quietTouch c) s t

theorem latchArisen_starting (h : t.part.state = .starting) : latchArisen s t = t := if_pos h

/-- A whole start-up step latches nothing. -/
theorem leavesTo_startStep {c : Instr} {k : Nat} {work : State → State} (hk : k ≤ 8)
    (hexec : exec c s = .next (startStep k work s)) (h : ∀ can, Moves can s (work s)) (hpart : (work s).part = s.part) :
    LeavesTo c s (startStep k work s) := by
  refine ⟨hexec.trans (congrArg _ (Eq.symm ?_)), startStep_ends hk (h _) hpart⟩
  unfold startStep
  split
  · next hs =>
    refine latchArisen_starting ?_
    obtain ⟨-, hstate, -⟩ := (atStartStep_iff k s).1 hs
    exact (congrArg Part.state hpart).trans hstate
  · exact latchArisen_eq_self rfl

theorem latchArisen_refl (s : State) : latchArisen s s = s := latchArisen_eq_self rfl

/-- A command that has nothing to do. -/
theorem leavesTo_self {c : Instr} (h : exec c s = .next s) : LeavesTo c s s :=
  ⟨h.trans (by rw [latchArisen_refl]), Ends.refl s⟩

theorem leavesTo_of_conditions {c : Instr} (h : exec c s = .next t) (hcond : conditions t = conditions s)
    (he : Ends (quietTouch c) s t) : LeavesTo c s t :=
  ⟨h.trans (by rw [latchArisen_eq_self hcond]), he⟩

/-! The start-up steps leave the part state and the step to their rows. -/

/-- A fold leaves what each of its steps leaves. -/
theorem foldl_keeps {α β : Type} {f : State → α → State} (g : State → β) (h : ∀ s x, g (f s x) = g s) (l : List α) :
    ∀ s, g (l.foldl f s) = g s := by
  induction l with
  | nil => exact fun _ => rfl
  | cons x t ih => exact fun s => (ih _).trans (h s x)

theorem resetParent_part (i : Nat) (s : State) : (resetParent i s).part = s.part := by
  unfold resetParent
  split
  · rfl
  · unfold logTopology
    rw [logAppend_frame]
    rfl

theorem censusPass_part (bad : Tree → Nat → Bool) (s : State) : (censusPass bad s).part = s.part :=
  foldl_keeps State.part (fun s i => by split <;> [exact resetParent_part i s; rfl]) _ s

theorem wrIfChanged_part (s : State) (a : Nat) (w : Word) : (wrIfChanged s a w).part = s.part := by
  unfold wrIfChanged
  split <;> rfl

theorem censusRead_part (s : State) : (censusRead s).part = s.part := by
  refine (foldl_keeps State.part (fun s k => ?_) _ _).trans (by rw [wrAll_frame])
  dsimp only
  split
  · rw [wrIfChanged_part, wrIfChanged_part]
  · rfl

theorem censusElementState_part (s : State) (i : Nat) : (censusElementState s i).part = s.part := by
  unfold censusElementState
  dsimp only
  repeat' split
  all_goals rfl

theorem elementCensus_part (s : State) : (elementCensus s).part = s.part := by
  unfold elementCensus censusCounts
  dsimp only
  rw [foldl_keeps State.part censusElementState_part, censusPass_part, censusPass_part, censusPass_part, censusRead_part]

theorem reloadSlot_part (s : State) (k : Nat) : (reloadSlot s k).part = s.part := by
  unfold reloadSlot
  dsimp only
  repeat' split
  all_goals rfl

theorem reloadSlots_part (s : State) : (reloadSlots s).part = s.part := foldl_keeps State.part reloadSlot_part _ _

theorem resumeClose_part (s : State) : (resumeClose s).part = s.part := by
  unfold resumeClose
  dsimp only
  repeat' split
  all_goals rfl

theorem leavesTo_censusVisit (s : State) :
    LeavesTo .subscriberCensusVisit s (if atStartStep 4 s then censusStep s else s) := by
  by_cases h : atStartStep 4 s = true
  · obtain ⟨-, hstate, hstep⟩ := (atStartStep_iff 4 s).1 h
    have hmoves {can} := censusStep_moves (can := can) (s := s) (by omega)
    have hstarting := ((hmoves (can := fun _ => False)).state not_false).trans hstate
    rw [if_pos h]
    refine ⟨?_, .plain hmoves⟩
    rw [latchArisen_starting hstarting]
    exact congrArg _ (if_pos h)
  · rw [if_neg h]
    exact leavesTo_self (congrArg _ (if_neg h))

theorem leavesTo_requestSlotScan (s : State) : LeavesTo .requestSlotScan s (startStep 9 scanSlots s) := by
  by_cases h : atStartStep 9 s = true
  · obtain ⟨-, hstate, -⟩ := (atStartStep_iff 9 s).1 h
    have hstarting := ((scanStep_moves (can := fun _ => False) h).state not_false).trans hstate
    rw [startStep, if_pos h]
    refine ⟨?_, .plain (scanStep_moves h)⟩
    rw [latchArisen_starting hstarting]
    exact congrArg _ (if_pos h)
  · rw [startStep, if_neg h]
    exact leavesTo_self (congrArg _ (if_neg h))

/-- A host write at a word whose writes end no pending entry. -/
theorem hostWrite_ends_at {a : Nat} (ha : a < 0x10000) (l : Lanes) (d : Word) (s : State) :
    Ends can s (hostWrite (addrOf a) l d s) := by
  refine hostWrite_ends _ l d s fun h => absurd h.1 ?_
  rw [Laws.Operands.addrOf_toNat (by omega)]
  omega

theorem hostWrite_ends_subscriber {i w : Nat} (hi : i < 4096) (hw : 2 ≤ w) (hw' : w < 32) (l : Lanes) (d : Word) (s : State) :
    Ends can s (hostWrite (addrOf (subscriberWord i w)) l d s) := by
  refine hostWrite_ends _ l d s fun h => absurd h.2 ?_
  rw [Laws.Operands.addrOf_toNat (by simp only [subscriberWord]; omega)]
  simp only [subscriberWord]
  omega

theorem clockFieldAddress_lt (f : ClockField) : clockFieldAddress f < 0x10000 := by cases f <;> decide

theorem maskedWrite_ends (n : NoticeWord) (l : Lanes) (d : Word) (s : State) :
    Ends can s (hostWrite (addrOf (noticeAddress n)) l d s) := by
  cases n with
  | element i => exact hostWrite_ends_at (by simp only [noticeAddress, elementWord]; omega) l d s
  | subscriber i => exact hostWrite_ends_subscriber i.isLt (by decide) (by decide) l d s

theorem orderWrite_ends (i : Fin 4096) (w : OrderWord) (l : Lanes) (d : Word) (s : State) :
    Ends can s (hostWrite (addrOf (orderWordAddress i w)) l d s) := by
  cases w <;> exact hostWrite_ends_subscriber i.isLt (by decide) (by decide) l d s

theorem tailAddress_lt (r : RingName) : tailAddress r < 0x10000 := by cases r <;> decide

theorem meterVisit_conditions (i : Nat) (s : State) : conditions (advancePass (meterVisit i s)) = conditions s := by
  unfold advancePass meterVisit
  split <;> split <;> rfl

theorem reach_ends (n : Nat) (h : Ends can (reach n s) t) : Ends can s t := h.after (reach_moves n s)

/-- The ending of a command that is not one of those that stand apart. -/
theorem exec_leavesTo {c : Instr} (hc : standsApart c = false) (s : State) : ∃ t, LeavesTo c s t := by
  cases c with
  | squashReasonRead | pairLowRead | pairHighRead | clusterFlagRead | clockSecondsRead | clockYearRead
  | planCheckComplete | quiesce | resume | startupEnd | powerUp | pwrfail | powerFailPortIdle | reset | resetEnd
  | pwrfailReturningHigh | powerLoss | backupIntactLatchCleared => cases hc
  | hostWrite a l d => exact ⟨_, rfl, hostWrite_ends _ l d s fun _ => ⟨rfl, rfl⟩⟩
  | unusedWrite i w l d => exact ⟨_, rfl, hostWrite_ends _ l d s fun _ => ⟨rfl, rfl⟩⟩
  | activation i l d => exact ⟨_, rfl, hostWrite_ends _ l d s fun _ => ⟨rfl, rfl⟩⟩
  | move i w l d => exact ⟨_, rfl, hostWrite_ends _ l d s fun _ => ⟨rfl, rfl⟩⟩
  | retire i l d => exact ⟨_, rfl, hostWrite_ends _ l d s fun _ => ⟨rfl, rfl⟩⟩
  | rewrite i w l d => exact ⟨_, rfl, hostWrite_ends _ l d s fun _ => ⟨rfl, rfl⟩⟩
  | maskedWrite n l d => exact ⟨_, rfl, maskedWrite_ends n l d s⟩
  | clockControlWrite l d => exact ⟨_, rfl, hostWrite_ends_at (by decide) l d s⟩
  | clockWordWrite f l d => exact ⟨_, rfl, hostWrite_ends_at (clockFieldAddress_lt f) l d s⟩
  | planCheckWordWrite l d => exact ⟨_, rfl, hostWrite_ends_at (by decide) l d s⟩
  | requestCodeWrite n l d => exact ⟨_, rfl, hostWrite_ends_at (by simp only [requestWord]; omega) l d s⟩
  | feedChange i l d => exact ⟨_, rfl, hostWrite_ends_subscriber i.isLt (by decide) (by decide) l d s⟩
  | orderWrite i w l d => exact ⟨_, rfl, orderWrite_ends i w l d s⟩
  | lineupWordWrite k l d => exact ⟨_, rfl, hostWrite_ends_at (by omega) l d s⟩
  | commitWordWrite l d => exact ⟨_, rfl, hostWrite_ends_at (by decide) l d s⟩
  | ringTailWrite r l d => exact ⟨_, rfl, hostWrite_ends_at (tailAddress_lt r) l d s⟩
  | warningDisableClear =>
    exact ⟨_, rfl, Ends.ite (fun _ => clearDisabledWarnings_ends s) fun _ => Ends.refl s⟩
  | lineupCheckComplete =>
    cases h : s.lineup.check with
    | none => exact ⟨s, leavesTo_self (by simp only [exec, execLineupCheckComplete, h])⟩
    | some w =>
      exact ⟨_, by simp only [exec, execLineupCheckComplete, h]; rfl, Ends.ite (fun _ => endCommitCheck_ends w s) fun _ => Ends.refl s⟩
  | unknownCode => exact ⟨_, rfl, .plain (failUnknown_moves s)⟩
  | addElement => exact ⟨_, rfl, carryOut_settled addElement_moves s⟩
  | retireElement => exact ⟨_, rfl, carryOut_settled retireElement_moves s⟩
  | setFeed => exact ⟨_, rfl, carryOut_settled setFeed_moves s⟩
  | clearLatch => exact ⟨_, rfl, carryOut_settled clearLatch_moves s⟩
  | armEvent => exact ⟨_, rfl, carryOut_settled armEvent_moves s⟩
  | disarmEvent => exact ⟨_, rfl, carryOut_settled disarmEvent_moves s⟩
  | deskPurchase => exact ⟨_, rfl, carryOut_settled deskPurchase_moves s⟩
  | cancelPurchase => exact ⟨_, rfl, carryOut_settled cancelPurchase_moves s⟩
  | closeNow =>
    exact ⟨_, rfl, carryOut_ends fun n rest hq hs _ => .settled (closeNow_moves hq ((started_iff s).1 hs).2)⟩
  | frameCompletion =>
    cases h : s.sched.link with
    | sending f ho e =>
      exact ⟨_, by simp only [exec, execFrameCompletion, h]; rfl,
        Ends.ite (fun _ => completeFrame_ends ⟨rfl, rfl⟩ ho e s) fun _ => Ends.refl s⟩
    | idle => exact ⟨s, leavesTo_self (by simp only [exec, execFrameCompletion, h])⟩
    | granted => exact ⟨s, leavesTo_self (by simp only [exec, execFrameCompletion, h])⟩
  | replyGrant => exact ⟨_, rfl, grantStep_ends ⟨rfl, rfl⟩ .reply s⟩
  | retryGrant => exact ⟨_, rfl, grantStep_ends ⟨rfl, rfl⟩ .retry s⟩
  | pollGrant => exact ⟨_, rfl, grantStep_ends ⟨rfl, rfl⟩ .poll s⟩
  | retireGrant => exact ⟨_, rfl, grantStep_ends ⟨rfl, rfl⟩ .retire s⟩
  | immediateGrant => exact ⟨_, rfl, grantStep_ends ⟨rfl, rfl⟩ .immediate s⟩
  | sweepGrant => exact ⟨_, rfl, grantStep_ends ⟨rfl, rfl⟩ .sweep s⟩
  | refreshGrant => exact ⟨_, rfl, grantStep_ends ⟨rfl, rfl⟩ .refresh s⟩
  | sweepVisit => exact ⟨_, rfl, Ends.ite (fun _ => visitSweep_ends s) fun _ => Ends.refl s⟩
  | refreshVisit => exact ⟨_, rfl, Ends.ite (fun _ => visitRefresh_ends s) fun _ => Ends.refl s⟩
  | badUpstreamFrame f => exact ⟨_, rfl, receiveFrame_ends ⟨rfl, rfl⟩ f s⟩
  | ack f => exact ⟨_, rfl, receiveFrame_ends ⟨rfl, rfl⟩ f s⟩
  | status dt f => exact ⟨_, rfl, reach_ends _ (receiveFrame_ends ⟨rfl, rfl⟩ f _)⟩
  | buy f => exact ⟨_, rfl, receiveFrame_ends ⟨rfl, rfl⟩ f s⟩
  | ackTimeout =>
    cases h : earliest .awaiting s.tracker.table with
    | none => exact ⟨s, leavesTo_self (by simp only [exec, execAckTimeout, h])⟩
    | some e =>
      exact ⟨_, by simp only [exec, execAckTimeout, h]; rfl, Ends.ite (fun _ => reach_ends _ (.settled
        (entryTimeout_moves ⟨rfl, rfl⟩ e _))) fun _ => Ends.refl s⟩
  | retryWaitEnd =>
    cases h : earliest .waiting s.tracker.table with
    | none => exact ⟨s, leavesTo_self (by simp only [exec, execRetryWaitEnd, h])⟩
    | some e =>
      exact ⟨_, by simp only [exec, execRetryWaitEnd, h]; rfl, Ends.ite (fun _ => reach_ends _ (.settled
        (entryWaitEnd_moves ⟨rfl, rfl⟩ e _))) fun _ => Ends.refl s⟩
  | pollDue => exact ⟨_, rfl, Ends.ite (fun _ => .settled (reach_moves _ s)) fun _ => Ends.refl s⟩
  | pollTimeout =>
    cases h : s.plant.poll with
    | none => exact ⟨s, leavesTo_self (by simp only [exec, execPollTimeout, h])⟩
    | some p =>
      exact ⟨_, by simp only [exec, execPollTimeout, h]; rfl, Ends.ite (fun _ => reach_ends _
        (endPollByTimeout_ends ⟨rfl, rfl⟩ p _)) fun _ => Ends.refl s⟩
  | clockSecond =>
    refine ⟨_, leavesTo_of_conditions rfl ?_ (Ends.ite (fun h => .plain (countSecond_moves h)) fun _ => Ends.refl s)⟩
    split <;> rfl
  | minuteTick =>
    cases h : s.clock.ticks with
    | nil => exact ⟨s, leavesTo_self (by simp only [exec, execMinuteTick, h])⟩
    | cons k rest =>
      exact ⟨_, by simp only [exec, execMinuteTick, h]; rfl, Ends.ite (fun _ => handTick_ends k rest s) fun _ => Ends.refl s⟩
  | meterPassStart =>
    refine ⟨_, leavesTo_of_conditions rfl ?_ (Ends.ite (fun h => .plain (beginPass_moves h.2.1)) fun _ => Ends.refl s)⟩
    split <;> rfl
  | meteringVisit =>
    refine ⟨_, leavesTo_of_conditions rfl ?_
      (Ends.ite (fun _ => .plain ((advancePass_moves _).after (meterVisit_moves _ s))) fun _ => Ends.refl s)⟩
    split
    · exact meterVisit_conditions _ s
    · rfl
  | closeVisit => exact ⟨_, rfl, .plain (closeStep_moves s)⟩
  | elementCensus => exact ⟨_, leavesTo_startStep (by decide) rfl (fun _ => elementCensus_moves s) (elementCensus_part s)⟩
  | subscriberCensusVisit => exact ⟨_, leavesTo_censusVisit s⟩
  | slotReload => exact ⟨_, leavesTo_startStep (by decide) rfl (fun _ => reloadSlots_moves s) (reloadSlots_part s)⟩
  | ringControlValidation =>
    exact ⟨_, leavesTo_startStep (by decide) rfl (fun _ => validateRings_moves s) (by rw [validateRings_frame])⟩
  | closeResumption => exact ⟨_, leavesTo_startStep (by decide) rfl (fun _ => resumeClose_moves s) (resumeClose_part s)⟩
  | start =>
    exact ⟨_, leavesTo_startStep (by decide) rfl (fun _ => logAppend_moves _ _ _ _ _ s) (by rw [logStart, logAppend_frame])⟩
  | requestSlotScan => exact ⟨_, leavesTo_requestSlotScan s⟩

end Sys2Proof.Machine


/-! ## The laws that every step keeps -/

namespace Sys2Proof.Machine

variable {can : Touch → Prop} {s t u : State}

/-- Every law is kept from `s` to `t`, and what waits outside the part. -/
structure KeepsLaws (s t : State) : Prop where
  pending : t.pending = s.pending
  mem : MemWf s.mem → MemWf t.mem
  port : PortIdle s → PortIdle t
  queue : QueueLaw s → QueueLaw t
  capacity : CapacityLaw s → CapacityLaw t
  ring : RingLaw s → RingLaw t
  plant : PlantLaw s → PlantLaw t
  cursor : CursorLaw s → CursorLaw t
  meter : MeterLaw s → MeterLaw t
  clock : ClockLaw s → ClockLaw t
  ack : AckLaw s → AckLaw t
  slot : SlotLaw s → SlotLaw t
  quiet : QuietLaw s → QuietLaw t

theorem Moves.keepsLaws (h : Moves can s t) (hq : QuietLaw s → QuietLaw t) : KeepsLaws s t :=
  { h with quiet := hq }

theorem KeepsLaws.refl (s : State) : KeepsLaws s s := ⟨rfl, id, id, id, id, id, id, id, id, id, id, id, id⟩

/-! The quiet test (R32). -/

/-- The requests that have ended are in progress no more. -/
theorem endQuiesces_inProgress (r : Nat) (l : List Nat) : ∀ s : State,
    (l.foldl (fun t n => endDone n r t) s).part.inProgress = s.part.inProgress.filter fun p => decide (p.1 ∉ l) := by
  induction l with
  | nil => exact fun s => (List.filter_eq_self.2 (by simp)).symm
  | cons n l ih =>
    intro s
    rw [List.foldl_cons, ih]
    show List.filter _ (List.filter _ s.part.inProgress) = _
    rw [List.filter_filter]
    refine List.filter_congr fun p _ => ?_
    by_cases hn : p.1 = n <;> by_cases hl : p.1 ∈ l <;> simp [hn, hl]

theorem endQuiesces_quiesceSlots (r : Nat) (s : State) :
    quiesceSlots ((quiesceSlots s).foldl (fun t n => endDone n r t) s) = [] := by
  rw [quiesceSlots, endQuiesces_inProgress, List.filter_filter]
  refine List.map_eq_nil_iff.2 (List.filter_eq_nil_iff.2 fun p hp h => ?_)
  simp only [Bool.and_eq_true, decide_eq_true_eq] at h
  exact h.2 (List.mem_map_of_mem (List.mem_filter.2 ⟨hp, decide_eq_true h.1⟩))

/-- The quiet condition is met, and the part is QUIESCING and runs. -/
def comesToRest (s : State) : Prop := running s = true ∧ s.part.state = .quiescing ∧ isQuiet s = true

/-- R32: what the quiet test leaves when the condition is met. -/
theorem settle_of_rest (h : comesToRest u) :
    (settle u).part.state = .quiesced ∧ isQuiet (settle u) = true ∧ quiesceSlots (settle u) = [] := by
  have hstate := ((endQuiesces_moves (can := fun _ => False) u.order.held (quiesceSlots u)
    { u with part := { u.part with state := .quiesced } }).state not_false)
  have hquiet := ((endQuiesces_moves (can := fun _ => False) u.order.held (quiesceSlots u)
    { u with part := { u.part with state := .quiesced } }).quiet not_false)
  have hslots := endQuiesces_quiesceSlots u.order.held { u with part := { u.part with state := .quiesced } }
  have hq : quietTest u = (quiesceSlots u).foldl (fun t n => endDone n u.order.held t)
      { u with part := { u.part with state := .quiesced } } := if_pos h
  rw [← hq] at hstate hquiet
  have hself : settle u = quietTest u := if_neg fun ha => PartState.noConfusion (hstate.symm.trans ha.2.1)
  rw [hself]
  exact ⟨hstate, hquiet.trans h.2.2, hq ▸ hslots⟩

/-- With the quiet condition not met the arbiter alone acts. -/
theorem settle_of_not_rest (h : ¬comesToRest u) : settle u = arbiterDecide u :=
  congrArg arbiterDecide (if_neg h)

theorem settle_part_of_not_rest (h : ¬comesToRest u) : (settle u).part = u.part := by
  rw [settle_of_not_rest h, arbiterDecide_frame]

theorem running_settle (u : State) : running (settle u) = running u := by
  rw [settle_frame]
  rfl

/-- R32: after the quiet test a QUIESCING part that runs does not meet the condition. -/
theorem quietLaw_settle (u : State) : QuietLaw (settle u) := by
  intro hr hst
  by_cases h : comesToRest u
  · exact PartState.noConfusion ((settle_of_rest h).1.symm.trans hst)
  · rw [settle_part_of_not_rest h] at hst
    rw [running_settle] at hr
    have hself : settle u = u :=
      (settle_of_not_rest h).trans (if_neg fun ha => PartState.noConfusion (hst.symm.trans ha.2.1))
    rw [hself, ← Bool.not_eq_true]
    exact fun hq => h ⟨hr, hst, hq⟩

theorem running_congr (h : t.power = s.power) : running t = running s := by
  unfold running
  rw [h]

theorem Ends.keepsLaws (h : Ends can s t) : KeepsLaws s t := by
  refine h.moves.keepsLaws fun hq => ?_
  cases h with
  | plain h =>
    intro hr hst
    rw [h.quiet not_false]
    exact hq (running_congr h.power ▸ hr) (h.state not_false ▸ hst)
  | busy _ hbusy => exact fun hr _ => hbusy hr
  | settled => exact quietLaw_settle _

theorem keepsLaws_latchArisen (h : KeepsLaws s t) (v : State) : KeepsLaws s (latchArisen v t) := by
  rw [latchArisen_frame]
  exact { h with }

/-! Reads. -/

/-- A read changes the data lines, the latches of the path, the snapshot, the flags and the last grant of the port. -/
theorem hostRead_frame (a : Addr) (l : Lanes) (s : State) : hostRead a l s = { s with
    bus := (hostRead a l s).bus, path := (hostRead a l s).path, flags := (hostRead a l s).flags
    port := (hostRead a l s).port, clock := { s.clock with snapshot := (hostRead a l s).clock.snapshot } } := by
  have hlive (v : State) (hv : v = { s with bus := v.bus }) : liveReadEffect a l v = { s with
      bus := (liveReadEffect a l v).bus, path := (liveReadEffect a l v).path, flags := (liveReadEffect a l v).flags
      port := (liveReadEffect a l v).port, clock := { s.clock with snapshot := (liveReadEffect a l v).clock.snapshot } } := by
    rw [hv]
    unfold liveReadEffect
    dsimp only
    repeat' split
    all_goals rfl
  unfold hostRead takenRead
  split
  · rfl
  · split
    · rfl
    · split
      · rfl
      · split
        · exact hlive _ rfl
        · unfold memoryRead
          dsimp only
          split <;> rfl

theorem hostRead_idle (a : Addr) (l : Lanes) (h : PortIdle s) : PortIdle (hostRead a l s) := by
  unfold hostRead takenRead
  split
  · exact h
  · split
    · exact h
    · split
      · exact h
      · split
        · unfold liveRead liveReadEffect
          dsimp only
          repeat' split
          all_goals exact h
        · unfold memoryRead
          dsimp only
          split <;> exact grantPort_idle .host s

theorem hostRead_keepsLaws (a : Addr) (l : Lanes) (s : State) : KeepsLaws s (hostRead a l s) := by
  have hport := hostRead_idle a l (s := s)
  rw [hostRead_frame] at hport ⊢
  exact { KeepsLaws.refl s with port := hport }

/-! Checks and requests that move the part state. -/

theorem completePlanCheck_ends (hc : can .state) (c : PlanCheck) (h : running s = true) :
    Ends can s (completePlanCheck c s) := by
  rcases completePlanCheck_cases c s with h' | ⟨-, u, hu, hm⟩
  · exact .plain h'
  · rw [hu]
    refine .settled ((enterServing_moves hc ?_).after (hm.mono fun _ => False.elim))
    rw [hm.power]
    exact ((running_iff s).1 h).2.1

theorem quiesce_ends (hc : ∀ x, can x) (s : State) :
    Ends can s (carryOut .quiesce (fun n t => settle (quiesce n t)) s) :=
  carryOut_ends fun _ _ hq hs _ => .settled (quiesce_moves hc hq hs)

theorem resume_ends (hc : ∀ x, can x) (s : State) : Ends can s (carryOut .resume (fun n t => settle (resume n t)) s) :=
  carryOut_ends fun n _ _ hs _ => .settled ((resume_moves (s := handedOver n s) hc n
    ((running_iff s).1 ((started_iff s).1 hs).1).2.1).after (handedOver_moves n s))

/-! Power and reset. -/

theorem calendarOrigin_law : CalendarLaw calendarOrigin := by
  unfold CalendarLaw
  decide

theorem clockAtPowerUp_law (h : ClockLaw s) (t : State) (ht : t.clock = clockAtPowerUp s.clock) : ClockLaw t := by
  unfold ClockLaw at h ⊢
  rw [ht]
  unfold clockAtPowerUp
  split
  · exact h
  · exact calendarOrigin_law

/-- R18, R24: internal state is as it stands after power-up and after RESET, with nothing queued and no census begun. -/
structure Cleared (t : State) : Prop where
  sched : t.sched = State.reset.sched
  order : t.order = State.reset.order
  tracker : t.tracker = State.reset.tracker
  plant : t.plant = State.reset.plant
  meter : t.meter = State.reset.meter
  close : t.close = State.reset.close
  writer : t.writer = State.reset.writer
  state : t.part.state = .starting
  step : t.part.startStep ≤ 9
  census : t.part.censusCursor = 0
  requests : t.part.queue = []
  progress : t.part.inProgress = []

theorem cleared_reset : Cleared State.reset :=
  ⟨rfl, rfl, rfl, rfl, rfl, rfl, rfl, rfl, by decide, rfl, rfl, rfl⟩

/-- A part whose internal state has been cleared meets every law of internal state. -/
theorem Cleared.laws (h : Cleared t) : QueueLaw t ∧ CapacityLaw t ∧ RingLaw t ∧ PlantLaw t ∧ CursorLaw t ∧ MeterLaw t ∧
    AckLaw t ∧ SlotLaw t ∧ QuietLaw t := by
  refine ⟨?_, ?_, (ringLaw_iff t).2 ⟨fun n r hr => ?_, ?_⟩, ?_, ?_, ?_, ackLaw_of_idle ?_ ?_, ?_, fun _ hst => ?_⟩
  · rw [QueueLaw, h.sched]; exact List.nodup_nil
  · rw [CapacityLaw, h.sched, h.order]; simp [State.reset]
  · cases n <;> rw [ringCopy, h.writer] at hr <;> cases hr
  · rw [ringCopy, ringCopy, h.writer]; exact Iff.rfl
  · rw [PlantLaw, h.plant]; simp [State.reset]
  · rw [CursorLaw, h.census, h.sched, h.plant, h.close]; simp [State.reset, Refresh.reset]
  · rw [MeterLaw, h.meter]; simp [State.reset]
  · rw [h.sched]; rfl
  · rw [h.tracker]; simp [State.reset]
  · rw [SlotLaw, h.requests, h.progress, h.close]
    exact ⟨List.nodup_nil, by simp, by simp, by simp [State.reset], fun _ => ⟨h.state, h.step⟩, fun _ _ => ⟨rfl, rfl⟩⟩
  · exact PartState.noConfusion (h.state.symm.trans hst)

theorem Cleared.keepsLaws (h : Cleared t) (hpending : t.pending = s.pending) (hmem : MemWf s.mem → MemWf t.mem)
    (hport : PortIdle t) (hclock : ClockLaw s → ClockLaw t) : KeepsLaws s t := by
  obtain ⟨hqueue, hcapacity, hring, hplant, hcursor, hmeter, hack, hslot, hquiet⟩ := h.laws
  exact ⟨hpending, hmem, fun _ => hport, fun _ => hqueue, fun _ => hcapacity, fun _ => hring, fun _ => hplant,
    fun _ => hcursor, fun _ => hmeter, hclock, fun _ => hack, fun _ => hslot, fun _ => hquiet⟩

/-- The power-up leaves the part cleared, in STARTING. -/
theorem powerUpPart_keepsLaws (s : State) : KeepsLaws s (powerUpPart s) := by
  have hclock (v : State) (hv : v.clock = { clockAtPowerUp s.clock with snapshot := none, ticks := [] }) :
      ClockLaw s → ClockLaw v := fun h => by
    have := clockAtPowerUp_law h { s with clock := clockAtPowerUp s.clock } rfl
    rw [ClockLaw, hv]
    exact this
  unfold powerUpPart enterStarting
  dsimp only
  split
  · exact Cleared.keepsLaws { cleared_reset with step := Nat.le_add_left 1 8 } rfl (fun h => h) ⟨rfl, rfl⟩ (hclock _ rfl)
  · exact Cleared.keepsLaws { cleared_reset with step := Nat.le_add_left 1 8 } rfl (fun h => h) ⟨rfl, rfl⟩ (hclock _ rfl)

theorem losePower_keepsLaws (s : State) : KeepsLaws s (losePower s) :=
  Cleared.keepsLaws { cleared_reset with step := Nat.zero_le 9 } rfl (fun h => h) ⟨rfl, rfl⟩ (fun h => h)

/-- R18: the record operation under way is finished, and internal state is cleared. -/
theorem assertReset_keepsLaws (s : State) : KeepsLaws s (assertReset s) := by
  unfold assertReset
  split
  · have h := finishGrant_moves { s with power := { s.power with resetting := true } }
    dsimp only
    generalize finishGrant { s with power := { s.power with resetting := true } } = v at h
    exact Cleared.keepsLaws { cleared_reset with step := Nat.zero_le 9 } h.pending h.mem ⟨rfl, rfl⟩ h.clock
  · exact KeepsLaws.refl s

/-- R24: the end of a reset begins start-up; a reset has held the part in STARTING. -/
theorem enterStarting_keepsLaws (cause : StartCause) (lost : Bool) (h : s.power.resetting = true) :
    KeepsLaws s (enterStarting cause lost s) := by
  have hslot (v : State) (hq : v.part.queue = s.part.queue) (hp : v.part.inProgress = s.part.inProgress)
      (hb : v.close = s.close) (hst : v.part.state = .starting) (hk : v.part.startStep = 1) : SlotLaw s → SlotLaw v :=
    fun ⟨hn, hqueue, hprogress, hbound, hx, hscan⟩ => by
      rw [SlotLaw, hq, hp, hb]
      exact ⟨hn, hqueue, hprogress, hbound, fun _ => ⟨hst, by omega⟩, fun _ _ => hscan (hx h).1 (hx h).2⟩
  unfold enterStarting
  dsimp only
  split
  · exact { KeepsLaws.refl s with
      port := fun _ => ⟨rfl, rfl⟩
      slot := hslot _ rfl rfl rfl rfl rfl
      quiet := fun _ _ hst => PartState.noConfusion hst }
  · exact { KeepsLaws.refl s with
      port := fun _ => ⟨rfl, rfl⟩
      slot := hslot _ rfl rfl rfl rfl rfl
      quiet := fun _ _ hst => PartState.noConfusion hst }

theorem dropHostRequest_idle (h : PortIdle s) : (dropHostRequest s.port).grant = none ∧ (dropHostRequest s.port).waiting = [] := by
  obtain ⟨hg, hw⟩ := h
  simp [dropHostRequest, hg, hw]

/-- R17: a power-fail warning keeps every law of the work it lets finish. -/
theorem assertPwrfail_keepsLaws (s : State) : KeepsLaws s (assertPwrfail s) := by
  unfold assertPwrfail
  dsimp only
  split
  · have h := finishGrant_moves (abandonWork { s with
      power := { s.power with pwrfailAsserted := true, failing := true }, port := dropHostRequest s.port })
    have hpower := h.power
    refine { h.keepsLaws (fun _ hr _ => ?_) with
      port := fun hp => h.port (dropHostRequest_idle hp)
      meter := fun ⟨_, hl, _⟩ => h.meter ⟨Nat.zero_le _, hl, (by decide : 0 < 4096)⟩
      quiet := fun _ hr _ => ?_ }
    all_goals
      obtain ⟨-, -, hfailing⟩ := (running_iff _).1 hr
      rw [hpower] at hfailing
      cases hfailing
  · exact { KeepsLaws.refl s with }

/-! Every command. -/

/-- Every command has a next state, and keeps every law and the queue of the commands that wait. -/
theorem exec_keepsLaws (c : Instr) (s : State) : ∃ t, exec c s = .next t ∧ KeepsLaws s t := by
  by_cases hc : standsApart c = false
  · obtain ⟨t, hexec, hends⟩ := exec_leavesTo hc s
    exact ⟨_, hexec, keepsLaws_latchArisen hends.keepsLaws s⟩
  · cases c <;> try exact absurd rfl hc
    case squashReasonRead l => exact ⟨_, rfl, hostRead_keepsLaws _ l s⟩
    case pairLowRead a l => exact ⟨_, rfl, hostRead_keepsLaws a l s⟩
    case pairHighRead a l => exact ⟨_, rfl, hostRead_keepsLaws a l s⟩
    case clusterFlagRead l => exact ⟨_, rfl, hostRead_keepsLaws _ l s⟩
    case clockSecondsRead l => exact ⟨_, rfl, hostRead_keepsLaws _ l s⟩
    case clockYearRead l => exact ⟨_, rfl, hostRead_keepsLaws _ l s⟩
    case planCheckComplete =>
      cases h : s.plan.check with
      | none => exact ⟨s, by simp only [exec, execPlanCheckComplete, h], KeepsLaws.refl s⟩
      | some k =>
        refine ⟨_, by simp only [exec, execPlanCheckComplete, h]; rfl, keepsLaws_latchArisen ?_ s⟩
        exact (Ends.ite (can := fun _ => True) (fun hr => completePlanCheck_ends trivial k hr) fun _ => Ends.refl s).keepsLaws
    case quiesce => exact ⟨_, rfl, keepsLaws_latchArisen (quiesce_ends (fun _ => trivial) s).keepsLaws s⟩
    case resume => exact ⟨_, rfl, keepsLaws_latchArisen (resume_ends (fun _ => trivial) s).keepsLaws s⟩
    case startupEnd =>
      refine ⟨_, rfl, keepsLaws_latchArisen (Ends.ite (can := fun _ => True) (fun h => ?_) fun _ => Ends.refl s).keepsLaws s⟩
      obtain ⟨⟨-, hreset, -⟩, -⟩ := (atStartStep_iff 10 s).1 h
      exact endStartup_ends trivial hreset
    case powerUp => exact ⟨_, rfl, powerUpPart_keepsLaws s⟩
    case pwrfail => exact ⟨_, rfl, keepsLaws_latchArisen (assertPwrfail_keepsLaws s) s⟩
    case powerFailPortIdle => exact ⟨_, rfl, by split <;> exact { KeepsLaws.refl s with }⟩
    case reset => exact ⟨_, rfl, assertReset_keepsLaws s⟩
    case resetEnd =>
      refine ⟨_, rfl, ?_⟩
      split
      · exact KeepsLaws.refl s
      · next ht =>
        split
        · next hv => exact enterStarting_keepsLaws _ _ (by simpa [takesTicks, hv] using ht)
        · exact KeepsLaws.refl s
    case pwrfailReturningHigh => exact ⟨_, rfl, { KeepsLaws.refl s with }⟩
    case powerLoss => exact ⟨_, rfl, losePower_keepsLaws s⟩
    case backupIntactLatchCleared => exact ⟨_, rfl, by split <;> exact { KeepsLaws.refl s with }⟩

/-- A step keeps every law. -/
theorem step_keepsLaws (h : step s = .next t) : KeepsLaws { s with pending := [] } { t with pending := [] } := by
  unfold step at h
  split at h
  · cases h
    exact KeepsLaws.refl _
  · next c rest _ =>
    obtain ⟨u, hu, hk⟩ := exec_keepsLaws c { s with pending := rest }
    cases hu.symm.trans h
    exact { hk with pending := rfl }

/-- Settles O1. -/
theorem stepRunsTheFrontCommand : Obligations.StepRunsTheFrontCommand := by
  unfold Obligations.StepRunsTheFrontCommand
  refine ⟨fun _ _ _ => rfl, fun s h => ?_⟩
  rw [step, h]

/-- Settles O2, by the law that every command keeps the commands that wait. -/
theorem everyCommandCompletesAndKeepsTheQueue : Obligations.EveryCommandCompletesAndKeepsTheQueue := by
  unfold Obligations.EveryCommandCompletesAndKeepsTheQueue
  intro c s
  obtain ⟨t, ht, hk⟩ := exec_keepsLaws c s
  exact ⟨t, ht, hk.pending⟩

/-- Settles O3: memory is empty, the Clock holds the origin, and internal state is cleared. -/
theorem resetStateKeepsTheLaws : Obligations.ResetStateKeepsTheLaws := by
  unfold Obligations.ResetStateKeepsTheLaws
  have hmem : MemWf State.reset.mem := ⟨List.Pairwise.nil, by simp [State.reset]⟩
  obtain ⟨hqueue, hcapacity, hring, hplant, hcursor, hmeter, hack, hslot, hquiet⟩ := cleared_reset.laws
  exact ⟨hmem, hring, hqueue, hcapacity, hmeter, calendarOrigin_law, hplant, hslot, hack, hcursor, hquiet, ⟨rfl, rfl⟩⟩

/-- Settles O4. -/
theorem memoryStaysCanonical : Obligations.MemoryStaysCanonical := by
  unfold Obligations.MemoryStaysCanonical
  exact fun s t h hstep => (step_keepsLaws hstep).mem h

/-- Settles O5. -/
theorem queueAndMapStayDisjoint : Obligations.QueueAndMapStayDisjoint := by
  unfold Obligations.QueueAndMapStayDisjoint
  exact fun s t h hstep => (step_keepsLaws hstep).queue h

/-- Settles O6. -/
theorem everyStepKeepsTheBounds : Obligations.EveryStepKeepsTheBounds := by
  unfold Obligations.EveryStepKeepsTheBounds
  exact ⟨⟨fun _ _ h hstep => (step_keepsLaws hstep).capacity h, fun _ _ h hstep => (step_keepsLaws hstep).ring h,
    fun _ _ h hstep => (step_keepsLaws hstep).plant h, fun _ _ h hstep => (step_keepsLaws hstep).slot h,
    fun _ _ h hstep => (step_keepsLaws hstep).ack h, fun _ _ h hstep => (step_keepsLaws hstep).cursor h,
    fun _ _ h hstep => (step_keepsLaws hstep).quiet h, fun _ _ h hstep => (step_keepsLaws hstep).port h,
    fun _ _ h hstep => (step_keepsLaws hstep).meter h⟩, fun _ _ h hstep => (step_keepsLaws hstep).clock h⟩

end Sys2Proof.Machine


/-! ## The part state (R24, R32) -/

namespace Sys2Proof.Machine

variable {can : Touch → Prop} {s t u : State}

/-- R32: the part goes to rest at a command that brings the quiet condition about. -/
def wentToRest (c : Instr) (s t : State) : Prop :=
  s.part.state = .quiescing ∧ t.part.state = .quiesced ∧ isQuiet t = true ∧ quiesceSlots t = [] ∧
    (isQuiet s = true ∨ canQuiet c = true)

/-- R32: what the part state can do at the end of a command that does not move it otherwise. -/
theorem Ends.state {c : Instr} (h : Ends (quietTouch c) s t) : t.part.state = s.part.state ∨
    running s = true ∧ wentToRest c s t := by
  cases h with
  | plain h => exact .inl (h.state not_false)
  | busy h _ => exact .inl (h.state fun hn => Touch.noConfusion hn.1)
  | settled h =>
    next u =>
    have hstate := h.state fun hn => Touch.noConfusion hn.1
    by_cases hr : comesToRest u
    · obtain ⟨hst, hquiet, hslots⟩ := settle_of_rest hr
      obtain ⟨hrun, hu, hq⟩ := hr
      refine .inr ⟨running_congr h.power ▸ hrun, hstate ▸ hu, hst, hquiet, hslots, ?_⟩
      by_cases hc : canQuiet c = true
      · exact .inr hc
      · exact .inl ((h.quiet fun hn => hc hn.2) ▸ hq)
    · exact .inl ((congrArg Part.state (settle_part_of_not_rest hr)).trans hstate)

theorem isQuiet_latchArisen (v : State) : isQuiet (latchArisen v t) = isQuiet t := by
  rw [latchArisen_frame]
  rfl

theorem quiesceSlots_latchArisen (v : State) : quiesceSlots (latchArisen v t) = quiesceSlots t := by
  rw [latchArisen_frame]
  rfl

theorem settle_state_of_ne (h : u.part.state ≠ .quiescing) : (settle u).part.state = u.part.state :=
  congrArg Part.state (settle_part_of_not_rest fun hr => h hr.2.1)

theorem enterServing_state (s : State) : (enterServing s).part.state = .serving := by
  rw [enterServing, openSweep_frame, wakeRefresh_frame]

/-- R21: a completed plan check takes the part from UNPLANNED to SERVING and moves it nowhere else. -/
theorem completePlanCheck_state (k : PlanCheck) (s : State) : (completePlanCheck k s).part.state = s.part.state ∨
    s.part.state = .unplanned ∧ (completePlanCheck k s).part.state = .serving := by
  rcases completePlanCheck_cases k s with h | ⟨hun, u, hu, -⟩
  · exact .inl (h.state not_false)
  · refine .inr ⟨hun, ?_⟩
    have hserving := enterServing_state u
    rw [hu, settle_state_of_ne (by rw [hserving]; simp), hserving]

/-- R24: STARTUP_END leaves STARTING by the working copy. -/
theorem endStartup_state (s : State) :
    (endStartup s).part.state = if s.plan.copy.isSome then .serving else .unplanned := by
  have hleave : (leaveStarting (latch (conditions s) s)).part.state = if s.plan.copy.isSome then .serving else .unplanned := by
    unfold leaveStarting
    show (if s.plan.copy.isSome then _ else _ : State).part.state = _
    split
    · exact enterServing_state _
    · rfl
  have hnoted := ((takeNoted_moves (can := fun _ => False) (leaveStarting (latch (conditions s) s))).state not_false).trans hleave
  rw [endStartup, settle_state_of_ne (by rw [hnoted]; split <;> simp), hnoted]

/-! Requests. -/

/-- A request row whose turn has come is its owner's; the part state is left alone by any other. -/
theorem carryOut_cases (r : Request) (owner : Nat → State → State) (s : State) :
    (carryOut r owner s).part.state = s.part.state ∨
      ∃ n, started s = true ∧ r.allowed s.part.state = true ∧ carryOut r owner s = owner n (handedOver n s) := by
  unfold carryOut takeRequest
  split
  · exact .inl rfl
  · next n rest hq =>
    split
    · next hs =>
      unfold gateRequest
      split
      · next ha => exact .inr ⟨n, hs.1, ha, rfl⟩
      · exact .inl rfl
    · exact .inl rfl

theorem giveUpCandidates_state (s : State) : (giveUpCandidates s).part.state = s.part.state :=
  (giveUpCandidates_moves (can := fun x => x = .quiet) rfl s).state (by simp)

theorem settle_quietTest (s : State) : settle (quietTest s) = settle s := by
  refine congrArg arbiterDecide ?_
  by_cases h : comesToRest s
  · have hstate : (quietTest s).part.state = .quiesced := by
      refine (congrArg (fun v : State => v.part.state) (if_pos (show _ ∧ _ from h))).trans ?_
      exact (endQuiesces_moves (can := fun _ => False) _ _ _).state not_false
    exact quietTest_eq_self (by rw [hstate]; simp)
  · have hself : quietTest s = s := if_neg h
    rw [hself, hself]

/-- R32: a running part that QUIESCE has made QUIESCING ends QUIESCED when the condition holds and QUIESCING when it does
not. -/
theorem settle_quiescing_state (hr : running u = true) (hst : u.part.state = .quiescing) :
    (settle u).part.state = (if isQuiet (settle u) then .quiesced else .quiescing) ∧
      ((settle u).part.state = .quiesced → quiesceSlots (settle u) = []) := by
  by_cases h : comesToRest u
  · obtain ⟨hstate, hquiet, hslots⟩ := settle_of_rest h
    exact ⟨by rw [hquiet, hstate]; rfl, fun _ => hslots⟩
  · have hstate := (congrArg Part.state (settle_part_of_not_rest h)).trans hst
    have hquiet := quietLaw_settle u ((running_settle u).trans hr) hstate
    exact ⟨by rw [hquiet, hstate]; rfl, fun hq => PartState.noConfusion (hq.symm.trans hstate)⟩

/-- R32: what QUIESCE, in its turn, makes of the part state. -/
theorem settle_quiesce_state (n : Nat) (hr : running s = true)
    (hne : s.part.state ≠ (settle (quiesce n s)).part.state) :
    (s.part.state = .serving ∧
      (settle (quiesce n s)).part.state = (if isQuiet (settle (quiesce n s)) then .quiesced else .quiescing) ∧
      ((settle (quiesce n s)).part.state = .quiesced → quiesceSlots (settle (quiesce n s)) = [])) ∨
    s.part.state = .quiescing ∧ (settle (quiesce n s)).part.state = .quiesced ∧ isQuiet (settle (quiesce n s)) = true ∧
      quiesceSlots (settle (quiesce n s)) = [] ∧ isQuiet s = true := by
  unfold quiesce at hne ⊢
  split at hne
  · next hst =>
    simp only [hst, settle_quietTest]
    refine .inl ⟨trivial, settle_quiescing_state ?_ (giveUpCandidates_state _)⟩
    exact (running_congr (giveUpCandidates_moves (can := fun _ => True) trivial _).power).trans hr
  · next hst =>
    simp only [hst]
    by_cases h : comesToRest (stayInProgress n .quiesce s)
    · obtain ⟨hstate, hquiet, hslots⟩ := settle_of_rest h
      exact .inr ⟨trivial, hstate, hquiet, hslots, h.2.2⟩
    · exact absurd (congrArg Part.state (settle_part_of_not_rest h)).symm hne
  · next hquiescing =>
    exact absurd (settle_state_of_ne (u := endDone n s.order.held s) hquiescing).symm hne

theorem settle_resume_state (n : Nat) (s : State) : (settle (resume n s)).part.state = .serving := by
  have hstate : (resume n s).part.state = .serving :=
    ((Moves.foldl (can := fun _ => False) (fun s m => endFailed_moves m .superseded s) _ _).state not_false).trans
      (enterServing_state s)
  rw [settle_state_of_ne (by rw [hstate]; simp), hstate]

theorem hostRead_part (a : Addr) (l : Lanes) (s : State) : (hostRead a l s).part = s.part := by rw [hostRead_frame]

theorem assertPwrfail_state (s : State) : (assertPwrfail s).part.state = s.part.state := by
  unfold assertPwrfail
  dsimp only
  split
  · have hnot (v : State) (hv : v.power.failing = true) : (finishGrant v).part.state = v.part.state := by
      unfold finishGrant
      split
      · next c hc =>
        rcases (buildFrame_ends (can := quietTouch .frameCompletion) ⟨rfl, rfl⟩ hc).state with h | h
        · exact h
        · obtain ⟨-, -, hfailing⟩ := (running_iff v).1 h.1
          exact absurd (hv.symm.trans hfailing) (by decide)
      · rfl
    exact hnot _ rfl
  · rfl

/-- Settles O7: each command moves the part state by its own event or leaves it to the quiet test. -/
theorem partStateMovesOnlyAsGiven : Obligations.PartStateMovesOnlyAsGiven := by
  unfold Obligations.PartStateMovesOnlyAsGiven
  intro c s t hexec hne
  by_cases hc : standsApart c = false
  · obtain ⟨u, hu, hends⟩ := exec_leavesTo hc s
    cases hu.symm.trans hexec
    rcases hends.state with h | h
    · exact absurd (h.symm.trans (congrArg Part.state (latchArisen_part s u).symm)) hne
    · obtain ⟨-, hs, ht, hquiet, hslots, hcause⟩ := h
      refine .inr (.inr (.inr (.inr (.inl ⟨hs, ?_, (isQuiet_latchArisen s).trans hquiet,
        (quiesceSlots_latchArisen s).trans hslots, hcause⟩))))
      rw [latchArisen_part]
      exact ht
  · cases c <;> try exact absurd rfl hc
    case squashReasonRead l => cases hexec; exact absurd (congrArg Part.state (hostRead_part _ l s)).symm hne
    case pairLowRead a l => cases hexec; exact absurd (congrArg Part.state (hostRead_part a l s)).symm hne
    case pairHighRead a l => cases hexec; exact absurd (congrArg Part.state (hostRead_part a l s)).symm hne
    case clusterFlagRead l => cases hexec; exact absurd (congrArg Part.state (hostRead_part _ l s)).symm hne
    case clockSecondsRead l => cases hexec; exact absurd (congrArg Part.state (hostRead_part _ l s)).symm hne
    case clockYearRead l => cases hexec; exact absurd (congrArg Part.state (hostRead_part _ l s)).symm hne
    case planCheckComplete =>
      cases h : s.plan.check with
      | none =>
        simp only [exec, execPlanCheckComplete, h] at hexec
        cases hexec
        exact absurd rfl hne
      | some k =>
        simp only [exec, execPlanCheckComplete, h] at hexec
        cases hexec
        rw [latchArisen_part] at hne ⊢
        split at hne
        · next hr =>
          rw [if_pos hr]
          rcases completePlanCheck_state k s with h | ⟨hun, hserving⟩
          · exact absurd h.symm hne
          · exact .inr (.inr (.inl ⟨hun, hserving, rfl⟩))
        · exact absurd rfl hne
    case quiesce =>
      cases hexec
      rw [latchArisen_part] at hne ⊢
      rw [isQuiet_latchArisen, quiesceSlots_latchArisen]
      rcases carryOut_cases .quiesce (fun n t => settle (quiesce n t)) s with h | ⟨n, hs, -, h⟩
      · exact absurd h.symm hne
      · rw [h] at hne ⊢
        have hrun : running (handedOver n s) = true := ((started_iff s).1 hs).1
        rcases settle_quiesce_state (s := handedOver n s) n hrun hne with ⟨hst, hend, hslots⟩ | ⟨hst, hq, hquiet, hslots, hs⟩
        · exact .inr (.inr (.inr (.inl ⟨hst, rfl, hend, hslots⟩)))
        · exact .inr (.inr (.inr (.inr (.inl ⟨hst, hq, hquiet, hslots, .inl hs⟩))))
    case resume =>
      cases hexec
      rw [latchArisen_part] at hne ⊢
      rcases carryOut_cases .resume (fun n t => settle (resume n t)) s with h | ⟨n, -, ha, h⟩
      · exact absurd h.symm hne
      · rw [h, settle_resume_state]
        have hfrom : s.part.state = .quiescing ∨ s.part.state = .quiesced := by simpa [Request.allowed] using ha
        exact .inr (.inr (.inr (.inr (.inr ⟨hfrom, rfl, rfl⟩))))
    case startupEnd =>
      cases hexec
      rw [latchArisen_part] at hne ⊢
      split at hne
      · next h =>
        obtain ⟨-, hstate, -⟩ := (atStartStep_iff 10 s).1 h
        rw [if_pos h]
        exact .inr (.inl ⟨hstate, rfl, endStartup_state s⟩)
      · exact absurd rfl hne
    case powerUp =>
      cases hexec
      refine .inl ⟨?_, by simp⟩
      unfold powerUpPart enterStarting
      dsimp only
      split <;> rfl
    case pwrfail =>
      cases hexec
      rw [latchArisen_part] at hne
      exact absurd (assertPwrfail_state s).symm hne
    case powerFailPortIdle =>
      cases hexec
      refine absurd ?_ hne
      split <;> rfl
    case reset =>
      cases hexec
      unfold assertReset at hne ⊢
      split at hne
      · next hv => exact .inl ⟨by rw [if_pos hv]; rfl, by simp⟩
      · exact absurd rfl hne
    case resetEnd =>
      cases hexec
      split at hne
      · exact absurd rfl hne
      · next ht =>
        split at hne
        · next hv =>
          refine .inl ⟨?_, by simp⟩
          rw [if_neg ht, if_pos hv]
          unfold enterStarting
          dsimp only
          split <;> rfl
        · exact absurd rfl hne
    case pwrfailReturningHigh => cases hexec; exact absurd rfl hne
    case powerLoss => cases hexec; exact .inl ⟨rfl, by simp⟩
    case backupIntactLatchCleared =>
      cases hexec
      refine absurd ?_ hne
      split <;> rfl

end Sys2Proof.Machine


/-! ## The cluster flags (R177 to R180) -/

namespace Sys2Proof.Machine

variable {can : Touch → Prop} {s t u : State}

/-! The flag word. -/

theorem mask_getLsbD (f g : Flag) : f.mask.getLsbD g.bit = decide (g = f) := by cases f <;> cases g <;> decide

theorem mem_allFlags (f : Flag) : f ∈ allFlags := by cases f <;> decide

theorem foldl_mask_getLsbD (c : Flag → Bool) (f : Flag) (l : List Flag) : ∀ w : Word,
    (l.foldl (fun w f => if c f then w ||| f.mask else w) w).getLsbD f.bit =
      (w.getLsbD f.bit || (decide (f ∈ l) && c f)) := by
  induction l with
  | nil => simp
  | cons g l ih =>
    intro w
    rw [List.foldl_cons, ih]
    by_cases hg : f = g
    · subst hg
      cases c f <;> simp [BitVec.getLsbD_or, mask_getLsbD]
    · cases c g <;> simp [BitVec.getLsbD_or, mask_getLsbD, hg]

/-- The bit of a flag in the word of conditions is the flag's condition. -/
theorem conditions_getLsbD (s : State) (f : Flag) : (conditions s).getLsbD f.bit = condition s f := by
  rw [conditions, foldl_mask_getLsbD]
  simp [mem_allFlags]

theorem bit_lt (f : Flag) : f.bit < 16 := by cases f <;> decide

/-- Every bit of the word is a flag's. -/
theorem exists_flag_of_lt {k : Nat} (h : k < 16) : ∃ f : Flag, f.bit = k := by
  have hall : ∀ k : Fin 16, ∃ f ∈ allFlags, f.bit = k.val := by decide
  obtain ⟨f, -, hf⟩ := hall ⟨k, h⟩
  exact ⟨f, hf⟩

theorem ne_zero_iff_exists_flag (w : Word) : w ≠ 0 ↔ ∃ f : Flag, w.getLsbD f.bit = true := by
  refine ⟨fun h => ?_, fun ⟨f, hf⟩ h => by simp [h] at hf⟩
  by_contra hn
  refine h (BitVec.eq_of_getLsbD_eq fun k hk => ?_)
  obtain ⟨f, rfl⟩ := exists_flag_of_lt hk
  simpa using fun hf => hn ⟨f, hf⟩

/-! Flags stay latched. -/

theorem hostRead_flags {a : Addr} (h : a.toNat ≠ 0x06) (l : Lanes) (s : State) : (hostRead a l s).flags = s.flags := by
  unfold hostRead takenRead liveRead liveReadEffect memoryRead
  dsimp only
  repeat' split
  all_goals rfl

theorem isPairLow_ne_flags {a : Nat} (h : isPairLow a = true) : a ≠ 0x06 := by rintro rfl; cases h

theorem isPairHigh_ne_flags {a : Nat} (h : isPairHigh a = true) : a ≠ 0x06 := by rintro rfl; cases h

/-- Every flag stays latched. -/
def FlagsStay (s t : State) : Prop := ∀ k, s.flags.getLsbD k = true → t.flags.getLsbD k = true

theorem FlagsStay.latchArisen (h : FlagsStay s t) (v : State) : FlagsStay s (latchArisen v t) :=
  fun k hk => (latchArisen_moves (can := fun _ => True) v t).flags k (h k hk)

theorem Ends.flagsStay (h : Ends can s t) : FlagsStay s t := h.moves.flags

theorem flagsStay_of_eq (h : t.flags = s.flags) : FlagsStay s t := fun _ hk => h.symm ▸ hk

/-- A flag already latched stays so at every command but a read of the flag word, a power-up, a reset and the loss of
power. -/
theorem exec_flagsStay {c : Instr} (hwf : c.wellFormed = true) (hexec : exec c s = .next t)
    (hread : ∀ l, c ≠ .clusterFlagRead l) (hup : c ≠ .powerUp) (hreset : c ≠ .reset) (hloss : c ≠ .powerLoss) :
    FlagsStay s t := by
  by_cases hc : standsApart c = false
  · obtain ⟨u, hu, hends⟩ := exec_leavesTo hc s
    cases hu.symm.trans hexec
    exact hends.flagsStay.latchArisen s
  · cases c <;> try exact absurd rfl hc
    case squashReasonRead l => cases hexec; exact flagsStay_of_eq (hostRead_flags (by decide) l s)
    case pairLowRead a l => cases hexec; exact flagsStay_of_eq (hostRead_flags (isPairLow_ne_flags hwf) l s)
    case pairHighRead a l => cases hexec; exact flagsStay_of_eq (hostRead_flags (isPairHigh_ne_flags hwf) l s)
    case clusterFlagRead l => exact absurd rfl (hread l)
    case clockSecondsRead l => cases hexec; exact flagsStay_of_eq (hostRead_flags (by decide) l s)
    case clockYearRead l => cases hexec; exact flagsStay_of_eq (hostRead_flags (by decide) l s)
    case planCheckComplete =>
      cases h : s.plan.check with
      | none =>
        simp only [exec, execPlanCheckComplete, h] at hexec
        cases hexec
        exact flagsStay_of_eq rfl
      | some k =>
        simp only [exec, execPlanCheckComplete, h] at hexec
        cases hexec
        exact (Ends.ite (can := fun _ => True) (fun hr => completePlanCheck_ends trivial k hr)
          fun _ => Ends.refl s).flagsStay.latchArisen s
    case quiesce => cases hexec; exact (quiesce_ends (fun _ => trivial) s).flagsStay.latchArisen s
    case resume => cases hexec; exact (resume_ends (fun _ => trivial) s).flagsStay.latchArisen s
    case startupEnd =>
      cases hexec
      refine (Ends.ite (can := fun _ => True) (fun h => ?_) fun _ => Ends.refl s).flagsStay.latchArisen s
      obtain ⟨⟨-, hreset, -⟩, -⟩ := (atStartStep_iff 10 s).1 h
      exact endStartup_ends trivial hreset
    case powerUp => exact absurd rfl hup
    case pwrfail =>
      cases hexec
      refine FlagsStay.latchArisen ?_ s
      unfold assertPwrfail
      dsimp only
      split
      · exact (finishGrant_moves (abandonWork { s with
          power := { s.power with pwrfailAsserted := true, failing := true }, port := dropHostRequest s.port })).flags
      · exact flagsStay_of_eq rfl
    case powerFailPortIdle => cases hexec; exact flagsStay_of_eq (by split <;> rfl)
    case reset => exact absurd rfl hreset
    case resetEnd =>
      cases hexec
      refine flagsStay_of_eq ?_
      unfold enterStarting
      dsimp only
      repeat' split
      all_goals rfl
    case pwrfailReturningHigh => cases hexec; exact flagsStay_of_eq rfl
    case powerLoss => exact absurd rfl hloss
    case backupIntactLatchCleared => cases hexec; exact flagsStay_of_eq (by split <;> rfl)

/-! Conditions that arise. -/

theorem hostRead_conditions (a : Addr) (l : Lanes) (s : State) : conditions (hostRead a l s) = conditions s := by
  rw [hostRead_frame]
  exact conditions_congr rfl rfl rfl rfl rfl rfl rfl rfl rfl rfl rfl rfl rfl rfl rfl

/-- A command leaves the part in STARTING, or changes no condition, or latches those that arose. -/
theorem exec_latches {c : Instr} (hexec : exec c s = .next t) :
    t.part.state = .starting ∨ conditions t = conditions s ∨ ∃ u, t = latchArisen s u := by
  by_cases hc : standsApart c = false
  · obtain ⟨u, hu, -⟩ := exec_leavesTo hc s
    cases hu.symm.trans hexec
    exact .inr (.inr ⟨u, rfl⟩)
  · cases c <;> try exact absurd rfl hc
    case squashReasonRead l => cases hexec; exact .inr (.inl (hostRead_conditions _ l s))
    case pairLowRead a l => cases hexec; exact .inr (.inl (hostRead_conditions a l s))
    case pairHighRead a l => cases hexec; exact .inr (.inl (hostRead_conditions a l s))
    case clusterFlagRead l => cases hexec; exact .inr (.inl (hostRead_conditions _ l s))
    case clockSecondsRead l => cases hexec; exact .inr (.inl (hostRead_conditions _ l s))
    case clockYearRead l => cases hexec; exact .inr (.inl (hostRead_conditions _ l s))
    case planCheckComplete =>
      cases h : s.plan.check <;> simp only [exec, execPlanCheckComplete, h] at hexec <;> cases hexec
      · exact .inr (.inl rfl)
      · exact .inr (.inr ⟨_, rfl⟩)
    case quiesce => cases hexec; exact .inr (.inr ⟨_, rfl⟩)
    case resume => cases hexec; exact .inr (.inr ⟨_, rfl⟩)
    case startupEnd => cases hexec; exact .inr (.inr ⟨_, rfl⟩)
    case powerUp =>
      cases hexec
      left
      unfold powerUpPart enterStarting
      dsimp only
      split <;> rfl
    case pwrfail => cases hexec; exact .inr (.inr ⟨_, rfl⟩)
    case powerFailPortIdle => cases hexec; exact .inr (.inl (by split <;> rfl))
    case reset =>
      cases hexec
      unfold assertReset
      split
      · exact .inl rfl
      · exact .inr (.inl rfl)
    case resetEnd =>
      cases hexec
      split
      · exact .inr (.inl rfl)
      · split
        · left
          unfold enterStarting
          dsimp only
          split <;> rfl
        · exact .inr (.inl rfl)
    case pwrfailReturningHigh => cases hexec; exact .inr (.inl rfl)
    case powerLoss => cases hexec; exact .inl rfl
    case backupIntactLatchCleared => cases hexec; exact .inr (.inl (by split <;> rfl))

/-- R177: outside STARTING a condition that arises is latched. -/
theorem latchArisen_latches {f : Flag} (ht : u.part.state ≠ .starting) (hs : condition s f = false)
    (hu : condition u f = true) : (latchArisen s u).flags.getLsbD f.bit = true := by
  rw [latchArisen_flags, if_neg ht]
  rw [BitVec.getLsbD_or, BitVec.getLsbD_and, BitVec.getLsbD_not, conditions_getLsbD, conditions_getLsbD, hs, hu,
    decide_eq_true (bit_lt f)]
  exact Bool.or_true _

theorem condition_latchArisen (f : Flag) : condition (latchArisen s u) f = condition u f := by
  rw [latchArisen_frame]
  cases f <;> rfl

/-- R180: the ALERT output, flag by flag. -/
theorem alertAsserted_iff (s : State) : alertAsserted s = true ↔
    ∃ f : Flag, s.flags.getLsbD f.bit = true ∧ (alertMask s).getLsbD f.bit = true := by
  rw [alertAsserted, decide_eq_true_eq, ne_zero_iff_exists_flag]
  simp [BitVec.getLsbD_and]

theorem alertMask_getLsbD (s : State) (f : Flag) : (alertMask s).getLsbD f.bit = true ↔
    s.plan.copy = none ∨ ∃ p, s.plan.copy = some p ∧ p.alertMask.getLsbD f.bit = true := by
  unfold alertMask
  cases h : s.plan.copy with
  | none => cases f <;> simp <;> decide
  | some p => simp

/-- Settles O8. -/
theorem flagsLatchAndDriveAlert : Obligations.FlagsLatchAndDriveAlert := by
  unfold Obligations.FlagsLatchAndDriveAlert
  refine ⟨fun c s t hwf hexec hread hup hreset hloss f => exec_flagsStay hwf hexec hread hup hreset hloss f.bit,
    fun c s t f _ hexec _ ht hsf htf => ?_, fun s => ?_⟩
  · rcases exec_latches hexec with hstarting | hcond | ⟨u, rfl⟩
    · exact absurd hstarting ht
    · rw [← conditions_getLsbD, hcond, conditions_getLsbD, hsf] at htf
      cases htf
    · rw [condition_latchArisen] at htf
      rw [latchArisen_part] at ht
      exact latchArisen_latches ht hsf htf
  · rw [alertAsserted_iff]
    simp only [alertMask_getLsbD]

end Sys2Proof.Machine


/-! ## The host path (chapter 1) -/

namespace Sys2Proof.Machine

variable {s t u : State}

/-! Which branch of the write decision a write takes (R4). -/

theorem hostWrite_dead {l : Lanes} (h : running s = false ∨ noLanes l = true) (a : Addr) (d : Word) :
    hostWrite a l d s = s := if_pos h.symm

theorem hostWrite_taken {l : Lanes} (hr : running s = true) (hl : noLanes l = false) (a : Addr) (d : Word) :
    hostWrite a l d s = writeDecision a l d s := if_neg (by simp [hr, hl])

theorem writeDecision_live {a : Addr} (h : inLiveBlock a.toNat = true) (l : Lanes) (d : Word) (s : State) :
    writeDecision a l d s = liveWrite a l d s := if_pos h

theorem inLiveBlock_of_headEnd {a : Nat} (h : inHeadEndRecord a = true) : inLiveBlock a = false := by
  simp only [inHeadEndRecord, Bool.and_eq_true, decide_eq_true_eq] at h
  exact decide_eq_false (by omega)

theorem writeDecision_headEnd {a : Addr} (h : inHeadEndRecord a.toNat = true) (l : Lanes) (d : Word) (s : State) :
    writeDecision a l d s = squash a .headEndRecord s := by
  simp [writeDecision, h, inLiveBlock_of_headEnd h]

theorem inLiveBlock_of_wordClass {a : Nat} (h : wordClass a ≠ .live) : inLiveBlock a = false := by
  refine decide_eq_false fun ha => h ?_
  rw [wordClass, if_pos ha]

theorem writeDecision_plain {a : Addr} (hh : inHeadEndRecord a.toNat = false) (hp : wordClass a.toNat = .plain) (l : Lanes)
    (d : Word) (s : State) : writeDecision a l d s = plainWrite a l d s := by
  simp [writeDecision, inLiveBlock_of_wordClass (a := a.toNat) (by simp [hp]), hh, hp]

theorem writeDecision_starting {a : Addr} (hlive : inLiveBlock a.toNat = false) (hh : inHeadEndRecord a.toNat = false)
    (hp : wordClass a.toNat ≠ .plain) (hs : s.part.state = .starting) (l : Lanes) (d : Word) :
    writeDecision a l d s = squash a .starting s := by
  simp [writeDecision, hlive, hh, hp, hs]

theorem writeDecision_part {a : Addr} (hh : inHeadEndRecord a.toNat = false) (hp : wordClass a.toNat = .part)
    (hs : s.part.state ≠ .starting) (l : Lanes) (d : Word) : writeDecision a l d s = squash a .partWord s := by
  simp [writeDecision, inLiveBlock_of_wordClass (a := a.toNat) (by simp [hp]), hh, hp, hs]

theorem writeDecision_watched {a : Addr} (hh : inHeadEndRecord a.toNat = false) (hw : wordClass a.toNat = .watched)
    (hs : s.part.state ≠ .starting) (l : Lanes) (d : Word) :
    writeDecision a l d s = observedWrite a (mergeLanes l (rd s a.toNat) d) s := by
  simp [writeDecision, inLiveBlock_of_wordClass (a := a.toNat) (by simp [hw]), hh, hw, hs]

/-! What a host write to memory changes. -/

theorem hostStore_wordsKept (s : State) (a : Nat) (l : Lanes) (w : Word) : WordsKept [a] s (hostStore s a l w) :=
  fun k hk => rd_hostStore_other s a k l w (by simpa using hk)

theorem hostStore_port {s : State} (h : PortIdle s) (a : Nat) (l : Lanes) (w : Word) :
    (hostStore s a l w).port = { s.port with last := some .host } :=
  congrArg State.port (grantPort_eq (s := { s with mem := memSetLanes s.mem a l w }) .host h)

theorem hostStore_frame (s : State) (a : Nat) (l : Lanes) (w : Word) :
    hostStore s a l w = { s with mem := (hostStore s a l w).mem, port := (hostStore s a l w).port } := rfl

theorem hostStore_conditions (s : State) (a : Nat) (l : Lanes) (w : Word) : conditions (hostStore s a l w) = conditions s := rfl

theorem exec_hostWrite (a : Addr) (l : Lanes) (d : Word) (s : State) :
    exec (.hostWrite a l d) s = .next (latchArisen s (hostWrite a l d s)) := rfl

/-- A host write that changes no condition. -/
theorem exec_hostWrite_of_conditions {a : Addr} {l : Lanes} {d : Word} (h : hostWrite a l d s = t)
    (hc : conditions t = conditions s) : exec (.hostWrite a l d) s = .next t := by
  rw [exec_hostWrite, h, latchArisen_eq_self hc]

theorem squash_conditions (a : Addr) (r : SquashReason) (s : State) : conditions (squash a r s) = conditions s := rfl

theorem plainWrite_rd_other (a : Addr) (l : Lanes) (d : Word) (s : State) {k : Nat} (hk : k ≠ a.toNat) :
    rd (plainWrite a l d s) k = rd s k := by
  rw [plainWrite, rd_hostStore_other _ _ _ _ _ hk]
  split
  · unfold advancePlanCheck
    split <;> rfl
  · rfl

theorem liveWrite_rd {a : Addr} (h : a.toNat ≠ 0x0A) (l : Lanes) (d : Word) (s : State) (k : Nat) :
    rd (liveWrite a l d s) k = rd s k := by
  unfold liveWrite
  rw [if_neg h]
  split
  · split <;> rfl
  · rfl

/-- Settles O9: in STARTING a write lands in a PLAIN word, or in the live block, or is squashed. -/
theorem startingHostWritesReachPlainWordsOnly : Obligations.StartingHostWritesReachPlainWordsOnly := by
  unfold Obligations.StartingHostWritesReachPlainWordsOnly
  intro a l d s t hs ha hexec b hb
  cases (exec_hostWrite a l d s).symm.trans hexec
  show rd (latchArisen s _) b = _
  rw [latchArisen_frame]
  show rd (hostWrite a l d s) b = rd s b
  by_cases hdead : running s = false ∨ noLanes l = true
  · rw [hostWrite_dead hdead]
  · obtain ⟨hr, hl⟩ := not_or.1 hdead
    rw [hostWrite_taken (by simpa using hr) (by simpa using hl)]
    by_cases hlive : inLiveBlock a.toNat = true
    · rw [writeDecision_live hlive, liveWrite_rd ha]
    · by_cases hh : inHeadEndRecord a.toNat = true
      · rw [writeDecision_headEnd hh]
        rfl
      · by_cases hp : wordClass a.toNat = .plain
        · rw [writeDecision_plain (by simpa using hh) hp, plainWrite_rd_other]
          rintro rfl
          exact hb hp
        · rw [writeDecision_starting (by simpa using hlive) (by simpa using hh) hp hs]
          rfl

/-! Dead and squashed accesses. -/

theorem hostRead_dead {l : Lanes} (hv : s.power.vcc = true) (h : running s = false ∨ noLanes l = true) (a : Addr) :
    hostRead a l s = drive s l 0xFFFF := by
  rw [hostRead, if_neg (by simp [hv]), if_pos h.symm]

/-- R5: what a squashed write leaves. -/
theorem exec_hostWrite_squashed {a : Addr} {l : Lanes} {d : Word} {r : SquashReason} (hr : running s = true)
    (hl : noLanes l = false) (h : writeDecision a l d s = squash a r s) :
    ∃ t, exec (.hostWrite a l d) s = .next t ∧ t.flags = s.flags ||| 0x0100 ∧
      (s.path.squash = none → t.path.squash = some (a, r)) ∧
      (s.path.squash ≠ none → t.path.squash = s.path.squash) ∧
      t = { s with flags := t.flags, path := { s.path with squash := t.path.squash } } := by
  refine ⟨squash a r s, exec_hostWrite_of_conditions ((hostWrite_taken hr hl a d).trans h) (squash_conditions a r s), rfl,
    fun hn => ?_, fun hn => ?_, rfl⟩
  · simp [squash, hn]
  · obtain ⟨q, hq⟩ := Option.ne_none_iff_exists'.1 hn
    simp [squash, hq]

theorem liveWrite_readOnly {a : Addr} (ha : a.toNat ≠ 0x0A) (hf : clockFieldAt a.toNat = none) (l : Lanes) (d : Word)
    (s : State) : liveWrite a l d s = squash a .readOnlyLive s := by
  simp [liveWrite, ha, hf]

theorem clockFieldAt_ne_control {a : Nat} (hf : clockFieldAt a ≠ none) : a ≠ 0x0A := by
  rintro rfl
  exact hf rfl

theorem liveWrite_clockWord {a : Addr} {f : ClockField} (hf : clockFieldAt a.toNat = some f) (l : Lanes) (d : Word)
    (s : State) : liveWrite a l d s = if s.clock.set then storeClockWord f l d s else squash a .clockNotHeld s := by
  have ha := clockFieldAt_ne_control (a := a.toNat) (by simp [hf])
  simp [liveWrite, ha, hf]

/-- Settles O10, by the branch of the write decision of each reason. -/
theorem deadAndSquashedAccesses : Obligations.DeadAndSquashedAccesses := by
  unfold Obligations.DeadAndSquashedAccesses
  refine ⟨fun a l d s hv hdead => ⟨?_, ?_, ?_⟩, fun a l d s r hr hl hreason => exec_hostWrite_squashed hr hl ?_⟩
  · exact exec_hostWrite_of_conditions (hostWrite_dead hdead a d) rfl
  · exact congrArg Host.Outcome.next (hostRead_dead hv hdead a)
  · exact congrArg Host.Outcome.next (hostRead_dead hv hdead (addrOf 0x06))
  · rcases hreason with ⟨hlive, ha, hf, rfl⟩ | ⟨hlive, hf, hset, rfl⟩ | ⟨hh, rfl⟩ | ⟨hlive, hh, hp, hs, rfl⟩ | ⟨hh, hp, hs, rfl⟩
    · rw [writeDecision_live hlive, liveWrite_readOnly ha hf]
    · obtain ⟨f, hf⟩ := Option.ne_none_iff_exists'.1 hf
      rw [writeDecision_live hlive, liveWrite_clockWord hf, hset]
      rfl
    · exact writeDecision_headEnd hh l d s
    · exact writeDecision_starting hlive hh hp hs l d
    · exact writeDecision_part hh hp hs l d

/-! Writes that land. -/

theorem advancePlanCheck_of_none (h : s.plan.check = none) : advancePlanCheck s = s := by
  unfold advancePlanCheck
  split
  · rfl
  · next hk => cases h.symm.trans hk

/-- R9: a PLAIN write that no running check reads. -/
theorem plainWrite_eq {a : Addr} (h : s.plan.check = none ∨ isPlanWord a.toNat = false) (l : Lanes) (d : Word) :
    plainWrite a l d s = hostStore s a.toNat l d := by
  unfold plainWrite
  rcases h with h | h
  · rw [advancePlanCheck_of_none h, ite_self]
  · rw [if_neg (by simp [h])]

theorem wordClass_planWord {a : Nat} (h : isPlanWord a = true) : wordClass a = .plain ∧ inHeadEndRecord a = false := by
  simp only [isPlanWord, Bool.and_eq_true, decide_eq_true_eq] at h
  obtain ⟨hlo, hhi⟩ := h
  have hcheck : planCheckWord = 0x7F := rfl
  constructor
  · rw [wordClass, if_neg (by omega), if_pos (by omega), if_neg (by omega)]
  · exact Bool.and_eq_false_imp.2 fun ha => by simp at ha; omega

/-- The merged word of a WATCHED write that lands in whole. -/
theorem rd_hostStore_merged (s : State) (a : Nat) (l : Lanes) (d : Word) (hm : MemWf s.mem) :
    rd (hostStore s a bothLanes (mergeLanes l (rd s a) d)) a = mergeLanes l (rd s a) d := by
  rw [rd_hostStore_same _ _ _ _ hm, mergeLanes_both]

/-- R7, R8, R108: the observed words with no row of their own. -/
def hasNoRow (a : Nat) : Prop :=
  (∃ k w, k < 8 ∧ w < 6 ∧ a = slotWord k w) ∨ (∃ i w, 1 ≤ i ∧ i < 256 ∧ (w = 2 ∨ w = 3) ∧ a = elementWord i w) ∨
    ∃ i w, i < 4096 ∧ (w = 4 ∨ w = 5) ∧ a = subscriberWord i w

theorem hasNoRow_class {a : Nat} (h : hasNoRow a) : wordClass a = .watched ∧ inHeadEndRecord a = false := by
  have h₁ : planCheckWord = 0x7F := rfl
  have h₂ : commitWord = 0x580 := rfl
  have hplace : (0xA0 ≤ a ∧ a < 0x120 ∧ a % 16 < 6) ∨ (0x1010 ≤ a ∧ a < 0x2000 ∧ (a % 16 = 2 ∨ a % 16 = 3)) ∨
      (0x10000 ≤ a ∧ a < 0x30000 ∧ a % 32 < 7) := by
    rcases h with ⟨k, w, hk, hw, rfl⟩ | ⟨i, w, hi, hi', hw, rfl⟩ | ⟨i, w, hi, hw, rfl⟩
    · simp only [slotWord]; omega
    · simp only [elementWord]; omega
    · simp only [subscriberWord]; omega
  refine ⟨?_, Bool.and_eq_false_imp.2 fun ha => ?_⟩
  · rcases hplace with ⟨hlo, hhi, hw⟩ | ⟨hlo, hhi, hw⟩ | ⟨hlo, hhi, hw⟩
    · unfold wordClass
      simp (disch := omega) only [if_pos, if_neg]
    · unfold wordClass
      simp (disch := omega) only [if_pos, if_neg]
    · exact Laws.Operands.wordClass_watched hlo hhi hw
  · simp only [decide_eq_true_eq] at ha
    exact decide_eq_false (by omega)

theorem observedWrite_hasNoRow {a : Addr} (h : hasNoRow a.toNat) (w : Word) (s : State) :
    observedWrite a w s = hostStore s a.toNat bothLanes w := by
  have h₁ : planCheckWord = 0x7F := rfl
  have h₂ : commitWord = 0x580 := rfl
  have h₃ : logTailWord = 0x121 := rfl
  have h₄ : journalTailWord = 0x124 := rfl
  unfold observedWrite
  dsimp only
  rcases h with ⟨k, j, hk, hj, ha⟩ | ⟨i, j, hi, hi', hj, ha⟩ | ⟨i, j, hi, hj, ha⟩
  · simp only [slotWord] at ha
    simp (disch := omega) only [if_pos, if_neg]
  · simp only [elementWord] at ha
    simp (disch := omega) only [if_pos, if_neg]
  · simp only [subscriberWord] at ha
    have hrow : ¬(a.toNat % 32 = 3 ∨ a.toNat % 32 = 6) := by omega
    simp (disch := omega) only [if_neg]
    rw [writeSubscriberWord, if_neg (by omega), if_neg (by omega)]
    simp (disch := omega) only [if_neg]

/-- Settles O11: the write lands in one access of the host, and a running check has read what it has read. -/
theorem plainWritesLand : Obligations.PlainWritesLand := by
  unfold Obligations.PlainWritesLand
  refine ⟨fun a l d s hm hr hl hp hh hcheck => ?_, fun a l d s k hm hr hl hp hcheck => ?_,
    fun a l d s hm hr hl hs hplace => ?_⟩
  · have hwrite := (hostWrite_taken hr hl a d).trans ((writeDecision_plain hh hp l d s).trans (plainWrite_eq hcheck l d))
    exact ⟨hostStore s a.toNat l d, exec_hostWrite_of_conditions hwrite rfl, rd_hostStore_same _ _ _ _ hm,
      hostStore_wordsKept _ _ _ _, fun hi => hostStore_port hi _ _ _, rfl⟩
  · obtain ⟨hclass, hh⟩ := wordClass_planWord hp
    have hwrite := (hostWrite_taken hr hl a d).trans (writeDecision_plain hh hclass l d s)
    rw [plainWrite, if_pos hp] at hwrite
    simp only [advancePlanCheck, hcheck] at hwrite
    exact ⟨_, _, exec_hostWrite_of_conditions hwrite rfl, rd_hostStore_same _ _ _ _ hm, hostStore_wordsKept _ _ _ _, rfl,
      ⟨_, List.take_append_drop _ _⟩, rfl⟩
  · obtain ⟨hclass, hh⟩ := hasNoRow_class hplace
    refine ⟨hclass, hostStore s a.toNat bothLanes (mergeLanes l (rd s a.toNat) d), exec_hostWrite_of_conditions ?_ rfl,
      rd_hostStore_merged _ _ _ _ hm, hostStore_wordsKept _ _ _ _, fun hi => hostStore_port hi _ _ _, rfl⟩
    rw [hostWrite_taken hr hl, writeDecision_watched hh hclass hs, observedWrite_hasNoRow hplace]

end Sys2Proof.Machine


/-! ## Host reads and the clock's words (chapters 1 and 8) -/

namespace Sys2Proof.Machine

variable {s t u : State}

/-! Reads that the path takes. -/

theorem hostRead_taken {l : Lanes} (hr : running s = true) (hl : noLanes l = false) (a : Addr) :
    hostRead a l s = takenRead a l s := by
  obtain ⟨hv, -⟩ := (running_iff s).1 hr
  rw [hostRead, if_neg (by simp [hv]), if_neg (by simp [hr, hl])]

/-- R13: the latch serves high words of pairs alone. -/
theorem pairServes_eq_none {a : Addr} (h : isPairHigh a.toNat = false) (s : State) : pairServes s a = none := by
  unfold pairServes
  split
  · next p w _ =>
    refine if_neg fun ⟨hp, ha⟩ => ?_
    rw [isPairHigh, ← ha, Nat.add_sub_cancel, hp] at h
    simp at h
  · rfl

theorem takenRead_live {a : Addr} (hp : pairServes s a = none) (hlive : inLiveBlock a.toNat = true) (l : Lanes) :
    takenRead a l s = liveRead a l s := by
  rw [takenRead, hp]
  exact if_pos hlive

theorem takenRead_memory {a : Addr} (hp : pairServes s a = none) (hlive : inLiveBlock a.toNat = false) (l : Lanes) :
    takenRead a l s = memoryRead a l s := by
  rw [takenRead, hp]
  exact if_neg (by simp [hlive])

/-- A read of a live word that is no half of a pair. -/
theorem hostRead_liveWord {a : Addr} {l : Lanes} (hr : running s = true) (hl : noLanes l = false)
    (hp : isPairHigh a.toNat = false) (hlive : inLiveBlock a.toNat = true) :
    hostRead a l s = liveReadEffect a l (drive s l (liveWord s a.toNat)) := by
  rw [hostRead_taken hr hl, takenRead_live (pairServes_eq_none hp s) hlive]
  rfl

theorem laneMask_getLsbD (l : Lanes) (f : Flag) :
    (laneMask l).getLsbD f.bit = if f.bit < 8 then l.lower else l.upper := by
  obtain ⟨up, low⟩ := l
  cases up <;> cases low <;> cases f <;> decide

theorem flagsAfterRead_getLsbD (s : State) (l : Lanes) (f : Flag) : (flagsAfterRead s l).getLsbD f.bit =
    (s.flags.getLsbD f.bit && (condition s f || !(if f.bit < 8 then l.lower else l.upper))) := by
  rw [flagsAfterRead, BitVec.getLsbD_and, BitVec.getLsbD_or, BitVec.getLsbD_not, laneMask_getLsbD, conditions_getLsbD,
    decide_eq_true (bit_lt f), Bool.true_and, Bool.or_comm]

theorem clockWordValue_year (s : State) :
    clockWordValue s .year = BitVec.ofNat 16 (s.clock.snapshot.getD s.clock.now).year := by
  unfold clockWordValue
  cases s.clock.snapshot <;> rfl

/-- Settles O13: each live word is read from the block of live words, and its effect is the one of its row. -/
theorem liveReadsHaveTheirEffects : Obligations.LiveReadsHaveTheirEffects := by
  unfold Obligations.LiveReadsHaveTheirEffects
  refine ⟨fun l s hr hl => ?_, fun l s hr hl => ?_, fun l s hr hl => ⟨?_, ?_⟩⟩
  · refine ⟨_, congrArg Host.Outcome.next (hostRead_liveWord (a := addrOf 0x09) hr hl (by decide) (by decide)), ?_⟩
    have heffect (v : State) : liveReadEffect (addrOf 0x09) l v =
        if l.lower then { v with path := { v.path with squash := none } } else v := rfl
    have hword : liveWord s (addrOf 0x09).toNat = squashReasonWord s := rfl
    rw [heffect, hword]
    have hsome (a : Addr) (r : SquashReason) (h : s.path.squash = some (a, r)) :
        squashReasonWord s = BitVec.ofNat 16 r.code := by
      rw [squashReasonWord, h]
      rfl
    have hnone (h : s.path.squash = none) : squashReasonWord s = 0 := by rw [squashReasonWord, h]
    cases hlow : l.lower
    · exact ⟨rfl, hsome, hnone, by simp, fun _ => rfl, rfl⟩
    · exact ⟨rfl, hsome, hnone, fun _ => rfl, by simp, rfl⟩
  · exact ⟨_, congrArg Host.Outcome.next (hostRead_liveWord (a := addrOf 0x06) hr hl (by decide) (by decide)), rfl,
      fun f => flagsAfterRead_getLsbD s l f, rfl⟩
  · exact congrArg Host.Outcome.next (hostRead_liveWord (a := addrOf 0x0B) hr hl (by decide) (by decide))
  · rw [← clockWordValue_year]
    exact congrArg Host.Outcome.next (hostRead_liveWord (a := addrOf 0x10) hr hl (by decide) (by decide))

/-! The pair latch (R12, R13). -/

/-- The low words of pairs, by the regions of the map. -/
theorem isPairLow_cases {a : Nat} (h : isPairLow a = true) :
    (a = 0x07 ∨ a = 0x14 ∨ a = 0x16 ∨ a = 0x18) ∨ (0xA0 ≤ a ∧ a < 0x120 ∧ a % 16 = 9) ∨
      (0x1000 ≤ a ∧ a < 0x2000 ∧ a % 16 = 9) ∨ (0x2000 ≤ a ∧ a < 0x3000 ∧ a % 8 = 2) ∨
      (0x4000 ≤ a ∧ a < 0x8000 ∧ (a % 16 = 2 ∨ a % 16 = 10 ∨ a % 16 = 13)) ∨
      (0x10000 ≤ a ∧ a < 0x30000 ∧ a % 32 = 22) := by
  revert h
  unfold isPairLow
  split_ifs <;> simp only [Bool.or_eq_true, decide_eq_true_eq, false_implies] <;> omega

/-- No word is both halves of pairs. -/
theorem isPairLow_succ {a : Nat} (h : isPairLow a = true) : isPairLow (a + 1) = false := by
  rw [← Bool.not_eq_true]
  intro h'
  have := isPairLow_cases h
  have := isPairLow_cases h'
  omega

theorem isPairHigh_of_low {a : Nat} (h : isPairLow a = true) : isPairHigh a = false := by
  rw [isPairHigh, Bool.and_eq_false_imp]
  intro hpos
  rw [← Bool.not_eq_true]
  intro h'
  have hsucc := isPairLow_succ h'
  rw [decide_eq_true_eq] at hpos
  rw [Nat.sub_add_cancel hpos, h] at hsucc
  cases hsucc

theorem isPairLow_lt {a : Nat} (h : isPairLow a = true) : a < 0x30000 := by
  have := isPairLow_cases h
  omega

theorem toNat_succ {a : Addr} (h : isPairLow a.toNat = true) : (a + 1).toNat = a.toNat + 1 := by
  have := isPairLow_lt h
  rw [BitVec.toNat_add]
  exact Nat.mod_eq_of_lt (by show a.toNat + 1 < 524288; omega)

/-- The halves of a pair lie on one side of the end of the live block. -/
theorem inLiveBlock_succ {a : Nat} (h : isPairLow a = true) : inLiveBlock (a + 1) = inLiveBlock a := by
  have := isPairLow_cases h
  unfold inLiveBlock
  by_cases ha : a < 0x40
  · rw [decide_eq_true ha, decide_eq_true (by omega)]
  · rw [decide_eq_false ha, decide_eq_false (by omega)]

theorem liveReadEffect_low {a : Addr} (h : isPairLow a.toNat = true) (l : Lanes) (s : State) :
    liveReadEffect a l s = capturePair a (liveWord s (a.toNat + 1)) s := by
  have := isPairLow_cases h
  unfold liveReadEffect
  simp only [h, if_true]
  rw [if_neg (by omega), if_neg (by omega), if_neg (by omega), if_neg (by omega)]

/-- R12: what a read of a low word returns and captures. -/
theorem pairLowRead_eq {a : Addr} {l : Lanes} (hr : running s = true) (hl : noLanes l = false)
    (h : isPairLow a.toNat = true) :
    ∃ p, exec (.pairLowRead a l) s = .next { s with
      bus := { data := hostSees s a.toNat, lanes := l }
      path := { s.path with pair := some (a, hostSees s (a.toNat + 1)) }, port := p } := by
  have hexec : exec (.pairLowRead a l) s = .next (takenRead a l s) := congrArg _ (hostRead_taken hr hl a)
  have hserves := pairServes_eq_none (isPairHigh_of_low h) s
  unfold hostSees
  rw [hexec, inLiveBlock_succ h]
  cases hlive : inLiveBlock a.toNat
  · rw [takenRead_memory hserves hlive, memoryRead, if_pos h]
    exact ⟨_, rfl⟩
  · rw [takenRead_live hserves hlive, liveRead, liveReadEffect_low h]
    exact ⟨s.port, rfl⟩

/-- R13: a high word that the latch holds. -/
theorem pairHighRead_latched {a : Addr} {l : Lanes} {w : Word} (hr : running s = true) (hl : noLanes l = false)
    (h : isPairLow a.toNat = true) (hp : s.path.pair = some (a, w)) :
    exec (.pairHighRead (a + 1) l) s =
      .next { s with bus := { data := w, lanes := l }, path := { s.path with pair := none } } := by
  have hexec : exec (.pairHighRead (a + 1) l) s = .next (takenRead (a + 1) l s) := congrArg _ (hostRead_taken hr hl _)
  have hserves : pairServes s (a + 1) = some w := by
    rw [pairServes, hp]
    exact if_pos ⟨h, (toNat_succ h).symm⟩
  rw [hexec, takenRead, hserves]
  rfl

theorem liveReadEffect_high {a : Addr} (h : isPairLow a.toNat = true) (l : Lanes) (s : State)
    (hlive : inLiveBlock a.toNat = true) : liveReadEffect (a + 1) l s = s := by
  have hcases := isPairLow_cases h
  have ha : a.toNat < 0x40 := of_decide_eq_true hlive
  unfold liveReadEffect
  rw [toNat_succ h]
  simp only [isPairLow_succ h]
  rw [if_neg (by omega), if_neg (by omega), if_neg (by omega), if_neg (by omega)]
  rfl

/-- R13: a high word that the latch does not hold is read from memory or the live block. -/
theorem pairHighRead_other {a : Addr} {l : Lanes} (hr : running s = true) (hl : noLanes l = false)
    (h : isPairLow a.toNat = true) (hp : ∀ w, s.path.pair ≠ some (a, w)) :
    ∃ p, exec (.pairHighRead (a + 1) l) s =
      .next { s with bus := { data := hostSees s (a.toNat + 1), lanes := l }, port := p } := by
  have hexec : exec (.pairHighRead (a + 1) l) s = .next (takenRead (a + 1) l s) := congrArg _ (hostRead_taken hr hl _)
  have hserves : pairServes s (a + 1) = none := by
    unfold pairServes
    split
    · next p w hpair =>
      refine if_neg fun ⟨_, hp'⟩ => hp w ?_
      rw [toNat_succ h] at hp'
      rw [hpair, BitVec.eq_of_toNat_eq (Nat.succ.inj hp')]
    · rfl
  unfold hostSees
  rw [hexec, inLiveBlock_succ h]
  cases hlive : inLiveBlock a.toNat
  · rw [takenRead_memory hserves (by rw [toNat_succ h, inLiveBlock_succ h, hlive]), memoryRead, toNat_succ h,
      isPairLow_succ h]
    exact ⟨_, rfl⟩
  · rw [takenRead_live hserves (by rw [toNat_succ h, inLiveBlock_succ h, hlive]), liveRead,
      liveReadEffect_high h _ _ hlive, toNat_succ h]
    exact ⟨s.port, rfl⟩

/-- The two words of a number below 2 ^ 32 give it back. -/
theorem pairValue_words {n : Nat} (h : n < 4294967296) : pairValue (pairLowWord n) (pairHighWord n) = n := by
  simp only [pairValue, pairLowWord, pairHighWord, wordOf, BitVec.toNat_ofNat]
  omega

theorem squashAddress_lt (s : State) : squashAddress s < 4294967296 := by
  unfold squashAddress
  split
  · next a _ _ => have := a.isLt; omega
  · decide

/-- Settles O14. -/
theorem pairReadsUseTheLatch : Obligations.PairReadsUseTheLatch := by
  unfold Obligations.PairReadsUseTheLatch
  refine ⟨fun a l s hr hl h => ?_, ⟨fun s pair hpair => ?_, fun s a h => ?_⟩, fun a l s hr hl h => ⟨fun w hp => ?_, fun hp => ?_⟩⟩
  · obtain ⟨p, hexec⟩ := pairLowRead_eq hr hl h
    exact ⟨_, hexec, rfl, rfl, rfl⟩
  · have hsquash : pair 0x07 = squashAddress s := (hpair _).trans (pairValue_words (squashAddress_lt s))
    refine ⟨fun a r hs => ?_, fun hs => ?_, (hpair _).trans (pairValue_words s.sched.framesSent.isLt),
      (hpair _).trans (pairValue_words s.tracker.matched.isLt), (hpair _).trans (pairValue_words s.receiver.badFrames.isLt)⟩
    · rw [hsquash, squashAddress, hs]
    · rw [hsquash, squashAddress, hs]
  · have hcases := isPairLow_cases h
    by_cases hlive : inLiveBlock a = true
    · have ha : a < 0x40 := of_decide_eq_true hlive
      omega
    · refine .inr (.inr (.inr (.inr ?_)))
      unfold hostSees
      rw [inLiveBlock_succ h, if_neg hlive, if_neg hlive]
      exact ⟨rfl, rfl⟩
  · exact pairHighRead_latched hr hl h hp
  · obtain ⟨p, hexec⟩ := pairHighRead_other hr hl h hp
    exact ⟨_, hexec, rfl, rfl⟩

/-- Settles O15: the latch holds the high word of the instant of the low read until it is read or captured anew. -/
theorem pairHalvesBelongTogether : Obligations.PairHalvesBelongTogether := by
  unfold Obligations.PairHalvesBelongTogether
  refine ⟨fun a l l' s t u hr hl hl' h hexec hru hpair => ?_, fun a l d s t hexec => ?_⟩
  · obtain ⟨p, hlow⟩ := pairLowRead_eq hr hl h
    cases hlow.symm.trans hexec
    exact ⟨_, pairHighRead_latched hru hl' h hpair, rfl⟩
  · obtain ⟨u, hu, hends⟩ := exec_leavesTo (c := .hostWrite a l d) rfl s
    cases hu.symm.trans hexec
    rw [latchArisen_frame]
    exact hends.moves.pair

/-! The clock's words (R133, R134). -/

theorem clockControlWord_set (s : State) : (clockControlWord s).getLsbD 0 = s.clock.set := by
  unfold clockControlWord
  cases s.clock.set <;> cases s.clock.valid <;> decide

theorem mergeLanes_getLsbD_zero (l : Lanes) (old new : Word) :
    (mergeLanes l old new).getLsbD 0 = if l.lower then new.getLsbD 0 else old.getLsbD 0 := by
  rw [mergeLanes, getLsbD_wordOfBytes, if_pos (by decide)]
  cases l.lower
  · exact (getLsbD_wordLo old 0).trans (Bool.true_and _)
  · exact (getLsbD_wordLo new 0).trans (Bool.true_and _)

theorem hostWrite_clockControl {l : Lanes} (hr : running s = true) (hl : noLanes l = false) (d : Word) :
    hostWrite (addrOf 0x0A) l d s = writeClockControl l d s := by
  rw [hostWrite_taken hr hl, writeDecision_live (by decide), liveWrite, if_pos (by decide)]

/-- The bit of SET as a write to the control word leaves it. -/
theorem controlBit (l : Lanes) (d : Word) (s : State) : (mergeLanes l (clockControlWord s) d).getLsbD 0 =
    if l.lower then d.getLsbD 0 else s.clock.set := by
  rw [mergeLanes_getLsbD_zero, clockControlWord_set]

theorem clockFieldAt_address (f : ClockField) : clockFieldAt (addrOf (clockFieldAddress f)).toNat = some f := by
  cases f <;> decide

theorem hostWrite_clockWord {f : ClockField} {l : Lanes} (hr : running s = true) (hl : noLanes l = false) (d : Word) :
    hostWrite (addrOf (clockFieldAddress f)) l d s =
      if s.clock.set then storeClockWord f l d s else squash (addrOf (clockFieldAddress f)) .clockNotHeld s := by
  rw [hostWrite_taken hr hl, writeDecision_live (by cases f <;> decide), liveWrite_clockWord (clockFieldAt_address f)]

theorem calendarField_set (c : Calendar) (f g : ClockField) (v : Nat) :
    calendarField (setCalendarField c f v) g = if g = f then v else calendarField c g := by
  cases f <;> cases g <;> rfl

theorem wordLo_wordOf (n : Nat) : (wordLo (wordOf n)).toNat = n % 256 := by
  simp only [wordLo, wordOf, BitVec.extractLsb'_toNat, BitVec.toNat_ofNat]
  omega

theorem wordLo_mergeLanes (l : Lanes) (old new : Word) :
    wordLo (mergeLanes l old new) = if l.lower then wordLo new else wordLo old := wordLo_wordOfBytes _ _

/-- Settles O16. -/
theorem clockWritesNeedTheHold : Obligations.ClockWritesNeedTheHold := by
  unfold Obligations.ClockWritesNeedTheHold
  have hexec (l : Lanes) (d : Word) (s : State) (hr : running s = true) (hl : noLanes l = false) :
      exec (.clockControlWrite l d) s = .next (latchArisen s (writeClockControl l d s)) :=
    congrArg (fun v => Host.Outcome.next (latchArisen s v)) (hostWrite_clockControl hr hl d)
  refine ⟨fun l d s hr hl => ⟨fun h => ?_, fun hlow hd hset => ?_⟩, fun f l d s hr hl => ⟨fun hset => ?_, fun hset => ?_⟩⟩
  · have hbit : (mergeLanes l (clockControlWord s) d).getLsbD 0 = s.clock.set := by
      rw [controlBit]
      rcases h with h | h
      · rw [h, if_neg (by decide)]
      · rw [h, ite_self]
    have hself : writeClockControl l d s = s := by
      unfold writeClockControl
      simp only [hbit]
      rw [if_neg (by simp), if_neg (by simp)]
    rw [hexec l d s hr hl, hself, latchArisen_refl]
  · have hbit : (mergeLanes l (clockControlWord s) d).getLsbD 0 = true := by rw [controlBit, hlow, hd]; rfl
    have hhold : writeClockControl l d s = beginHold s := if_pos ⟨hset, hbit⟩
    rw [hexec l d s hr hl, hhold, latchArisen_eq_self (s := s) (t := beginHold s) rfl]
    rfl
  · refine ⟨storeClockWord f l d s, ?_, fun hlow => ?_, fun hlow => ?_, fun g hg => ?_, rfl⟩
    · refine (congrArg (fun v => Host.Outcome.next (latchArisen s v)) (hostWrite_clockWord hr hl d)).trans ?_
      rw [if_pos hset, latchArisen_eq_self (s := s) (t := storeClockWord f l d s) rfl]
    · simp [storeClockWord, calendarField_set, wordLo_mergeLanes, hlow]
    · simp [storeClockWord, calendarField_set, wordLo_mergeLanes, hlow, wordLo_wordOf]
    · simp [storeClockWord, calendarField_set, hg]
  · obtain ⟨t, ht, hflags, hsq, -, hframe⟩ := exec_hostWrite_squashed (a := addrOf (clockFieldAddress f)) (d := d) hr hl
      (r := .clockNotHeld) (by
        rw [← hostWrite_taken hr hl, hostWrite_clockWord hr hl, hset]
        rfl)
    exact ⟨t, ht, hflags, hsq, hframe⟩

end Sys2Proof.Machine


/-! ## What operations write, and the records they log

The words that each shared operation may write (`KeptOutside`), and what an append to the log leaves: the record written, and
every record that stood in the log before it. -/

namespace Sys2Proof.Machine

variable {p q : Nat → Bool} {ws vs : List Nat} {s t u : State}

/-! Footprints. -/

theorem KeptOutside.refl (s : State) : KeptOutside p s s := fun _ _ => rfl

theorem KeptOutside.trans (h : KeptOutside p s t) (k : KeptOutside p t u) : KeptOutside p s u :=
  fun a ha => (k a ha).trans (h a ha)

/-- What an operation writes beside an earlier one. -/
theorem KeptOutside.after (k : KeptOutside p t u) (h : KeptOutside p s t) : KeptOutside p s u := h.trans k

theorem KeptOutside.mono (h : KeptOutside p s t) (hp : ∀ a, p a = true → q a = true) : KeptOutside q s t :=
  fun a ha => h a (by rw [← Bool.not_eq_true]; intro hpa; rw [hp a hpa] at ha; cases ha)

theorem WordsKept.keptOutside (h : WordsKept ws s t) (hp : ∀ a ∈ ws, p a = true) : KeptOutside p s t :=
  fun a ha => h a fun hmem => by rw [hp a hmem] at ha; cases ha

theorem WordsKept.refl (s : State) : WordsKept ws s s := fun _ _ => rfl

theorem KeptOutside.foldl {α : Type} {f : State → α → State} (hf : ∀ v x, KeptOutside p v (f v x)) (l : List α) :
    ∀ s, KeptOutside p s (l.foldl f s) := by
  induction l with
  | nil => exact KeptOutside.refl
  | cons x l ih => exact fun s => (hf s x).trans (ih _)

theorem withRings_iff (a : Nat) : withRings ws a = true ↔ a ∈ ws ∨ ringPlace a = true := by simp [withRings]

theorem KeptOutside.withRings (h : KeptOutside ringPlace s t) : KeptOutside (withRings ws) s t :=
  h.mono fun a ha => (withRings_iff a).2 (.inr ha)

theorem WordsKept.withRings (h : WordsKept ws s t) (hs : ws ⊆ vs) : KeptOutside (withRings vs) s t :=
  h.keptOutside fun a ha => (withRings_iff a).2 (.inl (hs ha))

theorem KeptOutside.withRings_mono (h : KeptOutside (Machine.withRings ws) s t) (hs : ws ⊆ vs) :
    KeptOutside (Machine.withRings vs) s t :=
  h.mono fun a ha => (withRings_iff a).2 (((withRings_iff a).1 ha).imp_left fun hm => hs hm)

theorem ringPlace_iff (a : Nat) : ringPlace a = true ↔
    (0x120 ≤ a ∧ a ≤ 0x125) ∨ (0x2000 ≤ a ∧ a < 0x3000) ∨ (0x4000 ≤ a ∧ a < 0x8000) := by
  simp only [ringPlace, Bool.or_eq_true, Bool.and_eq_true, decide_eq_true_eq, or_assoc]
  rfl

theorem ringPlace_eq_false_iff (a : Nat) : ringPlace a = false ↔
    ¬((0x120 ≤ a ∧ a ≤ 0x125) ∨ (0x2000 ≤ a ∧ a < 0x3000) ∨ (0x4000 ≤ a ∧ a < 0x8000)) := by
  rw [← ringPlace_iff, Bool.not_eq_true]

/-! The words of the other tables are no ring's. -/

theorem ringPlace_requestWord {n w : Nat} (hn : n < 8) (hw : w < 4) : ringPlace (requestWord n w) = false := by
  rw [ringPlace_eq_false_iff]; unfold requestWord; omega

theorem ringPlace_slotWord {k w : Nat} (hk : k < 8) (hw : w < 16) : ringPlace (slotWord k w) = false := by
  rw [ringPlace_eq_false_iff]; unfold slotWord; omega

theorem ringPlace_elementWord {i w : Nat} (hi : i < 256) (hw : w < 16) : ringPlace (elementWord i w) = false := by
  rw [ringPlace_eq_false_iff]; unfold elementWord; omega

theorem ringPlace_subscriberWord (i w : Nat) : ringPlace (subscriberWord i w) = false := by
  rw [ringPlace_eq_false_iff]; unfold subscriberWord; omega

/-! Writes. -/

theorem wr_kept {a : Nat} (ha : p a = true) (w : Word) (s : State) : KeptOutside p s (wr s a w) :=
  (wordsKept_wr s a w).keptOutside (by simpa using ha)

theorem wrAll_wordsKept (l : List (Nat × Word)) (s : State) : WordsKept (l.map Prod.fst) s (wrAll s l) :=
  fun a ha => rd_wrAll_other l a s fun _ hx hxa => ha (hxa ▸ List.mem_map_of_mem hx)

theorem wrHeld_wordsKept (l : List (Nat × Word)) (s : State) : WordsKept (l.map Prod.fst) s (wrHeld s l) :=
  fun a ha => rd_wrHeld_other s l a fun _ hx hxa => ha (hxa ▸ List.mem_map_of_mem hx)

theorem wrPair_wordsKept (s : State) (a n : Nat) : WordsKept [a, a + 1] s (wrPair s a n) :=
  wrHeld_wordsKept [(a, pairLowWord n), (a + 1, pairHighWord n)] s

theorem setNotice_wordsKept (a b : Nat) (s : State) : WordsKept [a] s (setNotice a b s) := wordsKept_wr s a _

theorem writeStatus_wordsKept (i : Nat) (o n : RecordStatus) (s : State) :
    WordsKept [subscriberWord i 8] s (writeStatus i o n s) := wordsKept_wr s _ _

theorem writeRecord_kept {l : List Word} {a : Nat} (h : ∀ j, j < l.length → p (a + j) = true) (s : State) :
    KeptOutside p s (writeRecord s a l) := by
  intro b hb
  refine rd_writeRecord_other l b s a ?_
  by_contra hin
  have := h (b - a) (by omega)
  rw [show a + (b - a) = b by omega, hb] at this
  cases this

/-! The rings. -/

theorem setRingCopy_rd (n : RingName) (r : RingCopy) (s : State) (a : Nat) : rd (setRingCopy n r s) a = rd s a := by
  cases n <;> rfl

theorem noteRing_rd (n : RingName) (e f : Bool) (s : State) (a : Nat) : rd (noteRing n e f s) a = rd s a := by
  cases n <;> rfl

theorem reportCondition_rd (f : Flag) (s : State) (a : Nat) : rd (reportCondition f s) a = rd s a := by
  rw [reportCondition_frame]; rfl

theorem ringControl_places (n : RingName) :
    ringPlace (ringControl n).1 = true ∧ ringPlace (ringControl n).2.1 = true ∧ ringPlace (ringControl n).2.2 = true := by
  cases n <;> decide

theorem validateRing_kept (n : RingName) (s : State) : KeptOutside ringPlace s (validateRing n s) := by
  obtain ⟨hh, ht, hq⟩ := ringControl_places n
  have hloaded (r : RingCopy) (e f : Bool) {v : State} (h : KeptOutside ringPlace s v) :
      KeptOutside ringPlace s (setRingCopy n r (noteRing n e f v)) := fun a ha =>
    (setRingCopy_rd n r _ a).trans ((noteRing_rd n e f v a).trans (h a ha))
  have hcleared : KeptOutside ringPlace s (wr (wr s (ringControl n).1 0) (ringControl n).2.1 0) :=
    (wr_kept hh 0 s).trans (wr_kept ht 0 _)
  unfold validateRing
  dsimp only
  split
  · refine hloaded _ _ _ ?_
    split
    · exact hcleared.trans (wr_kept hq 1 _)
    · exact hcleared
  · split
    · exact hloaded _ _ _ (hcleared.trans (wr_kept hq 1 _))
    · split
      · exact hloaded _ _ _ (wr_kept ht _ s)
      · exact hloaded _ _ _ (KeptOutside.refl s)

theorem validateRings_kept (s : State) : KeptOutside ringPlace s (validateRings s) := by
  have hboth : KeptOutside ringPlace s (validateRing .journal (validateRing .log (partRead s))) :=
    (validateRing_kept .log (partRead s)).trans (validateRing_kept .journal _)
  unfold validateRings
  split
  · exact KeptOutside.refl s
  · exact hboth

theorem advanceRing_kept (n : RingName) (r : RingCopy) (s : State) : KeptOutside ringPlace s (advanceRing n r s) := by
  obtain ⟨hh, -, hq⟩ := ringControl_places n
  exact fun a ha => (setRingCopy_rd n _ _ a).trans (((wr_kept hh _ s).trans (wr_kept hq _ _)) a ha)

theorem ringPlace_logWord {h w : Nat} (hh : h < 512) (hw : w < 8) : ringPlace (logWord h w) = true := by
  rw [ringPlace_iff]; unfold logWord; omega

theorem ringPlace_journalWord {h w : Nat} (hh : h < 1024) (hw : w < 16) : ringPlace (journalWord h w) = true := by
  rw [ringPlace_iff]; unfold journalWord; omega

/-- The eight words of a log record (12.9). -/
def logRecord (s : State) (k : LogKind) (sequence x a b c : Nat) : List Word :=
  recordPrefix s k.code sequence ++ [wordOf x, wordOf a, wordOf b, wordOf c]

theorem logRecord_congr (h : t.clock = s.clock) (k : LogKind) (sequence x a b c : Nat) :
    logRecord t k sequence x a b c = logRecord s k sequence x a b c := by
  simp only [logRecord, recordPrefix, recordHead, currentStamp, h]

/-- R173: a record that finds room is written at the head, which advances with the next sequence. -/
theorem logAppend_room {r : RingCopy} (h : (validateRings s).writer.log = some r) (hroom : ringFull .log r = false)
    (k : LogKind) (x a b c : Nat) : logAppend k x a b c s =
      advanceRing .log r (writeRecord (validateRings s) (logWord r.head 0) (logRecord (validateRings s) k r.sequence x a b c)) := by
  simp only [logAppend, h, hroom, logRecord, Bool.false_eq_true, if_false]

/-- R173: a full log loses the record: the next sequence alone advances. -/
theorem logAppend_full {r : RingCopy} (h : (validateRings s).writer.log = some r) (hfull : ringFull .log r = true)
    (k : LogKind) (x a b c : Nat) : logAppend k x a b c s =
      reportCondition .logFull (setRingCopy .log { r with sequence := nextSequence r.sequence }
        (wr (validateRings s) logSequenceWord (wordOf (nextSequence r.sequence)))) := by
  simp only [logAppend, h, hfull, if_true]

theorem logAppend_unloaded (h : (validateRings s).writer.log = none) (k : LogKind) (x a b c : Nat) :
    logAppend k x a b c s = validateRings s := by
  simp only [logAppend, h]

theorem logAppend_kept (hring : RingLaw s) (k : LogKind) (x a b c : Nat) :
    KeptOutside ringPlace s (logAppend k x a b c s) := by
  refine (validateRings_kept s).trans ?_
  cases hlog : (validateRings s).writer.log with
  | none => rw [logAppend_unloaded hlog]; exact KeptOutside.refl _
  | some r =>
    have hhead : r.head < 512 := ((validateRings_ring hring).1 .log r hlog).1
    by_cases hfull : ringFull .log r = true
    · rw [logAppend_full hlog hfull]
      exact fun a ha => (reportCondition_rd _ _ a).trans (wr_kept (p := ringPlace) (by decide) _ _ a ha)
    · rw [logAppend_room hlog (Bool.not_eq_true _ ▸ hfull)]
      have hplaces (j : Nat) (hj : j < (logRecord (validateRings s) k r.sequence x a b c).length) :
          ringPlace (logWord r.head 0 + j) = true := ringPlace_logWord hhead hj
      exact (writeRecord_kept hplaces _).trans (advanceRing_kept .log r _)

theorem takeJournal_kept (s : State) : KeptOutside ringPlace s (takeJournal s).1 := by
  refine (validateRings_kept s).trans fun a _ => ?_
  unfold takeJournal
  dsimp only
  split
  · rfl
  · split
    · exact reportCondition_rd _ _ a
    · rfl

theorem journalAppend_kept (hring : RingLaw s) (k : JournalKind) {body : List Nat} (hlen : body.length ≤ 12) :
    KeptOutside ringPlace s (journalAppend k body s) := by
  unfold journalAppend
  split
  · exact KeptOutside.refl s
  · next r hr =>
    have hhead : r.head < 1024 := (hring.1 .journal r hr).1
    refine (writeRecord_kept (fun j hj => ?_) s).trans (advanceRing_kept .journal r _)
    rw [List.length_append, List.length_map] at hj
    exact ringPlace_journalWord hhead (Nat.lt_of_lt_of_le hj (Nat.add_le_add_left hlen 4))

/-! Sweeps and requests. -/

theorem dropSweep_kept (hring : RingLaw s) (k : SweepKind) (c : Nat) : KeptOutside ringPlace s (dropSweep k c s) :=
  logAppend_kept hring _ _ _ _ _

/-- A sweep that is opened writes its drop's record at most. -/
theorem openSweep_kept (hring : RingLaw s) (k : SweepKind) : KeptOutside ringPlace s (openSweep k s) := by
  unfold openSweep
  dsimp only
  split
  · exact KeptOutside.refl s
  · split
    · exact KeptOutside.refl s
    · split
      · exact dropSweep_kept hring k 0
      · split
        · exact dropSweep_kept hring _ _
        · exact KeptOutside.refl s

theorem wakeRefresh_mem (s : State) : (wakeRefresh s).mem = s.mem := by rw [wakeRefresh_frame]

theorem enterServing_kept (hring : RingLaw s) : KeptOutside ringPlace s (enterServing s) :=
  KeptOutside.trans (t := wakeRefresh { s with part := { s.part with state := .serving } })
    (fun a _ => rd_congr (wakeRefresh_mem _) a)
    (openSweep_kept ((wakeRefresh_moves (can := fun _ => True) { s with part := { s.part with state := .serving } }).ring hring) _)

/-! What an append leaves (R173). -/

/-- The words of the rings read as before. -/
def RingsKept (s t : State) : Prop := ∀ a, ringPlace a = true → rd t a = rd s a

theorem RingsKept.trans (h : RingsKept s t) (k : RingsKept t u) : RingsKept s u := fun a ha => (k a ha).trans (h a ha)

theorem RingsKept.of_mem (h : t.mem = s.mem) : RingsKept s t := fun a _ => rd_congr h a

theorem KeptOutside.ringsKept (h : KeptOutside p s t) (hp : ∀ a, p a = true → ringPlace a = false) : RingsKept s t :=
  fun a ha => h a (by rw [← Bool.not_eq_true]; intro hpa; rw [hp a hpa] at ha; cases ha)

theorem WordsKept.ringsKept (h : WordsKept ws s t) (hp : ∀ a ∈ ws, ringPlace a = false) : RingsKept s t :=
  fun a ha => h a fun hmem => by rw [hp a hmem] at ha; cases ha

/-- A record stands where its words read as before. -/
theorem RecordAt.congr_words {h sequence x a b c : Nat} {k : LogKind} (hr : RecordAt h sequence k x a b c s t)
    (hw : ∀ w, w < 8 → rd u (logWord h w) = rd t (logWord h w)) : RecordAt h sequence k x a b c s u := by
  have hpair : rdPair u (logWord h 2) = rdPair t (logWord h 2) := by
    rw [rdPair, rdPair, hw 2 (by decide), show logWord h 2 + 1 = logWord h 3 from rfl, hw 3 (by decide)]
  unfold RecordAt at hr ⊢
  rw [hw 0 (by decide), hw 1 (by decide), hpair, hw 4 (by decide), hw 5 (by decide), hw 6 (by decide), hw 7 (by decide)]
  exact hr

theorem RingsKept.recordAt {h sequence x a b c : Nat} {k : LogKind} (hk : RingsKept t u) (hh : h < 512)
    (hr : RecordAt h sequence k x a b c s t) : RecordAt h sequence k x a b c s u :=
  hr.congr_words fun _ hw => hk _ (ringPlace_logWord hh hw)

theorem pairValue_words_mod (n : Nat) : pairValue (pairLowWord n) (pairHighWord n) = n % 4294967296 := by
  simp only [pairValue, pairLowWord, pairHighWord, wordOf, BitVec.toNat_ofNat]
  omega

/-- A record written at a position of the log stands there. -/
theorem recordAt_writeRecord (hm : MemWf t.mem) (hc : t.clock = s.clock) (h sequence : Nat) (k : LogKind) (x a b c : Nat) :
    RecordAt h sequence k x a b c s (writeRecord t (logWord h 0) (logRecord t k sequence x a b c)) := by
  have hword (w : Nat) (v : Word) (hv : (logRecord t k sequence x a b c)[w]? = some v) :
      rd (writeRecord t (logWord h 0) (logRecord t k sequence x a b c)) (logWord h w) = v :=
    rd_writeRecord_same _ t (logWord h 0) w v hm hv
  refine ⟨(hword 0 _ rfl).trans (by rw [recordHead, hc]), hword 1 _ rfl, ?_, hword 4 _ rfl, hword 5 _ rfl, hword 6 _ rfl,
    hword 7 _ rfl⟩
  rw [rdPair, hword 2 _ rfl, show logWord h 2 + 1 = logWord h 3 from rfl, hword 3 _ rfl, pairValue_words_mod, currentStamp, hc]
  rfl

theorem logWord_ne_control {h w : Nat} (n : RingName) (hw : w < 8) (hh : h < 512) :
    logWord h w ≠ (ringControl n).1 ∧ logWord h w ≠ (ringControl n).2.2 := by
  cases n <;> simp only [logWord, ringControl, logHeadWord, logSequenceWord, journalHeadWord, journalSequenceWord] <;> omega

theorem advanceRing_logWord (n : RingName) (r : RingCopy) (s : State) {h w : Nat} (hh : h < 512) (hw : w < 8) :
    rd (advanceRing n r s) (logWord h w) = rd s (logWord h w) := by
  obtain ⟨hhead, hseq⟩ := logWord_ne_control n hw hh
  exact (setRingCopy_rd n _ _ _).trans ((rd_wr_other _ _ _ _ hseq).trans (rd_wr_other _ _ _ _ hhead))

/-- R173, R176: an append to a log with room has logged its record, and nothing else. What led from `s` to the append, and
from it to `t`, has left the rings and the Writer alone. -/
theorem logged_logAppend {k : LogKind} {x a b c : Nat} {v : State} (hm : MemWf v.mem) (hring : RingLaw s)
    (hw : v.writer = s.writer) (hc : v.clock = s.clock) (hk : RingsKept (logAppend k x a b c v) t)
    (ht : t.writer = (logAppend k x a b c v).writer) : Logged k x a b c s t := by
  intro r j hlog hjournal hroom
  have hload : validateRings v = v := validateRings_loaded (hw ▸ hlog) (hw ▸ hjournal)
  have hhead : r.head < 512 := (hring.1 .log r hlog).1
  have happend := logAppend_room (s := v) (by rw [hload, hw, hlog]) hroom k x a b c
  rw [hload] at happend
  have hrecord := recordAt_writeRecord hm hc r.head r.sequence k x a b c
  have hseq : rd (logAppend k x a b c v) logSequenceWord = wordOf (nextSequence r.sequence) := by
    rw [happend]
    exact (setRingCopy_rd .log _ _ _).trans (rd_wr_same _ _ _ (wr_wf _ _ _ (writeRecord_wf _ _ _ hm)))
  have hheadWord : rd (logAppend k x a b c v) logHeadWord = wordOf ((r.head + 1) % 512) := by
    rw [happend]
    exact (setRingCopy_rd .log _ _ _).trans ((rd_wr_other _ _ _ _ (by decide)).trans (rd_wr_same _ _ _ (writeRecord_wf _ _ _ hm)))
  refine ⟨hk.recordAt hhead ?_, by rw [ht, happend]; rfl, (hk _ (by decide)).trans hheadWord, (hk _ (by decide)).trans hseq⟩
  rw [happend]
  exact hrecord.congr_words fun w hw8 => advanceRing_logWord .log r _ hhead hw8

/-! The records that stand in the log. -/

/-- The log holds position `h`: it lies from the tail forward, before the head (R171). -/
def holdsPosition (r : RingCopy) (h : Nat) : Prop := (h + 512 - r.tail) % 512 < (r.head + 512 - r.tail) % 512

/-- R173: the records that stood in the log still stand there; others may have joined them. -/
def RecordsKept (s t : State) : Prop :=
  ∀ r j, s.writer.log = some r → s.writer.journal = some j → r.head < 512 → r.tail < 512 →
    ∃ r' j', t.writer.log = some r' ∧ t.writer.journal = some j' ∧ r'.tail = r.tail ∧ r'.head < 512 ∧
      (∀ h, h < 512 → holdsPosition r h → holdsPosition r' h) ∧
      ∀ h w, h < 512 → w < 8 → holdsPosition r h → rd t (logWord h w) = rd s (logWord h w)

theorem RecordsKept.trans (h : RecordsKept s t) (k : RecordsKept t u) : RecordsKept s u := by
  intro r j hlog hjournal hhead htail
  obtain ⟨r₁, j₁, hlog₁, hjournal₁, htail₁, hhead₁, hholds₁, hwords₁⟩ := h r j hlog hjournal hhead htail
  obtain ⟨r₂, j₂, hlog₂, hjournal₂, htail₂, hhead₂, hholds₂, hwords₂⟩ := k r₁ j₁ hlog₁ hjournal₁ hhead₁ (htail₁ ▸ htail)
  refine ⟨r₂, j₂, hlog₂, hjournal₂, htail₂.trans htail₁, hhead₂, fun h hh hp => hholds₂ h hh (hholds₁ h hh hp),
    fun h w hh hw hp => (hwords₂ h w hh hw (hholds₁ h hh hp)).trans (hwords₁ h w hh hw hp)⟩

theorem RingsKept.recordsKept (h : RingsKept s t) (hw : t.writer = s.writer) : RecordsKept s t :=
  fun r j hlog hjournal hhead _ => ⟨r, j, hw ▸ hlog, hw ▸ hjournal, rfl, hhead, fun _ _ => id,
    fun _ _ hh hw _ => h _ (ringPlace_logWord hh hw)⟩

theorem RecordsKept.refl (s : State) : RecordsKept s s := RingsKept.recordsKept (fun _ _ => rfl) rfl

/-- An append that finds room writes at the head, which held no record. -/
theorem logAppend_recordsKept (k : LogKind) (x a b c : Nat) (s : State) : RecordsKept s (logAppend k x a b c s) := by
  intro r j hlog hjournal hhead htail
  have hload : validateRings s = s := validateRings_loaded hlog hjournal
  have hlog' : (validateRings s).writer.log = some r := by rw [hload]; exact hlog
  by_cases hfull : ringFull .log r = true
  · rw [logAppend_full hlog' hfull, hload]
    refine ⟨{ r with sequence := nextSequence r.sequence }, j, by rw [reportCondition_frame]; rfl,
      by rw [reportCondition_frame]; exact hjournal, rfl, hhead, fun _ _ => id, fun h w hh hw _ => ?_⟩
    exact (reportCondition_rd _ _ _).trans (rd_wr_other _ _ _ _ (logWord_ne_control .log hw hh).2)
  · rw [Bool.not_eq_true] at hfull
    have hne : (r.head + 1) % 512 ≠ r.tail := of_decide_eq_false hfull
    rw [logAppend_room hlog' hfull, hload]
    refine ⟨{ head := (r.head + 1) % 512, tail := r.tail, sequence := nextSequence r.sequence }, j, rfl,
      by rw [advanceRing_frame, writeRecord_frame]; exact hjournal, rfl, Nat.mod_lt _ (by decide),
      fun h hh hp => ?_, fun h w hh hw hp => ?_⟩
    · unfold holdsPosition at hp ⊢
      dsimp only
      omega
    · refine (advanceRing_logWord .log r _ hh hw).trans (rd_writeRecord_other _ _ _ _ ?_)
      show logWord h w < logWord r.head 0 ∨ logWord r.head 0 + 8 ≤ logWord h w
      unfold holdsPosition at hp
      unfold logWord
      have : h ≠ r.head := by rintro rfl; exact Nat.lt_irrefl _ hp
      omega

theorem openSweep_recordsKept (k : SweepKind) (s : State) : RecordsKept s (openSweep k s) := by
  unfold openSweep
  dsimp only
  split
  · exact RecordsKept.refl s
  · split
    · exact RecordsKept.refl s
    · split
      · exact logAppend_recordsKept _ _ _ _ _ s
      · split
        · exact logAppend_recordsKept _ _ _ _ _ s
        · exact RecordsKept.refl s

theorem enterServing_recordsKept (s : State) : RecordsKept s (enterServing s) := by
  have hwake : RecordsKept s (wakeRefresh { s with part := { s.part with state := .serving } }) := by
    rw [wakeRefresh_frame]; exact RecordsKept.refl s
  exact hwake.trans (openSweep_recordsKept _ _)

/-- R173: the record of an append stands first among those appended from `s` on, whatever joined it. -/
theorem loggedFirst_logAppend {k : LogKind} {x a b c : Nat} {v : State} (hm : MemWf v.mem) (hring : RingLaw s)
    (hw : v.writer = s.writer) (hc : v.clock = s.clock) (hk : RecordsKept (logAppend k x a b c v) t) :
    LoggedFirst k x a b c s t := by
  intro r j hlog hjournal hroom
  have hhead : r.head < 512 := (hring.1 .log r hlog).1
  have htail : r.tail < 512 := (hring.1 .log r hlog).2
  obtain ⟨hrecord, hlog₁, -, -⟩ :=
    logged_logAppend hm hring hw hc (t := logAppend k x a b c v) (fun _ _ => rfl) rfl r j hlog hjournal hroom
  obtain ⟨r₂, j₂, hlog₂, hjournal₂, -⟩ := logAppend_recordsKept k x a b c v r j (hw ▸ hlog) (hw ▸ hjournal) hhead htail
  obtain ⟨-, -, -, -, -, -, -, hwords⟩ := hk _ j₂ hlog₁ hjournal₂ (Nat.mod_lt _ (by decide)) htail
  refine hrecord.congr_words fun w hw8 => hwords r.head w hhead hw8 ?_
  have hne : (r.head + 1) % 512 ≠ r.tail := of_decide_eq_false hroom
  unfold holdsPosition
  dsimp only
  omega

end Sys2Proof.Machine


/-! ## Slot evaluations, and the release of the clock's hold (R135, R148) -/

namespace Sys2Proof.Machine

variable {s t u : State}

/-! Sweeps opened one after another. -/

/-- R81, R82: sweeps opened in turn. -/
def openSweeps (ks : List SweepKind) (s : State) : State := ks.foldl (fun v k => openSweep k v) s

theorem openSweeps_nil (s : State) : openSweeps [] s = s := rfl

theorem openSweeps_append (ks ls : List SweepKind) (s : State) :
    openSweeps (ks ++ ls) s = openSweeps ls (openSweeps ks s) := List.foldl_append

theorem openSweeps_moves {can : Touch → Prop} (ks : List SweepKind) (s : State) : Moves can s (openSweeps ks s) :=
  Moves.foldl (fun v k => openSweep_moves k v) ks s

theorem openSweeps_kept (ks : List SweepKind) : ∀ {s : State}, RingLaw s → KeptOutside ringPlace s (openSweeps ks s) := by
  induction ks with
  | nil => exact fun _ => KeptOutside.refl _
  | cons k ks ih =>
    exact fun hring => (openSweep_kept hring k).trans (ih ((openSweep_moves (can := fun _ => True) k _).ring hring))

theorem openSweeps_recordsKept (ks : List SweepKind) : ∀ s : State, RecordsKept s (openSweeps ks s) := by
  induction ks with
  | nil => exact RecordsKept.refl
  | cons k ks ih => exact fun s => (openSweep_recordsKept k s).trans (ih _)

theorem openSweeps_frame (ks : List SweepKind) : ∀ s : State, openSweeps ks s = { s with
    mem := (openSweeps ks s).mem, port := (openSweeps ks s).port, writer := (openSweeps ks s).writer
    flags := (openSweeps ks s).flags, sched := { s.sched with sweeps := (openSweeps ks s).sched.sweeps } } := by
  induction ks with
  | nil => exact fun _ => rfl
  | cons k ks ih =>
    intro s
    rw [show openSweeps (k :: ks) s = openSweeps ks (openSweep k s) from rfl, ih, openSweep_frame]

@[simp] theorem openSweeps_slots (ks : List SweepKind) (s : State) : (openSweeps ks s).slots = s.slots := by
  rw [openSweeps_frame]

@[simp] theorem openSweeps_clock (ks : List SweepKind) (s : State) : (openSweeps ks s).clock = s.clock := by
  rw [openSweeps_frame]

/-- What a sweep does to the sweep table depends on the table alone. -/
theorem openSweep_sweeps_congr (k : SweepKind) (h : t.sched.sweeps = s.sched.sweeps) :
    (openSweep k t).sched.sweeps = (openSweep k s).sched.sweeps := by
  unfold openSweep
  simp only [h]
  split
  · rfl
  · split
    · rfl
    · split
      · rw [dropSweep_sched, dropSweep_sched, h]
      · split
        · rw [dropSweep_sched, dropSweep_sched, h]
        · rfl

theorem openSweep_sched_congr (k : SweepKind) (h : t.sched = s.sched) : (openSweep k t).sched = (openSweep k s).sched := by
  rw [openSweep_frame k t, openSweep_frame k s, h, openSweep_sweeps_congr k (congrArg Scheduler.sweeps h)]

/-- With room in the table no sweep is dropped. -/
theorem openSweep_room {k : SweepKind} (h : s.sched.sweeps.length < 4) :
    openSweep k s = { s with sched := { s.sched with sweeps := (openSweep k s).sched.sweeps } } := by
  unfold openSweep
  dsimp only
  split
  · rfl
  · rw [if_pos (show s.sched.sweeps.length < sweepCapacity from h)]

theorem newSweep_mem_map {ws : List Sweep} {k : SweepKind} (h : (ws.any fun w => decide (w.kind = k)) = true) :
    newSweep k ∈ ws.map fun w => if w.kind = k then newSweep k else w := by
  obtain ⟨w, hw, hkind⟩ := List.any_eq_true.1 h
  exact List.mem_map.2 ⟨w, hw, if_pos (of_decide_eq_true hkind)⟩

/-- R81: with room in the table the sweep stands in it at its beginning. -/
theorem openSweep_opens {k : SweepKind} (h : s.sched.sweeps.length < 4) : newSweep k ∈ (openSweep k s).sched.sweeps := by
  unfold openSweep
  dsimp only
  split
  · next hany => exact newSweep_mem_map hany
  · rw [if_pos (show s.sched.sweeps.length < sweepCapacity from h)]
    exact List.mem_append_right _ List.mem_cons_self

/-- R82: a mandatory sweep is always opened, or folded into RESYNC. -/
theorem openSweep_mandatory {k : SweepKind} (hk : k.optional = false) (s : State) :
    newSweep k ∈ (openSweep k s).sched.sweeps ∨ newSweep .resync ∈ (openSweep k s).sched.sweeps := by
  by_cases hroom : s.sched.sweeps.length < 4
  · exact .inl (openSweep_opens hroom)
  · unfold openSweep
    dsimp only
    split
    · next hany => exact .inl (newSweep_mem_map hany)
    · rw [if_neg (show ¬s.sched.sweeps.length < sweepCapacity from hroom), hk, if_neg Bool.false_ne_true]
      split
      · exact .inl (List.mem_append_right _ List.mem_cons_self)
      · exact .inr List.mem_cons_self

theorem openSweeps_sched_congr (ks : List SweepKind) : ∀ {s t : State}, t.sched = s.sched →
    (openSweeps ks t).sched = (openSweeps ks s).sched := by
  induction ks with
  | nil => exact fun h => h
  | cons k ks ih => exact fun h => ih (openSweep_sched_congr k h)

/-! One slot's evaluation (R148). -/

theorem slotSweeps_congr (h : tableGet t.slots.armed k = tableGet s.slots.armed k) (stamp : Nat) :
    slotSweeps t stamp k = slotSweeps s stamp k := by
  rw [slotSweeps, h, slotSweeps]

/-- A slot that opens no sweep is left as it is. -/
theorem evaluateSlot_of_no_sweep {stamp k : Nat} (h : slotSweeps s stamp k = []) : evaluateSlot stamp s k = s := by
  unfold slotSweeps at h
  unfold evaluateSlot
  cases ha : tableGet s.slots.armed k with
  | none => rfl
  | some a =>
    rw [ha] at h
    simp only [List.append_eq_nil_iff, ite_eq_right_iff, List.cons_ne_self, imp_false] at h
    obtain ⟨hstart, hend⟩ := h
    have hs : startsNow stamp a = false := by simpa [startsNow] using hstart
    have he : endsNow stamp a = false := by simpa [endsNow] using hend
    simp only [hs, he, Bool.or_self, Bool.false_eq_true, if_false]

theorem slotAfter_of_no_sweep {stamp k : Nat} {a : ArmedSlot} (ha : tableGet s.slots.armed k = some a)
    (h : slotSweeps s stamp k = []) : slotAfter stamp a = a.state := by
  unfold slotSweeps at h
  rw [ha] at h
  simp only [List.append_eq_nil_iff, ite_eq_right_iff, List.cons_ne_self, imp_false] at h
  rw [slotAfter, if_neg h.2, if_neg h.1]

/-- A slot that opens a sweep moves, its sweeps opened in turn. -/
theorem evaluateSlot_of_sweep {stamp k : Nat} (h : slotSweeps s stamp k ≠ []) : ∃ a, tableGet s.slots.armed k = some a ∧
    slotAfter stamp a ≠ a.state ∧
    evaluateSlot stamp s k = setSlotState k (slotAfter stamp a) (openSweeps (slotSweeps s stamp k) s) := by
  unfold slotSweeps at h
  cases ha : tableGet s.slots.armed k with
  | none => rw [ha] at h; exact absurd rfl h
  | some a =>
    have hsweeps : slotSweeps s stamp k = (if a.state = .open ∧ a.startStamp ≤ stamp then [.eventStart k a.event] else []) ++
        if (a.state = .open ∨ a.state = .showing) ∧ a.endStamp ≤ stamp then [.eventEnd k a.event] else [] := by
      rw [slotSweeps, ha]
    have hs : startsNow stamp a = true ↔ a.state = .open ∧ a.startStamp ≤ stamp := by simp [startsNow]
    have he : endsNow stamp a = true ↔ (a.state = .open ∨ a.state = .showing) ∧ a.endStamp ≤ stamp := by simp [endsNow]
    refine ⟨a, rfl, ?_, ?_⟩
    · rw [ha] at h
      unfold slotAfter
      split
      · next hend => rcases hend.1 with ho | ho <;> rw [ho] <;> decide
      · next hend =>
        split
        · next hstart => rw [hstart.1]; decide
        · next hstart => simp only [if_neg hstart, if_neg hend, List.append_nil, ne_eq, not_true_eq_false] at h
    · rw [ha] at h
      simp only [evaluateSlot, ha, hsweeps, slotAfter, Bool.or_eq_true, hs, he]
      by_cases hstart : a.state = .open ∧ a.startStamp ≤ stamp <;>
        by_cases hend : (a.state = .open ∨ a.state = .showing) ∧ a.endStamp ≤ stamp
      · rw [if_pos (Or.inl hstart), if_pos hend, if_pos hend, if_pos hstart, if_pos hend, if_pos hstart, if_pos hend]; rfl
      · rw [if_pos (Or.inl hstart), if_neg hend, if_neg hend, if_pos hstart, if_neg hend, if_pos hstart, if_neg hend, if_pos hstart]; rfl
      · rw [if_pos (Or.inr hend), if_pos hend, if_pos hend, if_neg hstart, if_pos hend, if_neg hstart, if_pos hend]; rfl
      · simp only [if_neg hstart, if_neg hend, List.append_nil, ne_eq, not_true_eq_false] at h

/-- The state words of the eight slots. -/
def slotStateWords : List Nat := (List.range 8).map fun k => slotWord k 6

theorem mem_slotStateWords {k : Nat} (hk : k < 8) : slotWord k 6 ∈ slotStateWords :=
  List.mem_map.2 ⟨k, List.mem_range.2 hk, rfl⟩

theorem slotWord_inj {k j w : Nat} (h : slotWord k w = slotWord j w) : k = j := by unfold slotWord at h; omega

/-- What the evaluation of a slot leaves of that slot, and of the others. -/
theorem evaluateSlot_armed_same (stamp k : Nat) (s : State) : tableGet (evaluateSlot stamp s k).slots.armed k =
    (tableGet s.slots.armed k).map fun a => { a with state := slotAfter stamp a } := by
  by_cases h : slotSweeps s stamp k = []
  · rw [evaluateSlot_of_no_sweep h]
    cases ha : tableGet s.slots.armed k with
    | none => rfl
    | some a => rw [Option.map_some, slotAfter_of_no_sweep ha h]
  · obtain ⟨a, ha, -, hev⟩ := evaluateSlot_of_sweep h
    rw [hev, armed_setSlotState_same, openSweeps_slots, ha]
    rfl

theorem evaluateSlot_armed_other (stamp : Nat) {k j : Nat} (s : State) (hj : j ≠ k) :
    tableGet (evaluateSlot stamp s k).slots.armed j = tableGet s.slots.armed j := by
  by_cases h : slotSweeps s stamp k = []
  · rw [evaluateSlot_of_no_sweep h]
  · obtain ⟨a, -, -, hev⟩ := evaluateSlot_of_sweep h
    rw [hev, armed_setSlotState_other _ _ hj, openSweeps_slots]

/-- What an evaluated slot shows in its state word. -/
def slotWordAfter (s : State) (stamp k : Nat) : Word :=
  match tableGet s.slots.armed k with
  | some a => if slotAfter stamp a = a.state then rd s (slotWord k 6) else wordOf (slotAfter stamp a).code
  | none => rd s (slotWord k 6)

theorem evaluateSlot_word_same (stamp : Nat) {k : Nat} (hm : MemWf s.mem) :
    rd (evaluateSlot stamp s k) (slotWord k 6) = slotWordAfter s stamp k := by
  unfold slotWordAfter
  by_cases h : slotSweeps s stamp k = []
  · rw [evaluateSlot_of_no_sweep h]
    cases ha : tableGet s.slots.armed k with
    | none => rfl
    | some a => exact (if_pos (slotAfter_of_no_sweep ha h)).symm
  · obtain ⟨a, ha, hne, hev⟩ := evaluateSlot_of_sweep h
    simp only [ha, if_neg hne]
    rw [hev]
    exact rd_setSlotState_same k _ ((openSweeps_moves (can := fun _ => True) _ s).mem hm)

theorem evaluateSlot_kept (stamp k : Nat) (hring : RingLaw s) :
    KeptOutside (withRings [slotWord k 6]) s (evaluateSlot stamp s k) := by
  by_cases h : slotSweeps s stamp k = []
  · rw [evaluateSlot_of_no_sweep h]; exact KeptOutside.refl s
  · obtain ⟨a, -, -, hev⟩ := evaluateSlot_of_sweep h
    rw [hev]
    exact (openSweeps_kept _ hring).withRings.trans ((wordsKept_setSlotState k _ _).withRings (List.Subset.refl _))

theorem evaluateSlot_sched (stamp k : Nat) (s : State) :
    (evaluateSlot stamp s k).sched = (openSweeps (slotSweeps s stamp k) s).sched := by
  by_cases h : slotSweeps s stamp k = []
  · rw [evaluateSlot_of_no_sweep h, h]; rfl
  · obtain ⟨a, -, -, hev⟩ := evaluateSlot_of_sweep h
    rw [hev, setSlotState_frame]

theorem evaluateSlot_recordsKept (stamp : Nat) {k : Nat} (hk : k < 8) (s : State) :
    RecordsKept s (evaluateSlot stamp s k) := by
  by_cases h : slotSweeps s stamp k = []
  · rw [evaluateSlot_of_no_sweep h]; exact RecordsKept.refl s
  · obtain ⟨a, -, -, hev⟩ := evaluateSlot_of_sweep h
    rw [hev]
    refine (openSweeps_recordsKept _ s).trans (RingsKept.recordsKept ?_ (by rw [setSlotState_frame]))
    exact (wordsKept_setSlotState k _ _).ringsKept (by simpa using ringPlace_slotWord hk (by decide))

theorem evaluateSlot_frame (stamp k : Nat) (s : State) : evaluateSlot stamp s k = { s with
    mem := (evaluateSlot stamp s k).mem, port := (evaluateSlot stamp s k).port
    slots := { s.slots with armed := (evaluateSlot stamp s k).slots.armed }
    sched := (evaluateSlot stamp s k).sched, writer := (evaluateSlot stamp s k).writer
    flags := (evaluateSlot stamp s k).flags } := by
  by_cases h : slotSweeps s stamp k = []
  · rw [evaluateSlot_of_no_sweep h]
  · obtain ⟨a, -, -, hev⟩ := evaluateSlot_of_sweep h
    rw [hev, setSlotState_frame, openSweeps_frame]

/-! The evaluation of slots in turn. -/

/-- R148: the slots of a list, each named once, have been evaluated, and no other. -/
structure EvaluatedIn (l : List Nat) (stamp : Nat) (s t : State) : Prop where
  armed : ∀ j, tableGet t.slots.armed j =
    if j ∈ l then (tableGet s.slots.armed j).map fun a => { a with state := slotAfter stamp a } else tableGet s.slots.armed j
  word : ∀ j, j < 8 → rd t (slotWord j 6) = if j ∈ l then slotWordAfter s stamp j else rd s (slotWord j 6)
  sched : t.sched = (openSweeps (l.flatMap (slotSweeps s stamp)) s).sched
  kept : KeptOutside (withRings slotStateWords) s t
  records : RecordsKept s t
  frame : t = { s with
    mem := t.mem, port := t.port, slots := { s.slots with armed := t.slots.armed }, sched := t.sched, writer := t.writer
    flags := t.flags }

theorem evaluatedIn_foldl (stamp : Nat) (l : List Nat) : ∀ s : State, l.Nodup → (∀ j ∈ l, j < 8) → MemWf s.mem →
    RingLaw s → EvaluatedIn l stamp s (l.foldl (evaluateSlot stamp) s) := by
  induction l with
  | nil =>
    exact fun s _ _ _ _ => ⟨fun _ => rfl, fun _ _ => rfl, rfl, KeptOutside.refl s, RecordsKept.refl s, rfl⟩
  | cons k l ih =>
    intro s hnodup hlt hm hring
    obtain ⟨hk, hl⟩ := List.nodup_cons.1 hnodup
    have hk8 := hlt k List.mem_cons_self
    have hmoves := evaluateSlot_moves (can := fun _ => True) stamp s k
    have hrest := ih (evaluateSlot stamp s k) hl (fun j hj => hlt j (List.mem_cons_of_mem _ hj)) (hmoves.mem hm) (hmoves.ring hring)
    have hother (j : Nat) (hj : j ≠ k) : tableGet (evaluateSlot stamp s k).slots.armed j = tableGet s.slots.armed j :=
      evaluateSlot_armed_other stamp s hj
    have hword (j : Nat) (hj : j ≠ k) (hj8 : j < 8) : rd (evaluateSlot stamp s k) (slotWord j 6) = rd s (slotWord j 6) :=
      evaluateSlot_kept stamp k hring _ (by
        rw [← Bool.not_eq_true, withRings_iff, List.mem_singleton, ringPlace_slotWord hj8 (by decide)]
        exact fun h => h.elim (fun h => hj (slotWord_inj h)) (fun h => Bool.noConfusion h))
    refine ⟨fun j => ?_, fun j hj8 => ?_, ?_, ?_, ?_, ?_⟩
    · rw [List.foldl_cons, hrest.armed j]
      by_cases hj : j = k
      · subst hj
        rw [if_neg hk, if_pos List.mem_cons_self, evaluateSlot_armed_same]
      · simp only [List.mem_cons, hj, false_or, hother j hj]
    · rw [List.foldl_cons, hrest.word j hj8]
      by_cases hj : j = k
      · subst hj
        rw [if_neg hk, if_pos List.mem_cons_self, evaluateSlot_word_same stamp hm]
      · simp only [List.mem_cons, hj, false_or, hword j hj hj8, slotWordAfter, hother j hj]
    · have hsame : l.flatMap (slotSweeps (evaluateSlot stamp s k) stamp) = l.flatMap (slotSweeps s stamp) :=
        List.flatMap_congr fun j hj => slotSweeps_congr (hother j fun h => hk (h ▸ hj)) stamp
      rw [List.foldl_cons, hrest.sched, hsame, List.flatMap_cons, openSweeps_append]
      exact openSweeps_sched_congr _ (evaluateSlot_sched stamp k s)
    · refine ((evaluateSlot_kept stamp k hring).withRings_mono ?_).trans hrest.kept
      simpa using mem_slotStateWords hk8
    · exact (evaluateSlot_recordsKept stamp hk8 s).trans hrest.records
    · rw [List.foldl_cons, hrest.frame, evaluateSlot_frame]

theorem evaluateSlots_evaluated (stamp : Nat) (hm : MemWf s.mem) (hring : RingLaw s) :
    EvaluatedIn (List.range 8) stamp s (evaluateSlots stamp s) :=
  evaluatedIn_foldl stamp (List.range 8) s List.nodup_range (fun _ => List.mem_range.1) hm hring

theorem EvaluatedIn.slotsEvaluated {stamp : Nat} (h : EvaluatedIn (List.range 8) stamp s t) : SlotsEvaluated stamp s t := by
  intro j hj
  have harmed := h.armed j
  have hword := h.word j hj
  rw [if_pos (List.mem_range.2 hj)] at harmed hword
  refine ⟨fun hnone => ?_, fun a ha => ?_⟩
  · rw [harmed, hword, slotWordAfter, hnone]; exact ⟨rfl, rfl⟩
  · rw [harmed, hword, slotWordAfter, ha]; exact ⟨rfl, rfl⟩

/-- An evaluation that opens no sweep changes nothing. -/
theorem evaluateSlots_of_no_sweep {stamp : Nat} (h : openedSweeps s stamp = []) : evaluateSlots stamp s = s := by
  have hall (l : List Nat) (hl : ∀ j ∈ l, slotSweeps s stamp j = []) : l.foldl (evaluateSlot stamp) s = s := by
    induction l with
    | nil => rfl
    | cons k l ih =>
      rw [List.foldl_cons, evaluateSlot_of_no_sweep (hl k List.mem_cons_self)]
      exact ih fun j hj => hl j (List.mem_cons_of_mem _ hj)
  exact hall _ fun j hj => List.flatMap_eq_nil_iff.1 h j hj

theorem openedSweeps_congr (h : t.slots = s.slots) (stamp : Nat) : openedSweeps t stamp = openedSweeps s stamp :=
  List.flatMap_congr fun _ _ => slotSweeps_congr (by rw [h]) stamp

/-! The release of the hold (R135). -/

/-- A part in STARTING neither tests its quiet condition nor grants its link. -/
theorem settle_of_starting (h : u.part.state = .starting) : settle u = u := by
  have hquiet : quietTest u = u := quietTest_eq_self (by rw [h]; decide)
  rw [settle, hquiet, arbiterDecide, if_neg fun c => by rw [h] at c; exact absurd c.2.1 (by decide)]

/-- An append takes its details as words. -/
theorem logAppend_congr {x a b c x' a' b' c' : Nat} (hx : wordOf x = wordOf x') (ha : wordOf a = wordOf a')
    (hb : wordOf b = wordOf b') (hc : wordOf c = wordOf c') (k : LogKind) (s : State) :
    logAppend k x a b c s = logAppend k x' a' b' c' s := by
  simp only [logAppend, hx, ha, hb, hc]

theorem wordOf_mod (n : Nat) : wordOf (n % 65536) = wordOf n := by
  apply BitVec.eq_of_toNat_eq
  simp only [wordOf, BitVec.toNat_ofNat]
  omega

/-- R135 step 4: CLOCK_SET with the two words of the hold time's stamp. -/
theorem logClockSet_eq (hold : Nat) (valid : Bool) (s : State) : logClockSet hold valid s =
    logAppend .clockSet 0 (hold % 65536) (hold / 65536) (if valid then 1 else 0) s := by
  refine logAppend_congr rfl (congrArg wordOf (BitVec.toNat_ofNat _ _)) ?_ rfl _ _
  exact (congrArg wordOf (BitVec.toNat_ofNat _ _)).trans (wordOf_mod _)

/-- The state in which CLOCK_SET has been logged. -/
def clockReleased (s : State) : State := logClockSet (stampOf s.clock.holdTime) s.clock.valid (releaseHold s)

/-- The state a release ends in: the slots evaluated, or the release noted in STARTING. -/
def released (s : State) : State :=
  if s.part.state = .starting then { clockReleased s with slots := { s.slots with noted := true } }
  else evaluateSlots (stampOf (clampCalendar s.clock.now)) (clockReleased s)

theorem clockReleased_frame (s : State) : clockReleased s = { s with
    mem := (clockReleased s).mem, port := (clockReleased s).port, clock := (releaseHold s).clock
    writer := (clockReleased s).writer, flags := (clockReleased s).flags } := by
  unfold clockReleased logClockSet
  rw [logAppend_frame]
  rfl

theorem currentStamp_clockReleased (s : State) : currentStamp (clockReleased s) = stampOf (clampCalendar s.clock.now) := by
  rw [currentStamp, clockReleased_frame]
  rfl

theorem clockReleased_slots (s : State) : (clockReleased s).slots = s.slots := by rw [clockReleased_frame]

theorem exec_clockRelease {l : Lanes} {d : Word} (hr : running s = true) (hlow : l.lower = true) (hd : d.getLsbD 0 = false)
    (hset : s.clock.set = true) : exec (.clockControlWrite l d) s = .next (concluded s (released s)) := by
  have hl : noLanes l = false := by simp [noLanes, hlow]
  have hbit : (mergeLanes l (clockControlWord s) d).getLsbD 0 = false := by rw [controlBit, if_pos hlow, hd]
  have hwrite : writeClockControl l d s = releaseClock s := by
    rw [writeClockControl, hbit, if_neg (by simp [hset]), if_pos ⟨hset, rfl⟩]
  have hrelease : releaseClock s = settle (released s) := by
    by_cases hstart : s.part.state = .starting
    · rw [settle_of_starting (by rw [released, if_pos hstart, clockReleased_frame]; exact hstart), released, if_pos hstart,
        releaseClock, if_pos hstart]
      rw [← clockReleased, clockReleased_slots]
    · rw [released, if_neg hstart, releaseClock, if_neg hstart, ← currentStamp_clockReleased]
      rfl
  show Host.Outcome.next (latchArisen s (hostWrite (addrOf 0x0A) l d s)) = _
  rw [hostWrite_clockControl hr hl, hwrite, hrelease, concluded]

theorem released_clock (s : State) : (released s).clock = (releaseHold s).clock := by
  unfold released
  split
  · rw [clockReleased_frame]
  · show (List.foldl (evaluateSlot _) (clockReleased s) (List.range 8)).clock = _
    have hkeep (l : List Nat) (v : State) : (l.foldl (evaluateSlot (stampOf (clampCalendar s.clock.now))) v).clock = v.clock := by
      induction l generalizing v with
      | nil => rfl
      | cons k l ih => rw [List.foldl_cons, ih, evaluateSlot_frame]
    rw [hkeep, clockReleased_frame]

theorem clockReleased_eq (s : State) : clockReleased s = logAppend .clockSet 0 (stampOf s.clock.holdTime % 65536)
    (stampOf s.clock.holdTime / 65536) (if s.clock.valid then 1 else 0) (releaseHold s) := logClockSet_eq _ _ _

theorem clockReleased_moves (s : State) : Moves (fun _ => True) s (clockReleased s) :=
  (releaseHold_moves s).trans (logAppend_moves _ _ _ _ _ _)

theorem clockReleased_kept (hring : RingLaw s) : KeptOutside ringPlace s (clockReleased s) :=
  fun a ha => logAppend_kept (s := releaseHold s) hring _ _ _ _ _ a ha

/-- What the slots' evaluation says against a state, it says against one with the same slots and state words. -/
theorem SlotsEvaluated.of_kept {stamp : Nat} {v : State} (h : SlotsEvaluated stamp v t) (hs : v.slots = s.slots)
    (hk : KeptOutside ringPlace s v) : SlotsEvaluated stamp s t := by
  intro j hj
  obtain ⟨hnone, hsome⟩ := h j hj
  rw [hs, hk _ (ringPlace_slotWord hj (by decide))] at hnone hsome
  exact ⟨hnone, hsome⟩

/-- Settles O17: the release logs CLOCK_SET and then evaluates the slots, which keep what was logged. -/
theorem controlWriteReleasesTheClock : Obligations.ControlWriteReleasesTheClock := by
  unfold Obligations.ControlWriteReleasesTheClock
  intro l d s hm hring hr hlow hd hset
  have hclock := released_clock s
  have hkept := clockReleased_kept (s := s) hring
  have hrecord : RecordsKept (clockReleased s) (released s) → LoggedFirst .clockSet 0 (stampOf s.clock.holdTime % 65536)
      (stampOf s.clock.holdTime / 65536) (if s.clock.valid then 1 else 0) { s with clock := (released s).clock } (released s) :=
    fun h => loggedFirst_logAppend (v := releaseHold s) hm hring rfl hclock.symm (clockReleased_eq s ▸ h)
  have hlogged : (released s).mem = (clockReleased s).mem → (released s).writer = (clockReleased s).writer →
      Logged .clockSet 0 (stampOf s.clock.holdTime % 65536)
      (stampOf s.clock.holdTime / 65536) (if s.clock.valid then 1 else 0) { s with clock := (released s).clock } (released s) :=
    fun h hw => logged_logAppend (v := releaseHold s) hm hring rfl hclock.symm
      (RingsKept.of_mem (h.trans (congrArg State.mem (clockReleased_eq s)))) (hw.trans (congrArg State.writer (clockReleased_eq s)))
  have hev := evaluateSlots_evaluated (stampOf (clampCalendar s.clock.now)) ((clockReleased_moves s).mem hm)
    ((clockReleased_moves s).ring hring)
  refine ⟨released s, exec_clockRelease hr hlow hd hset, ?_⟩
  simp only [hclock]
  refine ⟨rfl, rfl, rfl, Nat.zero_max _, rfl, by simp [releaseHold, clampCalendar, clampNat], Nat.zero_max _, Nat.zero_max _,
    Nat.zero_max _, rfl, rfl, rfl, rfl, ?_⟩
  simp only [hclock] at hrecord hlogged
  by_cases hstart : s.part.state = .starting
  · have hu : released s = { clockReleased s with slots := { s.slots with noted := true } } := if_pos hstart
    rw [hu] at hrecord hlogged ⊢
    refine ⟨hkept.withRings, hrecord (RecordsKept.refl _), fun _ => ⟨rfl, ⟨rfl, fun j hj => ?_⟩, ?_⟩,
      fun h => absurd hstart h, fun _ => hlogged rfl rfl, ?_⟩
    · exact hkept _ (ringPlace_slotWord hj (by decide))
    · show (clockReleased s).sched = s.sched
      rw [clockReleased_frame]
    · rw [clockReleased_frame]
  · have hu : released s = evaluateSlots (stampOf (clampCalendar s.clock.now)) (clockReleased s) := if_neg hstart
    have hsame : openedSweeps (clockReleased s) (stampOf (clampCalendar s.clock.now)) =
        openedSweeps s (stampOf (clampCalendar s.clock.now)) := openedSweeps_congr (clockReleased_slots s) _
    have hnow : (releaseHold s).clock.now = clampCalendar s.clock.now := rfl
    rw [hu] at hrecord hlogged ⊢
    simp only [hnow]
    refine ⟨hkept.withRings.trans hev.kept, hrecord hev.records, fun h => absurd h hstart,
      fun _ => ⟨?_, hev.slotsEvaluated.of_kept (clockReleased_slots s) hkept, ?_⟩, fun h => ?_, ?_⟩
    · rw [hev.frame, clockReleased_slots]
    · rw [hev.sched]
      exact (congrArg (fun ks => (openSweeps ks (clockReleased s)).sched) hsame).trans
        (openSweeps_sched_congr _ (by rw [clockReleased_frame]))
    · have hsame := evaluateSlots_of_no_sweep (hsame.trans (h.resolve_left hstart))
      exact hlogged (congrArg State.mem hsame) (congrArg State.writer hsame)
    · rw [hev.frame, clockReleased_frame]

end Sys2Proof.Machine


/-! ## The plan and the line-up (R19 to R21, R36 to R42, R118) -/

namespace Sys2Proof.Machine

variable {s t u : State}

/-! Shared facts. -/

/-- With the quiet condition not met, an event that prompts the arbiter changes the link alone. -/
theorem settle_link_of_not_rest (h : ¬comesToRest u) :
    settle u = { u with sched := { u.sched with link := (settle u).sched.link } } := by
  rw [settle_of_not_rest h, arbiterDecide_frame]

/-! The flags latched at the end of a command are no part of what the command is stated to do elsewhere. -/

@[simp] theorem latchArisen_port (s t : State) : (latchArisen s t).port = t.port := by rw [latchArisen_frame]
@[simp] theorem latchArisen_path (s t : State) : (latchArisen s t).path = t.path := by rw [latchArisen_frame]
@[simp] theorem latchArisen_plan (s t : State) : (latchArisen s t).plan = t.plan := by rw [latchArisen_frame]
@[simp] theorem latchArisen_lineup (s t : State) : (latchArisen s t).lineup = t.lineup := by rw [latchArisen_frame]
@[simp] theorem latchArisen_tracker (s t : State) : (latchArisen s t).tracker = t.tracker := by rw [latchArisen_frame]
@[simp] theorem latchArisen_receiver (s t : State) : (latchArisen s t).receiver = t.receiver := by rw [latchArisen_frame]
@[simp] theorem latchArisen_slots (s t : State) : (latchArisen s t).slots = t.slots := by rw [latchArisen_frame]
@[simp] theorem latchArisen_time (s t : State) : (latchArisen s t).time = t.time := by rw [latchArisen_frame]

@[simp] theorem rd_latchArisen (s t : State) (a : Nat) : rd (latchArisen s t) a = rd t a := by rw [latchArisen_frame]; rfl

@[simp] theorem wordsKept_latchArisen (ws : List Nat) (v : State) : WordsKept ws s (latchArisen v t) ↔ WordsKept ws s t := by
  simp only [WordsKept, rd_latchArisen]

@[simp] theorem keptOutside_latchArisen (p : Nat → Bool) (v : State) :
    KeptOutside p s (latchArisen v t) ↔ KeptOutside p s t := by
  simp only [KeptOutside, rd_latchArisen]

@[simp] theorem logged_latchArisen (k : LogKind) (x a b c : Nat) (v : State) :
    Logged k x a b c s (latchArisen v t) ↔ Logged k x a b c s t := by
  simp only [Logged, RecordAt, rdPair, rd_latchArisen, latchArisen_writer]

@[simp] theorem loggedFirst_latchArisen (k : LogKind) (x a b c : Nat) (v : State) :
    LoggedFirst k x a b c s (latchArisen v t) ↔ LoggedFirst k x a b c s t := by
  simp only [LoggedFirst, RecordAt, rdPair, rd_latchArisen]

/-- The flags that the conditions have latched after an operation that latches none itself. -/
theorem flagsFollow_latchArisen (h : u.flags = s.flags) : FlagsFollow s (latchArisen s u) := by
  have hc : conditions (latchArisen s u) = conditions u := by rw [latchArisen_frame]; rfl
  rw [FlagsFollow, latchArisen_part, latchArisen_flags, hc, h]

/-- R4: a host write that its observer takes. -/
theorem hostWrite_watched {a : Nat} {l : Lanes} (hr : running s = true) (hl : noLanes l = false)
    (hs : s.part.state ≠ .starting) (ha : (addrOf a).toNat = a) (hh : inHeadEndRecord a = false)
    (hw : wordClass a = .watched) (d : Word) :
    hostWrite (addrOf a) l d s = observedWrite (addrOf a) (mergeLanes l (rd s a) d) s := by
  rw [hostWrite_taken hr hl, writeDecision_watched (by rw [ha]; exact hh) (by rw [ha]; exact hw) hs, ha]

/-- A row's outcome, where the conditions stay as they are. -/
theorem next_latchArisen {v : State} (h : v = t) (hc : conditions t = conditions s) :
    (Host.Outcome.next (latchArisen s v) : Host.Outcome State Fault Refusal) = .next t := by
  rw [h, latchArisen_eq_self hc]

/-! Writes that start and abort checks (R20, R36, R37, R41). -/

theorem observedWrite_planCheck (w : Word) (s : State) :
    observedWrite (addrOf planCheckWord) w s = startPlanCheck w (hostStore s planCheckWord bothLanes w) := rfl

theorem exec_planCheckWordWrite {l : Lanes} (hr : running s = true) (hl : noLanes l = false)
    (hs : s.part.state ≠ .starting) (d : Word) : exec (.planCheckWordWrite l d) s =
      .next (startPlanCheck (mergeLanes l (rd s planCheckWord) d)
        (hostStore s planCheckWord bothLanes (mergeLanes l (rd s planCheckWord) d))) :=
  next_latchArisen ((hostWrite_watched hr hl hs (a := planCheckWord) rfl rfl rfl d).trans (observedWrite_planCheck _ s)) rfl

theorem observedWrite_commit (w : Word) (s : State) :
    observedWrite (addrOf commitWord) w s = startCommitCheck w (hostStore s commitWord bothLanes w) := rfl

theorem exec_commitWordWrite {l : Lanes} (hr : running s = true) (hl : noLanes l = false)
    (hs : s.part.state ≠ .starting) (d : Word) : exec (.commitWordWrite l d) s =
      .next (startCommitCheck (mergeLanes l (rd s commitWord) d)
        (hostStore s commitWord bothLanes (mergeLanes l (rd s commitWord) d))) :=
  next_latchArisen ((hostWrite_watched hr hl hs (a := commitWord) rfl rfl rfl d).trans (observedWrite_commit _ s)) rfl

theorem toNat_addrOf_lineup (k : Fin 384) : (addrOf (0x400 + k.val)).toNat = 0x400 + k.val :=
  Laws.Operands.addrOf_toNat (by have := k.isLt; omega)

theorem observedWrite_lineup (k : Fin 384) (w : Word) (s : State) : observedWrite (addrOf (0x400 + k.val)) w s =
    lineupEdited (k.val / 4) (hostStore s (0x400 + k.val) bothLanes w) := by
  have h₁ : planCheckWord = 0x7F := rfl
  have h₂ : commitWord = 0x580 := rfl
  have h₃ : logTailWord = 0x121 := rfl
  have h₄ : journalTailWord = 0x124 := rfl
  have hk := k.isLt
  unfold observedWrite
  simp (disch := omega) only [toNat_addrOf_lineup, if_neg, if_pos, Nat.add_sub_cancel_left]

theorem lineupWord_class (k : Fin 384) :
    inHeadEndRecord (0x400 + k.val) = false ∧ wordClass (0x400 + k.val) = .watched := by
  have hk := k.isLt
  refine ⟨?_, (Laws.Operands.lineupWordWrite k bothLanes 0 rfl _ rfl).2 _ rfl⟩
  simp only [inHeadEndRecord, Bool.and_eq_false_imp, decide_eq_true_eq, decide_eq_false_iff_not]
  omega

theorem ringPlace_lineup (k : Fin 384) : ringPlace (0x400 + k.val) = false := by
  have hk := k.isLt
  rw [ringPlace_eq_false_iff]
  omega

/-- Settles O18: each write is stored and then taken by its checker; an abort's record is logged outside the line-up table. -/
theorem planAndLineupWritesAreObserved : Obligations.PlanAndLineupWritesAreObserved := by
  unfold Obligations.PlanAndLineupWritesAreObserved
  refine ⟨fun l d s hm hr hl hs => ⟨?_, ?_⟩, fun k l d s hm hring hr hl hs => ?_⟩
  · have hrd := rd_hostStore_merged s planCheckWord l d hm
    have hkept := hostStore_wordsKept s planCheckWord bothLanes (mergeLanes l (rd s planCheckWord) d)
    refine ⟨_, exec_planCheckWordWrite hr hl hs d, hrd, hkept, ?_, rfl⟩
    exact congrArg (fun w => ({ s.plan with check := some { expected := w, words := [] } } : PlanChecker)) hrd.symm
  · have hrd := rd_hostStore_merged s commitWord l d hm
    have hkept := hostStore_wordsKept s commitWord bothLanes (mergeLanes l (rd s commitWord) d)
    refine ⟨_, exec_commitWordWrite hr hl hs d, hrd, hkept, congrArg some hrd.symm, rfl, rfl, rfl, fun k hk => ?_, rfl⟩
    have hword : rd (hostStore s commitWord bothLanes (mergeLanes l (rd s commitWord) d)) (0x400 + k) = rd s (0x400 + k) :=
      hkept _ (by simp only [List.mem_singleton, commitWord]; omega)
    show (lineupWords _)[k]? = _
    rw [lineupWords, List.getElem?_map, List.getElem?_range hk, Option.map_some, hword]
  · obtain ⟨hh, hw⟩ := lineupWord_class k
    have hwrite := hostWrite_watched hr hl hs (toNat_addrOf_lineup k) hh hw d
    rw [observedWrite_lineup] at hwrite
    have hrd := rd_hostStore_merged s (0x400 + k.val) l d hm
    have hwf := hostStore_wf s (0x400 + k.val) bothLanes (mergeLanes l (rd s (0x400 + k.val)) d) hm
    have hkept := hostStore_wordsKept s (0x400 + k.val) bothLanes (mergeLanes l (rd s (0x400 + k.val)) d)
    have hexec : exec (.lineupWordWrite k l d) s = .next (latchArisen s (lineupEdited (k.val / 4)
        (hostStore s (0x400 + k.val) bothLanes (mergeLanes l (rd s (0x400 + k.val)) d)))) :=
      congrArg (fun v => Host.Outcome.next (latchArisen s v)) hwrite
    refine ⟨_, hexec, ?_⟩
    generalize hv : hostStore s (0x400 + k.val) bothLanes (mergeLanes l (rd s (0x400 + k.val)) d) = v at hrd hwf hkept
    have hframe : v = { s with mem := v.mem, port := v.port } := by rw [← hv, hostStore_frame]
    have hlineup : v.lineup = s.lineup := by rw [hframe]
    cases hcheck : s.lineup.check with
    | none =>
      have hedited : lineupEdited (k.val / 4) v = { v with lineup := { s.lineup with edited := true } } := by
        simp only [lineupEdited, hlineup, hcheck]
      rw [hedited]
      have hfollow := flagsFollow_latchArisen (s := s) (u := { v with lineup := { s.lineup with edited := true } })
        (by rw [hframe])
      simp only [rd_latchArisen, latchArisen_lineup, wordsKept_latchArisen]
      refine ⟨hrd, trivial, hcheck, trivial, fun _ => ⟨by simp only, hkept, hfollow, ?_⟩, fun h => absurd rfl h⟩
      rw [latchArisen_frame, hframe]
    | some e =>
      have hedited : lineupEdited (k.val / 4) v = logAppend .lineupCommit (k.val / 4) 7 e.toNat 0 { v with lineup :=
          { s.lineup with edited := true, check := none, candidate := [], last := some .edited } } := by
        simp only [lineupEdited, hlineup, hcheck]
        rfl
      rw [hedited]
      generalize hw : ({ v with lineup :=
          { s.lineup with edited := true, check := none, candidate := [], last := some .edited } } : State) = w
      have hwframe : w = { s with mem := v.mem, port := v.port, lineup :=
          { s.lineup with edited := true, check := none, candidate := [], last := some .edited } } := by
        rw [← hw, hframe]
      have hwmem : w.mem = v.mem := by rw [hwframe]
      have hlog : KeptOutside ringPlace v (logAppend .lineupCommit (k.val / 4) 7 e.toNat 0 w) := fun a ha =>
        (logAppend_kept (s := w) (by rw [hwframe]; exact hring) _ _ _ _ _ a ha).trans (rd_congr hwmem a)
      have hlineup' : (logAppend .lineupCommit (k.val / 4) 7 e.toNat 0 w).lineup =
          { s.lineup with edited := true, check := none, candidate := [], last := some .edited } := by
        rw [logAppend_frame, hwframe]
      simp only [rd_latchArisen, latchArisen_lineup, wordsKept_latchArisen, keptOutside_latchArisen, logged_latchArisen, hlineup']
      refine ⟨(hlog _ (ringPlace_lineup k)).trans hrd, trivial, trivial, trivial, fun h => (by cases h), fun _ => ⟨trivial, ?_, ?_, ?_⟩⟩
      · intro e' he
        cases he
        exact logged_logAppend (by rw [hwmem]; exact hwf) hring (by rw [hwframe]) (by rw [hwframe]) (fun _ _ => rfl) rfl
      · exact (hkept.withRings (List.Subset.refl _)).trans hlog.withRings
      · rw [latchArisen_frame, logAppend_frame, hwframe]

end Sys2Proof.Machine


/-! ## Checks at their completion (R19 to R21, R38 to R40, R118) -/

namespace Sys2Proof.Machine

variable {s t u : State}

/-! The plan check (R21). -/

/-- The Plan Checker after a check with outcome `r` over the words read. -/
def planAfter (r : PlanResult) (ws : List Word) (s : State) : PlanChecker :=
  { s.plan with copy := if r = .ok then some (loadPlan ws) else s.plan.copy, check := none, last := some r }

/-- The Plant Monitor after it. -/
def plantAfter (r : PlanResult) (ws : List Word) (s : State) : Plant := if r = .ok then (loadWorkingCopy ws s).plant else s.plant

/-- The state in which the outcome of a check is held. -/
def planHeld (k : PlanCheck) (s : State) : State :=
  let ws := k.words ++ planWordsFrom s k.words.length
  let r := planOutcome k.expected ws
  { s with plan := planAfter r ws s, plant := plantAfter r ws s }

/-- The state in which it has been logged. -/
def planChecked (k : PlanCheck) (s : State) : State :=
  let ws := k.words ++ planWordsFrom s k.words.length
  logAppend .planCommit 0 (planOutcome k.expected ws).code k.expected.toNat (crcOfWords ws).toNat (planHeld k s)

theorem completePlanCheck_eq (k : PlanCheck) (s : State) : completePlanCheck k s =
    afterPlanCheck (planOutcome k.expected (k.words ++ planWordsFrom s k.words.length)) (planChecked k s) := by
  unfold completePlanCheck planChecked planHeld planAfter plantAfter
  dsimp only
  split <;> rfl

theorem planChecked_frame (k : PlanCheck) (s : State) : planChecked k s = { s with
    mem := (planChecked k s).mem, port := (planChecked k s).port, plan := (planChecked k s).plan
    plant := (planChecked k s).plant, writer := (planChecked k s).writer, flags := (planChecked k s).flags } := by
  unfold planChecked planHeld
  dsimp only
  rw [logAppend_frame]

/-- What a completed check does to the part, by its state. -/
theorem afterPlanCheck_cases (r : PlanResult) (v : State) :
    (v.part.state = .starting ∧ v.part.startStep = 1 ∧ afterPlanCheck r v = beginStartupCommit (toStartStep 2 v)) ∨
    (v.part.state = .unplanned ∧ r = .ok ∧ afterPlanCheck r v = settle (enterServing v)) ∨
    (¬(v.part.state = .starting ∧ v.part.startStep = 1) ∧ ¬(v.part.state = .unplanned ∧ r = .ok) ∧ afterPlanCheck r v = v) := by
  unfold afterPlanCheck
  cases hst : v.part.state with
  | starting =>
    by_cases hstep : v.part.startStep = 1
    · exact .inl ⟨rfl, hstep, if_pos hstep⟩
    · exact .inr (.inr ⟨fun h => hstep h.2, fun h => PartState.noConfusion h.1, if_neg hstep⟩)
  | unplanned =>
    by_cases hr : r = .ok
    · exact .inr (.inl ⟨rfl, hr, if_pos hr⟩)
    · exact .inr (.inr ⟨fun h => PartState.noConfusion h.1, fun h => hr h.2, if_neg hr⟩)
  | serving => exact .inr (.inr ⟨fun h => PartState.noConfusion h.1, fun h => PartState.noConfusion h.1, rfl⟩)
  | quiescing => exact .inr (.inr ⟨fun h => PartState.noConfusion h.1, fun h => PartState.noConfusion h.1, rfl⟩)
  | quiesced => exact .inr (.inr ⟨fun h => PartState.noConfusion h.1, fun h => PartState.noConfusion h.1, rfl⟩)

theorem enterServing_frame (s : State) : enterServing s = { s with
    mem := (enterServing s).mem, port := (enterServing s).port, writer := (enterServing s).writer
    flags := (enterServing s).flags, part := { s.part with state := .serving }
    sched := { (wakeRefresh s).sched with sweeps := (enterServing s).sched.sweeps } } := by
  unfold enterServing
  rw [openSweep_frame, wakeRefresh_frame]
  unfold wakeRefresh
  split <;> rfl

theorem wakeRefresh_sched (s : State) : (wakeRefresh s).sched = { s.sched with refresh := s.sched.refresh.woken } := by
  unfold wakeRefresh Refresh.woken
  split <;> rfl

theorem woken_resting (r : Refresh) : r.woken.resting = false := by
  unfold Refresh.woken
  split
  · rfl
  · next h => exact Bool.not_eq_true _ ▸ h

theorem enterServing_sweeps (s : State) : (enterServing s).sched.sweeps = (openSweep .resync s).sched.sweeps :=
  openSweep_sweeps_congr .resync (by rw [wakeRefresh_sched])

theorem enterServing_room (h : s.sched.sweeps.length < 4) :
    (enterServing s).mem = s.mem ∧ (enterServing s).writer = s.writer ∧ (enterServing s).port = s.port := by
  unfold enterServing
  have hlen : (wakeRefresh { s with part := { s.part with state := .serving } }).sched.sweeps.length < 4 := by
    rw [wakeRefresh_sched]; exact h
  rw [openSweep_room hlen, wakeRefresh_frame]
  exact ⟨rfl, rfl, rfl⟩

/-- A part that is SERVING has no quiet condition to meet. -/
theorem not_rest_of_state (h : u.part.state ≠ .quiescing) : ¬comesToRest u := fun c => h c.2.1

theorem planOutcome_code (e : Word) (ws : List Word) : (planOutcome e ws).code =
    if crcOfWords ws ≠ e then 1 else if (ws.getD 0 0).toNat ≠ 1 then 2 else 0 := by
  unfold planOutcome
  split
  · rfl
  · show (if (ws.getD 0 0).toNat ≠ 1 then PlanResult.format else PlanResult.ok).code = _
    split <;> rfl

theorem planResult_ok_iff (r : PlanResult) : r = .ok ↔ r.code = 0 := by cases r <;> decide

theorem planResult_of_code {r : PlanResult} (h : r.code ≠ 0) : r = if r.code = 1 then .crc else .format := by
  cases r
  · exact absurd rfl h
  · rfl
  · rfl

/-- R118: a warning the replaced copy did not disable and the new one does. -/
theorem turnsOn_eq {old : Option Plan} {new : Plan} {f : Plan → Bool} {b : Bool}
    (h : b = true ↔ f new = true ∧ ∃ p, old = some p ∧ f p = false) : (old.elim false fun p => f new && !f p) = b := by
  rw [Bool.eq_iff_iff, h]
  cases old with
  | none => simp
  | some p => simp

theorem loadWorkingCopy_plant (ws : List Word) (s : State) : (loadWorkingCopy ws s).plant = { s.plant with
    clearSlow := s.plant.clearSlow || s.plan.copy.elim false fun p => (loadPlan ws).slowDisabled && !p.slowDisabled
    clearStandby := s.plant.clearStandby || s.plan.copy.elim false fun p => (loadPlan ws).standbyDisabled && !p.standbyDisabled } := by
  unfold loadWorkingCopy
  cases s.plan.copy <;> rfl

theorem planChecked_plan (k : PlanCheck) (s : State) : (planChecked k s).plan =
    planAfter (planOutcome k.expected (k.words ++ planWordsFrom s k.words.length)) (k.words ++ planWordsFrom s k.words.length) s := by
  unfold planChecked planHeld
  dsimp only
  rw [logAppend_frame]

theorem planChecked_plant (k : PlanCheck) (s : State) : (planChecked k s).plant =
    plantAfter (planOutcome k.expected (k.words ++ planWordsFrom s k.words.length)) (k.words ++ planWordsFrom s k.words.length) s := by
  unfold planChecked planHeld
  dsimp only
  rw [logAppend_frame]

theorem planChecked_kept (hring : RingLaw s) (k : PlanCheck) : KeptOutside ringPlace s (planChecked k s) := fun a ha =>
  logAppend_kept (s := planHeld k s) hring _ _ _ _ _ a ha

theorem planChecked_ring (hring : RingLaw s) (k : PlanCheck) : RingLaw (planChecked k s) :=
  (logAppend_moves (can := fun _ => True) _ _ _ _ _ _).ring (show RingLaw (planHeld k s) from hring)

/-- R26 step 2: the candidate that the commit check takes. -/
theorem beginStartupCommit_lineup (v : State) : (beginStartupCommit v).lineup = { v.lineup with
    check := some (rd v 0x580), candidate := (List.range 384).map fun j => rd v (0x400 + j) } := rfl

theorem exec_planCheckComplete {k : PlanCheck} (hr : running s = true) (hk : s.plan.check = some k) :
    exec .planCheckComplete s = .next (latchArisen s (completePlanCheck k s)) := by
  show execPlanCheckComplete s = _
  rw [execPlanCheckComplete, hk]
  simp only [hr, if_true]

theorem clampNat_bounds (lo hi v : Nat) (h : lo ≤ hi) : lo ≤ clampNat lo hi v ∧ clampNat lo hi v ≤ hi :=
  ⟨Nat.le_max_left _ _, Nat.max_le.2 ⟨h, Nat.min_le_left _ _⟩⟩

/-- R19, 12.3: the working copy takes each of its fields from its word. -/
theorem loadPlan_fields (ws : List Word) (w : Nat → Nat) (p : Plan) (hw : ∀ j, w j = (ws.getD j 0).toNat) (hp : p = loadPlan ws) :
    (∀ x ∈ [(p.pollInterval, 1, 0, 7), (p.pollTimeout, 2, 1, 255), (p.latencyRange, 3, 0, 3),
         (p.slowThreshold, 4, 1, 255), (p.ackTimeout, 6, 1, 255), (p.retryWait, 7, 0, 255), (p.maxAttempts, 8, 1, 7),
         (p.grace, 9, 0, 1440), (p.noiseLimit, 30, 1, 127), (p.noiseHold, 31, 0, 127)],
       x.1 = max x.2.2.1 (min x.2.2.2 (w x.2.1)) ∧ x.2.2.1 ≤ x.1 ∧ x.1 ≤ x.2.2.2) ∧
     (∀ x ∈ [(p.closeDay, 26, 1, 28), (p.closeHour, 27, 0, 23), (p.closeMinute, 28, 0, 59)],
       x.1 = if w x.2.1 = 65535 then none else some (max x.2.2.1 (min x.2.2.2 (w x.2.1)))) ∧
     p.rates.length = 16 ∧ (∀ j, j < 16 → p.rates[j]? = some (w (10 + j))) ∧
     p.slowDisabled = (ws.getD 5 0).getLsbD 0 ∧ p.standbyDisabled = (ws.getD 5 0).getLsbD 1 ∧
     p.alertMask = ws.getD 29 0 := by
  have hword : w = planWordAt ws := funext hw
  subst hp hword
  have hclamp (lo hi v : Nat) (h : lo ≤ hi) : clampNat lo hi v = max lo (min hi v) ∧ lo ≤ clampNat lo hi v ∧ clampNat lo hi v ≤ hi :=
    ⟨rfl, clampNat_bounds lo hi v h⟩
  refine ⟨?_, ?_, by simp [loadPlan], fun j hj => by simp [loadPlan, hj], rfl, rfl, rfl⟩
  · simp only [List.forall_mem_cons, List.not_mem_nil, false_implies, implies_true, and_true]
    exact ⟨hclamp _ _ _ (by decide), hclamp _ _ _ (by decide), hclamp _ _ _ (by decide), hclamp _ _ _ (by decide),
      hclamp _ _ _ (by decide), hclamp _ _ _ (by decide), hclamp _ _ _ (by decide), hclamp _ _ _ (by decide),
      hclamp _ _ _ (by decide), hclamp _ _ _ (by decide)⟩
  · simp only [List.forall_mem_cons, List.not_mem_nil, false_implies, implies_true, and_true]
    exact ⟨rfl, rfl, rfl⟩

/-! The warnings a new plan disables (R118). -/

/-- A warning bit of an element's record. -/
def warningBit (s : State) (i b : Nat) : Bool := (rd s (elementWord i 7)).getLsbD b

/-- The number of elements in a list that hold a warning, if it is to be cleared. -/
def cleared (c : Bool) (s : State) (l : List Nat) (b : Nat) : Nat := if c then (l.filter fun i => warningBit s i b).length else 0

theorem warningWord_bits (a b : Bool) :
    ((if a then slowBit else 0) ||| (if b then standbyBit else 0) : Word).getLsbD 0 = a ∧
      ((if a then slowBit else 0) ||| (if b then standbyBit else 0) : Word).getLsbD 1 = b := by
  cases a <;> cases b <;> decide

theorem countChange_clear (n : Nat) (old c : Bool) :
    countChange n old (old && !c) = n - if c && old then 1 else 0 := by
  cases old <;> cases c <;> simp [countChange]

/-- R118: the record of one element, its warnings cleared where they are to be. -/
theorem clearWarnings_eq (a b : Bool) (hm : MemWf s.mem) (i : Nat) : let t := clearWarnings a b s i
    warningBit t i 0 = (warningBit s i 0 && !a) ∧ warningBit t i 1 = (warningBit s i 1 && !b) ∧
      WordsKept [elementWord i 7] s t ∧
      t = { s with mem := t.mem, port := t.port, plant := { s.plant with
        slowCount := s.plant.slowCount - (if a && warningBit s i 0 then 1 else 0)
        standbyCount := s.plant.standbyCount - (if b && warningBit s i 1 then 1 else 0) } } := by
  dsimp only
  by_cases h : (a && warningBit s i 0 || b && warningBit s i 1) = true
  · rw [show clearWarnings a b s i = setWarnings i (warningBit s i 0 && !a) (warningBit s i 1 && !b) s from if_pos h]
    obtain ⟨hslow, hstandby⟩ := warningWord_bits (warningBit s i 0 && !a) (warningBit s i 1 && !b)
    have hword : rd (setWarnings i (warningBit s i 0 && !a) (warningBit s i 1 && !b) s) (elementWord i 7) = _ :=
      rd_wr_same s (elementWord i 7) _ hm
    refine ⟨(congrArg (BitVec.getLsbD · 0) hword).trans hslow, (congrArg (BitVec.getLsbD · 1) hword).trans hstandby,
      wordsKept_wr s _ _, ?_⟩
    rw [← countChange_clear, ← countChange_clear]
    rfl
  · rw [show clearWarnings a b s i = partRead s from if_neg h]
    rw [Bool.not_eq_true, Bool.or_eq_false_iff] at h
    refine ⟨?_, ?_, WordsKept.refl s, by rw [h.1, h.2]; rfl⟩
    · show warningBit s i 0 = _
      cases a <;> simp_all
    · show warningBit s i 1 = _
      cases b <;> simp_all

theorem elementWord_inj {i j w : Nat} (h : elementWord i w = elementWord j w) : i = j := by unfold elementWord at h; omega

/-- A count falls once for each element of a list. -/
theorem sub_cleared (n : Nat) (c : Bool) (s : State) (k : Nat) (l : List Nat) (b : Nat) :
    n - (if c && warningBit s k b then 1 else 0) - cleared c s l b = n - cleared c s (k :: l) b := by
  unfold cleared
  cases c
  · rfl
  · cases h : warningBit s k b <;> simp [h] ; omega

theorem cleared_congr {c : Bool} {l : List Nat} {b : Nat} (h : ∀ i ∈ l, warningBit t i b = warningBit s i b) :
    cleared c t l b = cleared c s l b := by
  unfold cleared
  rw [List.filter_congr h]

/-- R118: the records of the elements of a list, each named once. -/
theorem clearWarnings_foldl (a b : Bool) (l : List Nat) : ∀ s : State, l.Nodup → MemWf s.mem →
    let t := l.foldl (clearWarnings a b) s
    (∀ i ∈ l, warningBit t i 0 = (warningBit s i 0 && !a) ∧ warningBit t i 1 = (warningBit s i 1 && !b)) ∧
      WordsKept (l.map (elementWord · 7)) s t ∧
      t = { s with mem := t.mem, port := t.port, plant := { s.plant with
        slowCount := s.plant.slowCount - cleared a s l 0, standbyCount := s.plant.standbyCount - cleared b s l 1 } } := by
  induction l with
  | nil => exact fun s _ _ => ⟨fun _ h => absurd h List.not_mem_nil, WordsKept.refl s, by simp [cleared]⟩
  | cons k l ih =>
    intro s hnodup hm
    obtain ⟨hk, hl⟩ := List.nodup_cons.1 hnodup
    obtain ⟨hslow, hstandby, hkept, hframe⟩ := clearWarnings_eq a b hm k
    have hmoves := clearWarnings_moves (can := fun _ => True) a b s k
    obtain ⟨hbits, hrest, hrestFrame⟩ := ih (clearWarnings a b s k) hl (hmoves.mem hm)
    have hother (i : Nat) (hi : i ≠ k) (c : Nat) : warningBit (clearWarnings a b s k) i c = warningBit s i c :=
      congrArg (BitVec.getLsbD · c) (hkept _ (by simpa using fun h => hi (elementWord_inj h)))
    have hlist (i : Nat) (hi : i ∈ l) : i ≠ k := fun h => hk (h ▸ hi)
    have hsame (i : Nat) (c : Nat) (hi : i ∉ l) :
        warningBit (l.foldl (clearWarnings a b) (clearWarnings a b s k)) i c = warningBit (clearWarnings a b s k) i c :=
      congrArg (BitVec.getLsbD · c) (hrest _ fun h => by
        obtain ⟨j, hj, he⟩ := List.mem_map.1 h
        exact hi (elementWord_inj he ▸ hj))
    refine ⟨fun i hi => ?_, (hkept.mono (by simp)).trans (hrest.mono (by simp)), ?_⟩
    · rcases List.mem_cons.1 hi with rfl | hi
      · rw [List.foldl_cons, hsame i 0 hk, hsame i 1 hk]
        exact ⟨hslow, hstandby⟩
      · rw [List.foldl_cons, (hbits i hi).1, (hbits i hi).2, hother i (hlist i hi), hother i (hlist i hi)]
        exact ⟨rfl, rfl⟩
    · rw [cleared_congr fun i hi => hother i (hlist i hi) 0, cleared_congr fun i hi => hother i (hlist i hi) 1] at hrestFrame
      rw [List.foldl_cons, hrestFrame, hframe]
      dsimp only
      rw [sub_cleared, sub_cleared]

theorem cleared_tree (c : Bool) (s : State) (tree : Tree) (b : Nat) : cleared c s (tree.map fun p => p.1) b =
    if c then (tree.filter fun p => (rd s (elementWord p.1 7)).getLsbD b).length else 0 := by
  unfold cleared warningBit
  rw [List.filter_map, List.length_map]
  rfl

/-- R118, R127: WARNING_DISABLE_CLEAR. -/
theorem warningDisableClear_clears (s : State) (hm : MemWf s.mem) (hr : running s = true)
    (hc : s.plant.clearSlow = true ∨ s.plant.clearStandby = true) (hnodup : (s.plant.tree.map Prod.fst).Nodup) :
     ∃ t, exec .warningDisableClear s = .next t ∧
       t.plant = { s.plant with
         clearSlow := false, clearStandby := false
         slowCount := s.plant.slowCount - (if s.plant.clearSlow then
           (s.plant.tree.filter fun p => (rd s (elementWord p.1 7)).getLsbD 0).length else 0)
         standbyCount := s.plant.standbyCount - (if s.plant.clearStandby then
           (s.plant.tree.filter fun p => (rd s (elementWord p.1 7)).getLsbD 1).length else 0) } ∧
       (∀ p ∈ s.plant.tree,
         ((rd t (elementWord p.1 7)).getLsbD 0 = ((rd s (elementWord p.1 7)).getLsbD 0 && !s.plant.clearSlow)) ∧
         ((rd t (elementWord p.1 7)).getLsbD 1 =
           ((rd s (elementWord p.1 7)).getLsbD 1 && !s.plant.clearStandby))) ∧
       WordsKept (s.plant.tree.map fun p => elementWord p.1 7) s t ∧
       t = { s with mem := t.mem, port := t.port, plant := t.plant, flags := t.flags } := by
  have hexec : exec .warningDisableClear s = .next (latchArisen s (clearDisabledWarnings s)) := by
    show execWarningDisableClear s = _
    rw [execWarningDisableClear, if_pos ⟨hr, by simpa using hc⟩]
  obtain ⟨hbits, hkept, hframe⟩ :=
    clearWarnings_foldl s.plant.clearSlow s.plant.clearStandby (s.plant.tree.map fun p => p.1) s hnodup hm
  rw [cleared_tree, cleared_tree] at hframe
  have hmap : (s.plant.tree.map fun p => p.1).map (elementWord · 7) = s.plant.tree.map fun p => elementWord p.1 7 := by
    rw [List.map_map]
    rfl
  rw [hmap] at hkept
  refine ⟨_, hexec, ?_, fun p hp => ?_, ?_, ?_⟩
  · rw [latchArisen_plant, clearDisabledWarnings, hframe]
  · rw [rd_latchArisen]
    exact hbits p.1 (List.mem_map_of_mem hp)
  · rw [wordsKept_latchArisen]
    exact hkept
  · rw [latchArisen_frame, clearDisabledWarnings, hframe]

/-- Settles O19: the outcome is logged before the part state moves, and a RESYNC sweep that needs no place leaves the log as
it is. -/
theorem planCheckLoadsAndClearsWarnings : Obligations.PlanCheckLoadsAndClearsWarnings := by
  unfold Obligations.PlanCheckLoadsAndClearsWarnings
  refine ⟨fun k ws c s hm hring hr hk hws hc => ?_, loadPlan_fields, warningDisableClear_clears⟩
  subst hws
  rw [← planOutcome_code] at hc
  have hplan := planChecked_plan k s
  have hplant := planChecked_plant k s
  have hkept := planChecked_kept hring k
  have hframe := planChecked_frame k s
  have hcases := afterPlanCheck_cases (planOutcome k.expected (k.words ++ planWordsFrom s k.words.length)) (planChecked k s)
  have hring' := planChecked_ring hring k
  have hlog {t : State} (h : RingsKept (planChecked k s) t) (hw : t.writer = (planChecked k s).writer) :
      Logged .planCommit 0 c k.expected.toNat (crcOfWords (k.words ++ planWordsFrom s k.words.length)).toNat s t := by
    rw [hc]
    exact logged_logAppend (v := planHeld k s) hm hring rfl rfl h hw
  have hfirst {t : State} (h : RecordsKept (planChecked k s) t) :
      LoggedFirst .planCommit 0 c k.expected.toNat (crcOfWords (k.words ++ planWordsFrom s k.words.length)).toNat s t := by
    rw [hc]
    exact loggedFirst_logAppend (v := planHeld k s) hm hring rfl rfl h
  rw [← completePlanCheck_eq] at hcases
  generalize hr' : planOutcome k.expected (k.words ++ planWordsFrom s k.words.length) = r at *
  generalize hv : planChecked k s = v at *
  have hpart : v.part = s.part := by rw [hframe]
  have hlineup : v.lineup = s.lineup := by rw [hframe]
  have hsched : v.sched = s.sched := by rw [hframe]
  rw [hpart] at hcases
  -- the parts that every case has in common
  have hcommon {t : State} (hp : t.plan = v.plan) (hq : t.plant = v.plant) :
      (c ≠ 0 → t.plan = { s.plan with check := none, last := some (if c = 1 then .crc else .format) } ∧ t.plant = s.plant) ∧
      (c = 0 → t.plan = { s.plan with check := none, last := some .ok
                                      copy := some (loadPlan (k.words ++ planWordsFrom s k.words.length)) } ∧
         (∀ b₁ b₂ : Bool,
           (b₁ = true ↔ (loadPlan (k.words ++ planWordsFrom s k.words.length)).slowDisabled = true ∧
             ∃ p, s.plan.copy = some p ∧ p.slowDisabled = false) →
           (b₂ = true ↔ (loadPlan (k.words ++ planWordsFrom s k.words.length)).standbyDisabled = true ∧
             ∃ p, s.plan.copy = some p ∧ p.standbyDisabled = false) →
           t.plant = { s.plant with
             clearSlow := s.plant.clearSlow || b₁, clearStandby := s.plant.clearStandby || b₂ })) := by
    rw [hp, hq, hplan, hplant, hc]
    refine ⟨fun h => ?_, fun h => ?_⟩
    · have hne : r ≠ .ok := fun he => h ((planResult_ok_iff r).1 he)
      rw [planAfter, plantAfter, if_neg hne, if_neg hne, ← planResult_of_code h]
      exact ⟨rfl, rfl⟩
    · obtain rfl := (planResult_ok_iff r).2 h
      refine ⟨rfl, fun b₁ b₂ h₁ h₂ => ?_⟩
      rw [plantAfter, if_pos rfl, loadWorkingCopy_plant, turnsOn_eq h₁, turnsOn_eq h₂]
  have hok : r = .ok ↔ c = 0 := by rw [hc, planResult_ok_iff]
  rcases hcases with ⟨hst, hstep, hdone⟩ | ⟨hst, hres, hdone⟩ | ⟨hnot, hnot', hdone⟩
  · refine ⟨_, exec_planCheckComplete hr hk, ?_⟩
    rw [hdone]
    simp only [latchArisen_plan, latchArisen_plant, latchArisen_part, latchArisen_lineup, latchArisen_sched,
      loggedFirst_latchArisen, logged_latchArisen, keptOutside_latchArisen]
    obtain ⟨hbad, hgood⟩ := hcommon (t := beginStartupCommit (toStartStep 2 v)) rfl rfl
    refine ⟨hbad, hgood, ?_, fun _ _ => ?_, fun h => absurd h (by simp [hst, hstep]), fun _ => hsched,
      fun h _ => PartState.noConfusion (hst.symm.trans h), hfirst (RecordsKept.refl v), fun _ => hlog (fun _ _ => rfl) rfl, hkept, ?_⟩
    · rw [if_neg fun h => PartState.noConfusion (hst.symm.trans h.1), if_pos ⟨hst, hstep⟩, ← hpart]
      rfl
    · have hword (a : Nat) (ha : ringPlace a = false) : rd v a = rd s a := hkept a ha
      rw [beginStartupCommit_lineup]
      have hcand : ((List.range 384).map fun j => rd (toStartStep 2 v) (0x400 + j)) =
          (List.range 384).map fun j => rd s (0x400 + j) :=
        List.map_congr_left fun j hj => hword _ (ringPlace_lineup ⟨j, List.mem_range.1 hj⟩)
      rw [hcand, show rd (toStartStep 2 v) 0x580 = rd s 0x580 from hword _ (by decide), show (toStartStep 2 v).lineup = s.lineup from hlineup]
    · rw [latchArisen_frame, beginStartupCommit, startCommitCheck, toStartStep, hframe]
  · have hc0 := hok.1 hres
    have hserving : (enterServing v).part.state = .serving := enterServing_state v
    have hsettle := settle_link_of_not_rest (not_rest_of_state (u := enterServing v) (by rw [hserving]; decide))
    have hserveFrame := enterServing_frame v
    refine ⟨_, exec_planCheckComplete hr hk, ?_⟩
    rw [hdone]
    have hmem : (settle (enterServing v)).mem = (enterServing v).mem := by rw [hsettle]
    have hwriter : (settle (enterServing v)).writer = (enterServing v).writer := by rw [hsettle]
    obtain ⟨hbad, hgood⟩ := hcommon (t := settle (enterServing v)) (by rw [hsettle, hserveFrame]) (by rw [hsettle, hserveFrame])
    simp only [latchArisen_plan, latchArisen_plant, latchArisen_part, latchArisen_lineup, latchArisen_sched,
      loggedFirst_latchArisen, logged_latchArisen, keptOutside_latchArisen]
    refine ⟨hbad, hgood, ?_, fun h _ => PartState.noConfusion (hst.symm.trans h), fun _ => ?_, fun h => absurd hc0 (h.resolve_left fun h' => h' hst),
      fun _ _ => ⟨?_, ?_⟩, ?_, fun h => ?_, ?_, ?_⟩
    · rw [hsettle, hserveFrame, if_pos ⟨hst, hc0⟩, if_neg fun h => PartState.noConfusion (hst.symm.trans h.1), ← hpart]
    · rw [hsettle, hserveFrame]
      exact hlineup
    · rw [hsettle, hserveFrame]
      show (wakeRefresh v).sched.refresh.resting = false
      rw [wakeRefresh_sched]
      exact woken_resting _
    · rw [hsettle]
      exact (enterServing_sweeps v).trans (openSweep_sweeps_congr .resync (congrArg Scheduler.sweeps hsched))
    · exact hfirst ((enterServing_recordsKept v).trans (RingsKept.recordsKept (RingsKept.of_mem hmem) hwriter))
    · have hroom : v.sched.sweeps.length < 4 := by
        rw [hsched]
        exact (h.resolve_left fun h' => h' hst).resolve_left fun h' => h' hc0
      obtain ⟨hm', hw', -⟩ := enterServing_room hroom
      exact hlog (RingsKept.of_mem (hmem.trans hm')) (hwriter.trans hw')
    · exact hkept.trans ((enterServing_kept hring').trans fun a _ => rd_congr hmem a)
    · rw [latchArisen_frame, hsettle, hserveFrame, hframe]
  · refine ⟨_, exec_planCheckComplete hr hk, ?_⟩
    rw [hdone]
    obtain ⟨hbad, hgood⟩ := hcommon (t := v) rfl rfl
    rw [hok] at hnot'
    simp only [latchArisen_plan, latchArisen_plant, latchArisen_part, latchArisen_lineup, latchArisen_sched,
      loggedFirst_latchArisen, logged_latchArisen, keptOutside_latchArisen]
    refine ⟨hbad, hgood, ?_, fun h h' => absurd ⟨h, h'⟩ hnot, fun _ => hlineup, fun _ => hsched, fun h h' => absurd ⟨h, h'⟩ hnot',
      hfirst (RecordsKept.refl v), fun _ => hlog (fun _ _ => rfl) rfl, hkept, ?_⟩
    · rw [if_neg hnot', if_neg hnot]
      exact hpart
    · rw [latchArisen_frame, hframe]

end Sys2Proof.Machine


/-! ## The commit check and the entitlement (R38 to R42, R46, R47) -/

namespace Sys2Proof.Machine

variable {s t u : State}

/-! Validation (R38). -/

/-- R38: a position passes the five tests against the positions below it. -/
theorem entryFault_eq_none_iff (lower : List LineupEntry) (e : LineupEntry) : entryFault lower e = none ↔
    (e.enabled = true → 1 ≤ e.channel ∧ e.channel ≤ 999 ∧ ∀ f ∈ lower, f.enabled = true → f.channel ≠ e.channel) ∧
      (e.kind = .event → e.argument ≤ 7) ∧ (e.kind = .tier → e.argument ≤ 15) ∧ e.frequency ≤ 1023 := by
  have hany : lower.any (fun f => f.enabled && decide (f.channel = e.channel)) = true ↔
      ∃ f ∈ lower, f.enabled = true ∧ f.channel = e.channel := by simp
  simp only [entryFault, hany, ite_eq_iff, reduceCtorEq, and_false, false_or, and_true, not_and, not_exists]
  constructor
  · rintro ⟨hrange, hdup, hslot, htier, hfreq⟩
    refine ⟨fun he => ?_, fun hk => by have := hslot hk; omega, fun hk => by have := htier hk; omega, by omega⟩
    have := hrange he
    exact ⟨by omega, by omega, fun f hf hfe hc => hdup he f hf hfe hc⟩
  · rintro ⟨hen, hslot, htier, hfreq⟩
    refine ⟨fun he h => ?_, fun he f hf hfe hc => (hen he).2.2 f hf hfe hc, fun hk h => ?_, fun hk h => ?_, by omega⟩
    · have := hen he; omega
    · have := hslot hk; omega
    · have := htier hk; omega

/-- R38: validation accepts when each position passes its tests. -/
theorem validateEntries_eq_none_iff (es : List LineupEntry) : ∀ lower, validateEntries lower es = none ↔
    ∀ k e, es[k]? = some e → entryFault (lower ++ es.take k) e = none := by
  induction es with
  | nil => intro lower; simp [validateEntries]
  | cons x es ih =>
    intro lower
    have hstep : validateEntries lower (x :: es) = none ↔ entryFault lower x = none ∧ validateEntries (lower ++ [x]) es = none := by
      rw [validateEntries]
      cases entryFault lower x <;> simp
    rw [hstep, ih]
    constructor
    · rintro ⟨hx, hrest⟩ k e he
      cases k with
      | zero =>
        cases he
        rwa [List.take_zero, List.append_nil]
      | succ k =>
        have := hrest k e he
        rwa [List.append_assoc, List.singleton_append] at this
    · intro h
      refine ⟨by simpa using h 0 x rfl, fun k e he => ?_⟩
      have := h (k + 1) e he
      rwa [List.take_succ_cons, ← List.singleton_append, ← List.append_assoc] at this

theorem mem_take_iff {α : Type} (l : List α) (k : Nat) (x : α) : x ∈ l.take k ↔ ∃ j, j < k ∧ l[j]? = some x := by
  rw [List.mem_iff_getElem?]
  constructor
  · rintro ⟨j, hj⟩
    rw [List.getElem?_take] at hj
    split at hj
    · next hlt => exact ⟨j, hlt, hj⟩
    · cases hj
  · rintro ⟨j, hlt, hj⟩
    exact ⟨j, by rw [List.getElem?_take, if_pos hlt]; exact hj⟩

theorem validateEntries_iff (es : List LineupEntry) : validateEntries [] es = none ↔
    ∀ (k : Nat) (e : LineupEntry), es[k]? = some e →
      (e.enabled = true → 1 ≤ e.channel ∧ e.channel ≤ 999 ∧
        ∀ (j : Nat) (f : LineupEntry), j < k → es[j]? = some f → f.enabled = true → f.channel ≠ e.channel) ∧
      (e.kind = .event → e.argument ≤ 7) ∧ (e.kind = .tier → e.argument ≤ 15) ∧ e.frequency ≤ 1023 := by
  rw [validateEntries_eq_none_iff]
  refine forall_congr' fun k => forall_congr' fun e => imp_congr_right fun _ => ?_
  rw [List.nil_append, entryFault_eq_none_iff]
  simp only [mem_take_iff]
  constructor
  · exact fun ⟨h, h'⟩ => ⟨fun he => ⟨(h he).1, (h he).2.1, fun j f hj hf => (h he).2.2 f ⟨j, hj, hf⟩⟩, h'⟩
  · exact fun ⟨h, h'⟩ => ⟨fun he => ⟨(h he).1, (h he).2.1, fun f ⟨j, hj, hf⟩ => (h he).2.2 j f hj hf⟩, h'⟩

/-! The completion of a commit check (R39, R40). -/

/-- The Line-Up Unit after a check with outcome `r`. -/
def lineupAfter (r : CommitResult) (s : State) : LineUp :=
  if r = .ok then { s.lineup with
    check := none, candidate := [], last := some r, image := some (lineupEntries s.lineup.candidate), edited := false }
  else { s.lineup with check := none, candidate := [], last := some r }

/-- The state in which the outcome of a commit check has been held and logged. -/
def commitChecked (e : Word) (s : State) : State :=
  let o := commitOutcome e s.lineup.candidate
  logAppend .lineupCommit o.2 o.1.code e.toNat (crcOfWords s.lineup.candidate).toNat { s with lineup := lineupAfter o.1 s }

theorem completeCommitCheck_eq (e : Word) (s : State) : completeCommitCheck e s =
    if (commitOutcome e s.lineup.candidate).1 = .ok then wakeRefresh (openSweep .lineup (commitChecked e s))
    else commitChecked e s := by
  unfold completeCommitCheck commitChecked lineupAfter
  dsimp only
  split
  · simp only
  · simp only

theorem commitChecked_frame (e : Word) (s : State) : commitChecked e s = { s with
    mem := (commitChecked e s).mem, port := (commitChecked e s).port
    lineup := lineupAfter (commitOutcome e s.lineup.candidate).1 s
    writer := (commitChecked e s).writer, flags := (commitChecked e s).flags } := by
  unfold commitChecked
  dsimp only
  rw [logAppend_frame]

theorem completeCommitCheck_frame (e : Word) (s : State) : completeCommitCheck e s = { s with
    mem := (completeCommitCheck e s).mem, port := (completeCommitCheck e s).port
    lineup := lineupAfter (commitOutcome e s.lineup.candidate).1 s, writer := (completeCommitCheck e s).writer
    flags := (completeCommitCheck e s).flags
    sched := { s.sched with
      sweeps := (completeCommitCheck e s).sched.sweeps, refresh := (completeCommitCheck e s).sched.refresh } } := by
  rw [completeCommitCheck_eq]
  split
  · generalize hv : openSweep .lineup (commitChecked e s) = v
    have hframe : v = { s with
        mem := v.mem, port := v.port, lineup := lineupAfter (commitOutcome e s.lineup.candidate).1 s, writer := v.writer
        flags := v.flags, sched := { s.sched with sweeps := v.sched.sweeps } } := by
      rw [← hv, openSweep_frame, commitChecked_frame]
    have hsched := wakeRefresh_sched v
    rw [wakeRefresh_frame, hsched, hframe]
  · rw [commitChecked_frame]

/-- The state in which the next start-up step has followed, if this was step 2. -/
def commitEnded (e : Word) (s : State) : State :=
  if atStartStep 2 s then toStartStep 3 (completeCommitCheck e s) else completeCommitCheck e s

theorem atStartStep_congr (hp : t.part = s.part) (hw : t.power = s.power) (k : Nat) : atStartStep k t = atStartStep k s := by
  rw [atStartStep, running_congr hw, hp, atStartStep]

theorem endCommitCheck_eq (e : Word) (s : State) : endCommitCheck e s = settle (commitEnded e s) := by
  have h : atStartStep 2 (completeCommitCheck e s) = atStartStep 2 s :=
    atStartStep_congr (by rw [completeCommitCheck_frame]) (by rw [completeCommitCheck_frame]) 2
  rw [endCommitCheck, h, commitEnded]

theorem commitEnded_frame (e : Word) (s : State) : commitEnded e s = { completeCommitCheck e s with
    part := if atStartStep 2 s then { s.part with startStep := 3 } else s.part } := by
  unfold commitEnded
  split
  · rw [completeCommitCheck_frame]
    rfl
  · rw [completeCommitCheck_frame]

/-- The quiet condition of the part does not come about at a check. -/
theorem commitEnded_not_rest (hq : QuietLaw s) (e : Word) : ¬comesToRest (commitEnded e s) := by
  rintro ⟨hr, hst, hquiet⟩
  rw [commitEnded_frame, completeCommitCheck_frame] at hr hst hquiet
  have hstate : s.part.state = .quiescing := by
    dsimp only at hst
    split at hst
    · exact hst
    · exact hst
  have : isQuiet s = true := hquiet
  rw [hq hr hstate] at this
  cases this

theorem exec_lineupCheckComplete {e : Word} (hr : running s = true) (he : s.lineup.check = some e) :
    exec .lineupCheckComplete s = .next (latchArisen s (settle (commitEnded e s))) := by
  show execLineupCheckComplete s = _
  rw [execLineupCheckComplete, he, ← endCommitCheck_eq]
  simp only [hr, if_true]

theorem commitOutcome_crc {e : Word} {ws : List Word} (h : crcOfWords ws ≠ e) : commitOutcome e ws = (.crc, 0xFFFF) := if_pos h

theorem commitOutcome_fault {e : Word} {ws : List Word} (h : crcOfWords ws = e) {r : CommitResult} {c : Nat}
    (hv : validateEntries [] (lineupEntries ws) = some (r, c)) : commitOutcome e ws = (r, c) := by
  rw [commitOutcome, if_neg (not_not.2 h), hv]

theorem commitOutcome_ok {e : Word} {ws : List Word} (h : crcOfWords ws = e)
    (hv : validateEntries [] (lineupEntries ws) = none) : commitOutcome e ws = (.ok, 0xFFFF) := by
  rw [commitOutcome, if_neg (not_not.2 h), hv]

theorem lineupAfter_ok (s : State) : lineupAfter .ok s = { s.lineup with
    check := none, candidate := [], last := some .ok, image := some (lineupEntries s.lineup.candidate), edited := false } := rfl

theorem lineupAfter_failed {r : CommitResult} (h : r ≠ .ok) (s : State) :
    lineupAfter r s = { s.lineup with check := none, candidate := [], last := some r } := if_neg h

/-- R42: the outcome of a check is logged, and its LINEUP sweep writes no record unless it was dropped. -/
theorem commitEnded_log (hm : MemWf s.mem) (hring : RingLaw s) (e : Word) :
    let o := commitOutcome e s.lineup.candidate
    LoggedFirst .lineupCommit o.2 o.1.code e.toNat (crcOfWords s.lineup.candidate).toNat s (commitEnded e s) ∧
    (o.1 ≠ .ok ∨ s.sched.sweeps.length < 4 →
      Logged .lineupCommit o.2 o.1.code e.toNat (crcOfWords s.lineup.candidate).toNat s (commitEnded e s)) ∧
    KeptOutside ringPlace s (commitEnded e s) := by
  have hsame : (commitEnded e s).mem = (completeCommitCheck e s).mem ∧ (commitEnded e s).writer = (completeCommitCheck e s).writer := by
    rw [commitEnded_frame]; exact ⟨rfl, rfl⟩
  have hring' : RingLaw (commitChecked e s) := (logAppend_moves (can := fun _ => True) _ _ _ _ _ _).ring
    (show RingLaw { s with lineup := lineupAfter (commitOutcome e s.lineup.candidate).1 s } from hring)
  have hkept : KeptOutside ringPlace s (commitChecked e s) := fun a ha =>
    logAppend_kept (s := { s with lineup := lineupAfter (commitOutcome e s.lineup.candidate).1 s }) hring _ _ _ _ _ a ha
  have hwake (v : State) : (wakeRefresh v).mem = v.mem ∧ (wakeRefresh v).writer = v.writer := by
    rw [wakeRefresh_frame]; exact ⟨rfl, rfl⟩
  obtain ⟨hmem, hwriter⟩ := hsame
  have hrecords : RecordsKept (commitChecked e s) (completeCommitCheck e s) := by
    rw [completeCommitCheck_eq]
    split
    · exact (openSweep_recordsKept _ _).trans (RingsKept.recordsKept (RingsKept.of_mem (hwake _).1) (hwake _).2)
    · exact RecordsKept.refl _
  refine ⟨?_, fun h => ?_, ?_⟩
  · exact loggedFirst_logAppend (v := { s with lineup := lineupAfter (commitOutcome e s.lineup.candidate).1 s }) hm hring rfl rfl
      (hrecords.trans (RingsKept.recordsKept (RingsKept.of_mem hmem) hwriter))
  · have hquiet : (completeCommitCheck e s).mem = (commitChecked e s).mem ∧
        (completeCommitCheck e s).writer = (commitChecked e s).writer := by
      rw [completeCommitCheck_eq]
      split
      · next hok =>
        have hroom : (commitChecked e s).sched.sweeps.length < 4 := by
          rw [commitChecked_frame]; exact h.resolve_left fun h' => h' hok
        rw [(hwake _).1, (hwake _).2, openSweep_room hroom]
        exact ⟨rfl, rfl⟩
      · exact ⟨rfl, rfl⟩
    exact logged_logAppend (v := { s with lineup := lineupAfter (commitOutcome e s.lineup.candidate).1 s }) hm hring rfl rfl
      (RingsKept.of_mem (hmem.trans hquiet.1)) (hwriter.trans hquiet.2)
  · intro a ha
    refine (rd_congr hmem a).trans (Eq.trans ?_ (hkept a ha))
    rw [completeCommitCheck_eq]
    split
    · exact (rd_congr (hwake _).1 a).trans (openSweep_kept hring' .lineup a ha)
    · rfl

/-- Settles O20: validation is its five tests at every position, and the arbiter that follows a check changes the link alone. -/
theorem lineupCheckValidatesAndLoads : Obligations.LineupCheckValidatesAndLoads := by
  unfold Obligations.LineupCheckValidatesAndLoads
  refine ⟨fun e s hm hring hquiet hr he => ?_, validateEntries_iff⟩
  have hsettle := settle_link_of_not_rest (commitEnded_not_rest hquiet e)
  have hended := commitEnded_frame e s
  have hcomplete := completeCommitCheck_frame e s
  obtain ⟨hfirst, hlogged, hkept⟩ := commitEnded_log hm hring e
  have hlineup : (settle (commitEnded e s)).lineup = lineupAfter (commitOutcome e s.lineup.candidate).1 s := by
    rw [hsettle, hended, hcomplete]
  have hmem : (settle (commitEnded e s)).mem = (commitEnded e s).mem := by rw [hsettle]
  have hwriter : (settle (commitEnded e s)).writer = (commitEnded e s).writer := by rw [hsettle]
  have hlog {k : LogKind} {x a b c : Nat} (h : Logged k x a b c s (commitEnded e s)) :
      Logged k x a b c s (settle (commitEnded e s)) := by
    simpa only [Logged, RecordAt, rdPair, rd_congr hmem, hwriter] using h
  have hlogFirst {k : LogKind} {x a b c : Nat} (h : LoggedFirst k x a b c s (commitEnded e s)) :
      LoggedFirst k x a b c s (settle (commitEnded e s)) := by
    simpa only [LoggedFirst, RecordAt, rdPair, rd_congr hmem] using h
  refine ⟨_, exec_lineupCheckComplete hr he, ?_⟩
  simp only [latchArisen_lineup, logged_latchArisen, loggedFirst_latchArisen, keptOutside_latchArisen, latchArisen_part,
    latchArisen_sched, hlineup]
  refine ⟨?_, fun hcrc => ?_, fun hcrc => ⟨fun r c hv hr' => ?_, fun hv => ?_⟩, ?_, ?_, ?_⟩
  · unfold lineupAfter
    split <;> rfl
  · rw [commitOutcome_crc hcrc] at hlogged ⊢
    exact ⟨rfl, rfl, rfl, hlog (hlogged (.inl (by decide)))⟩
  · rw [commitOutcome_fault hcrc hv, hcrc] at hlogged
    rw [commitOutcome_fault hcrc hv, lineupAfter_failed hr']
    exact ⟨rfl, rfl, rfl, hlog (hlogged (.inl hr'))⟩
  · have hout := commitOutcome_ok hcrc hv
    rw [hout, hcrc] at hlogged hfirst
    rw [hout, lineupAfter_ok]
    have hdone : completeCommitCheck e s = wakeRefresh (openSweep .lineup (commitChecked e s)) := by
      rw [completeCommitCheck_eq, hout, if_pos rfl]
    have hsched : (settle (commitEnded e s)).sched.sweeps = (openSweep .lineup (commitChecked e s)).sched.sweeps ∧
        (settle (commitEnded e s)).sched.refresh = (openSweep .lineup (commitChecked e s)).sched.refresh.woken := by
      have hs : (commitEnded e s).sched = (completeCommitCheck e s).sched := by rw [hended]
      rw [hsettle, hs, hdone, wakeRefresh_sched]
      exact ⟨rfl, rfl⟩
    refine ⟨rfl, rfl, rfl, by rw [hsched.2]; exact woken_resting _, hlogFirst hfirst, fun h => hlog (hlogged (.inr h)), fun h => ?_⟩
    refine ⟨newSweep .lineup, ?_, rfl, rfl, rfl⟩
    rw [hsched.1]
    exact openSweep_opens (by rw [commitChecked_frame]; exact h)
  · rw [hsettle, hended]
  · exact fun a ha => (rd_congr hmem a).trans (hkept a ha)
  · rw [latchArisen_frame, hsettle, hended, hcomplete]

/-! Entitlement (R46, R47). -/

theorem vectorOf_testBit (l : List Bool) : ∀ k, (vectorOf l).testBit k = (l[k]?).getD false := by
  induction l with
  | nil => intro k; simp [vectorOf]
  | cons b l ih =>
    intro k
    have hval : vectorOf (b :: l) = Nat.bit b (vectorOf l) := by
      rw [vectorOf, Nat.bit_val]
      cases b <;> simp; omega
    rw [hval]
    cases k with
    | zero => rw [Nat.testBit_bit_zero]; rfl
    | succ k => rw [Nat.testBit_bit_succ, ih]; rfl

/-- R47: an entry of the purchase list that is marked valid names the slot and its event. -/
theorem holdsEvent_iff (s : State) (i k n : Nat) : holdsEvent s i k n = true ↔
    ∃ j, j < 4 ∧ (purchaseAt s i j).valid = true ∧ (purchaseAt s i j).slot = k ∧ (purchaseAt s i j).event = n := by
  have hplaces (j : Nat) : j ∈ purchasePlaces ↔ j < 4 := by
    simp only [purchasePlaces, List.mem_cons, List.not_mem_nil, or_false]
    omega
  simp only [holdsEvent, List.any_eq_true, hplaces, Bool.and_eq_true, decide_eq_true_eq, and_assoc]

theorem entitlement_getLsbD {im : List LineupEntry} (him : s.lineup.image = some im) {c : PortState} (hc : c ≠ .off) {i k : Nat}
    {e : LineupEntry} (hk : k < 96) (he : im[k]? = some e) : (entitlement s i c).getLsbD k = entryPasses s i c e := by
  rw [entitlement, him]
  simp only [if_neg hc]
  rw [BitVec.getLsbD_ofNat, vectorOf_testBit, List.getElem?_map, he, decide_eq_true hk]
  rfl

/-- R47: a position passes by its kind. -/
theorem entryPasses_iff (s : State) (i : Nat) {c : PortState} (hc : c ≠ .off) (e : LineupEntry) : entryPasses s i c e = true ↔
    e.enabled = true ∧ ((e.kind = .barker) ∨
       (c = .full ∧ e.zones.getLsbD (subZone s i) = false ∧
         (e.kind = .basic ∨ (e.kind = .tier ∧ (subRd s i 3).getLsbD e.argument = true) ∨
          (e.kind = .event ∧ slotState s e.argument = .showing ∧
            ∃ j, j < 4 ∧ (purchaseAt s i j).valid = true ∧ (purchaseAt s i j).slot = e.argument ∧
              (purchaseAt s i j).event = slotEvent s e.argument)))) := by
  have hany : c = .full ∨ c = .barker := by
    cases c
    · exact absurd rfl hc
    · exact .inl rfl
    · exact .inr rfl
  unfold entryPasses
  cases hkind : e.kind with
  | barker => simp [hany]
  | basic => simp
  | tier => simp [and_assoc]
  | event => simp [holdsEvent_iff, and_assoc]

/-- Settles O21: the vector is read position by position. -/
theorem entitlementFollowsTheRule : Obligations.EntitlementFollowsTheRule := by
  unfold Obligations.EntitlementFollowsTheRule
  refine ⟨fun s i order h => ?_, fun s i c h => ?_, fun s i c im k e him hlen he hc => ?_⟩
  · subst h
    refine ⟨fun h => if_pos h, fun h => ?_, fun h₁ h₂ => ?_⟩
    · rw [subCommand, h]; rfl
    · rw [subCommand, commandOf, if_neg h₁, if_neg h₂]
  · unfold entitlement
    rcases h with h | h
    · cases s.lineup.image with
      | none => rfl
      | some im => exact if_pos h
    · rw [h]
  · have hk : k < 96 := hlen ▸ (List.getElem?_eq_some_iff.1 he).1
    rw [entitlement_getLsbD him hc hk he]
    exact entryPasses_iff s i hc e

end Sys2Proof.Machine


/-! ## Requests posted, taken and refused (R28 to R30) -/

namespace Sys2Proof.Machine

variable {s t u : State}

/-! REQUEST_CODE_WRITE (R28). -/

theorem requestWord_class (n : Fin 8) : (addrOf (requestWord n.val 0)).toNat = requestWord n.val 0 ∧
    inHeadEndRecord (requestWord n.val 0) = false ∧ wordClass (requestWord n.val 0) = .watched := by
  obtain ⟨haddr, hclass⟩ := Laws.Operands.requestCodeWrite n bothLanes 0 rfl _ rfl
  have hn := n.isLt
  refine ⟨haddr, ?_, hclass _ rfl⟩
  rw [inHeadEndRecord, decide_eq_false (by unfold requestWord; omega), Bool.false_and]

theorem observedWrite_requestCode (n : Fin 8) (w : Word) (s : State) : observedWrite (addrOf (requestWord n.val 0)) w s =
    if slotBusy s n.val then squash (addrOf (requestWord n.val 0)) .slotQueued (grantPort .host s)
    else if field w 8 3 = 1 then
      { hostStore s (requestWord n.val 0) bothLanes w with part := { s.part with queue := s.part.queue ++ [n.val] } }
    else hostStore s (requestWord n.val 0) bothLanes w := by
  have h₁ : planCheckWord = 0x7F := rfl
  have hn := n.isLt
  have hword : requestWord n.val 0 = 128 + 4 * n.val := rfl
  have hslot : (requestWord n.val 0 - 128) / 4 = n.val := by omega
  unfold observedWrite
  simp (disch := omega) only [(requestWord_class n).1, if_neg, if_pos]
  unfold writeRequestCode
  simp only [(requestWord_class n).1, hslot]
  rfl

theorem slotBusy_iff (s : State) (n : Nat) : slotBusy s n = true ↔ n ∈ s.part.queue ∨ ∃ r, (n, r) ∈ s.part.inProgress := by
  simp [slotBusy]

theorem exec_requestCodeWrite {n : Fin 8} {l : Lanes} (hr : running s = true) (hl : noLanes l = false)
    (hs : s.part.state ≠ .starting) (d : Word)
    (h : observedWrite (addrOf (requestWord n.val 0)) (mergeLanes l (rd s (requestWord n.val 0)) d) s = t)
    (hc : conditions t = conditions s) : exec (.requestCodeWrite n l d) s = .next t := by
  obtain ⟨haddr, hh, hclass⟩ := requestWord_class n
  exact next_latchArisen ((hostWrite_watched hr hl hs haddr hh hclass d).trans h) hc

/-- Settles O22: the slot's state decides between the squash and the stored word. -/
theorem requestCodeWritePostsOrSquashes : Obligations.RequestCodeWritePostsOrSquashes := by
  unfold Obligations.RequestCodeWritePostsOrSquashes
  intro n l d s hm hr hl hs
  have hwrite := observedWrite_requestCode n (mergeLanes l (rd s (requestWord n.val 0)) d) s
  refine ⟨fun hbusy => ?_, fun hfree => ?_⟩
  · rw [if_pos ((slotBusy_iff s n.val).2 hbusy)] at hwrite
    refine ⟨_, exec_requestCodeWrite hr hl hs d hwrite rfl, rfl, fun hn => ?_, rfl⟩
    simp only [squash, grantPort_path, hn]
  · have hidle : slotBusy s n.val ≠ true := fun h => ((slotBusy_iff s n.val).1 h).elim hfree.1 fun ⟨r, hr⟩ => hfree.2 r hr
    rw [if_neg hidle] at hwrite
    have hrd := rd_hostStore_merged s (requestWord n.val 0) l d hm
    have hkept := hostStore_wordsKept s (requestWord n.val 0) bothLanes (mergeLanes l (rd s (requestWord n.val 0)) d)
    by_cases hreq : field (mergeLanes l (rd s (requestWord n.val 0)) d) 8 3 = 1
    · rw [if_pos hreq] at hwrite
      refine ⟨_, exec_requestCodeWrite hr hl hs d hwrite rfl, hrd, hkept, (if_pos ?_).symm, rfl⟩
      rw [← hreq]
      exact congrArg (field · 8 3) hrd
    · rw [if_neg hreq] at hwrite
      refine ⟨_, exec_requestCodeWrite hr hl hs d hwrite rfl, hrd, hkept, (if_neg ?_).symm, rfl⟩
      exact fun h => hreq ((congrArg (field · 8 3) hrd).symm.trans h)

/-! Requests taken by their owners (R29). -/

/-- R29: the owner of a request. -/
def requestOwner : Request → Nat → State → State
  | .addElement => addElement
  | .retireElement => retireElement
  | .setFeed => setFeed
  | .clearLatch => clearLatch
  | .armEvent => armEvent
  | .disarmEvent => disarmEvent
  | .deskPurchase => deskPurchase
  | .cancelPurchase => cancelPurchase
  | .closeNow => closeNow
  | .quiesce => quiesce
  | .resume => resume

theorem exec_command (r : Request) (s : State) :
    exec r.command s = .next (latchArisen s (carryOut r (fun n t => settle (requestOwner r n t)) s)) := by
  cases r <;> rfl

variable {r : Request} {n : Nat} {rest : List Nat}

/-- R29: a request that its part state allows is carried out by its owner on the state handed over. -/
theorem exec_request (h : AtHead r n rest s) (ha : r.allowed s.part.state = true) :
    exec r.command s = .next (concluded s (requestOwner r n (handedOver n s))) := by
  rw [exec_command, carryOut_eq _ h ha, concluded]

/-- R30: outside STARTING and UNPLANNED every request but those of purchases and RESUME is allowed. -/
theorem allowed_of_planned (hr : r ∉ [Request.deskPurchase, .cancelPurchase, .resume]) (hs : started s = true)
    (hp : s.part.state ≠ .unplanned) : r.allowed s.part.state = true := by
  have hst := ((started_iff s).1 hs).2
  have hstate : s.part.state = .serving ∨ s.part.state = .quiescing ∨ s.part.state = .quiesced := by
    cases h : s.part.state with
    | starting => exact absurd h hst
    | unplanned => exact absurd h hp
    | serving => exact .inl rfl
    | quiescing => exact .inr (.inl rfl)
    | quiesced => exact .inr (.inr rfl)
  cases r with
  | deskPurchase | cancelPurchase | resume => exact absurd (by decide) hr
  | _ => simpa [Request.allowed, or_assoc] using hstate

/-- A state that differs from the one handed over in its port alone. -/
def readAfter (n : Nat) (s v : State) : Prop := v = { handedOver n s with port := v.port }

theorem readAfter_self (n : Nat) (s : State) : readAfter n s (handedOver n s) := rfl

theorem readAfter_partRead (n : Nat) (s : State) : readAfter n s (partRead (handedOver n s)) := rfl

/-- R29: a request that fails a test changes its slot alone. -/
theorem endFailed_readAfter {v : State} (e : RequestError) (hm : MemWf s.mem) (hq : s.part.queue = n :: rest)
    (hv : readAfter n s v) : let u := endFailed n e v
    SlotShows n 4 e.code s u ∧ WordsKept [requestWord n 0] s u ∧ u.part = afterRequest n rest s.part ∧
      u = { s with mem := u.mem, port := u.port, part := u.part } := by
  have hmem : v.mem = (handedOver n s).mem := by rw [hv]
  have hpart : v.part = (handedOver n s).part := by rw [hv]
  have hsame : (endFailed n e v).mem = (endFailed n e (handedOver n s)).mem := by
    show memSetWord v.mem _ (codeWord (field (memWord v.mem _) 0 8) 4 e) = memSetWord (handedOver n s).mem _ _
    rw [hmem]
    rfl
  have hword (a : Nat) : rd (endFailed n e v) a = rd (endFailed n e (handedOver n s)) a := rd_congr hsame a
  obtain ⟨hshows, hkept, hpart', -⟩ := endFailed_handedOver e hm hq
  refine ⟨?_, fun a ha => (hword a).trans (hkept a ha), ?_, ?_⟩
  · simpa only [SlotShows, requestCode, requestStatus, hword] using hshows
  · rw [← hpart', endFailed_frame, endFailed_frame n e (handedOver n s), hpart]
  · rw [endFailed_frame, hv, handedOver_frame]

theorem request_fails (hm : MemWf s.mem) (h : AtHead r n rest s) (ha : r.allowed s.part.state = true) {e : RequestError}
    {v : State} (hv : readAfter n s v) (ho : requestOwner r n (handedOver n s) = endFailed n e v) :
    ∃ u, exec r.command s = .next (concluded s u) ∧ SlotShows n 4 e.code s u ∧ WordsKept [requestWord n 0] s u ∧
      u.part = afterRequest n rest s.part ∧ u = { s with mem := u.mem, port := u.port, part := u.part } :=
  ⟨_, by rw [exec_request h ha, ho], endFailed_readAfter e hm h.2.1 hv⟩

/-- A request that ends before it is handed to an owner. -/
theorem endFailed_popped (e : RequestError) (hm : MemWf s.mem) (hq : s.part.queue = n :: rest) :
    let t := endFailed n e (popRequest s)
    SlotShows n 4 e.code s t ∧ WordsKept [requestWord n 0] s t ∧ t.part = afterRequest n rest s.part ∧
      t = { s with mem := t.mem, port := t.port, part := t.part } := by
  refine ⟨slotShows_endFailed (s := popRequest s) n e hm, wordsKept_endFailed n e (popRequest s), ?_, rfl⟩
  rw [endFailed_frame]
  show ({ s.part with queue := s.part.queue.drop 1, inProgress := _ } : Part) = _
  rw [hq]
  rfl

/-- Settles O23: an unknown code and a wrong part state both end the request before any owner has it. -/
theorem refusedRequestsFail : Obligations.RefusedRequestsFail := by
  unfold Obligations.RefusedRequestsFail
  refine ⟨fun n rest s hm hs hq _ hcode => ?_, fun r n rest s hm h hstate => ?_⟩
  · have hnone : namesNoRequest (requestCode s n) = true := by simpa [namesNoRequest] using hcode
    have hfail : failUnknown s = endFailed n .unknownCode (popRequest s) := by
      simp only [failUnknown, takeRequest, hq, hs, hnone, and_self, if_true]
    exact ⟨_, next_latchArisen hfail rfl, endFailed_popped .unknownCode hm hq⟩
  · obtain ⟨hs, hq, -, hcode⟩ := h
    have hnot : r.allowed s.part.state = false := by
      rcases hstate with hp | ⟨hr, hp⟩ | ⟨rfl, hp⟩
      · rw [hp]; cases r <;> rfl
      · rcases hr with rfl | rfl <;> simpa [Request.allowed] using hp
      · rw [hp]; rfl
    have hgate : carryOut r (fun n t => settle (requestOwner r n t)) s = endFailed n .wrongState (popRequest s) := by
      have hpop : r.allowed (popRequest s).part.state = false := hnot
      simp only [carryOut, takeRequest, hq, hs, hcode, gateRequest, hpop, decide_true, and_self, if_true, Bool.false_eq_true,
        if_false]
    exact ⟨_, (exec_command r s).trans (next_latchArisen hgate rfl), endFailed_popped .wrongState hm hq⟩

end Sys2Proof.Machine


/-! ## Elements that join and leave the tree (R110, R122, R123) -/

namespace Sys2Proof.Machine

variable {s t u v : State} {n : Nat} {rest : List Nat}

/-! Requests that end DONE (R29). -/

/-- Words written beside the two of a slot. -/
def slotAnd (n : Nat) (p : Nat → Bool) (a : Nat) : Bool := decide (a ∈ slotWords n) || p a

/-- What its owner has left of the slot's code word, the end of the request rewrites. -/
theorem slotShows_done (hm : MemWf s.mem) (hv : MemWf v.mem)
    (hword : rd v (requestWord n 0) = rd (handedOver n s) (requestWord n 0)) (result : Nat) :
    SlotShows n 3 0 s (endDone n result v) := by
  obtain ⟨hcode, hstatus, herror⟩ := slotShows_endDone n result hv
  exact ⟨hcode.trans ((congrArg (field · 0 8) hword).trans (requestCode_handedOver n hm)), hstatus, herror⟩

theorem keptOutside_done {p : Nat → Bool} (hk : KeptOutside p (handedOver n s) v) (result : Nat) :
    KeptOutside (slotAnd n p) s (endDone n result v) := by
  have hslot (a : Nat) (ha : a ∈ slotWords n) : slotAnd n p a = true := by simp [slotAnd, ha]
  refine ((wordsKept_handedOver n s).keptOutside fun a ha => hslot a (by simp_all [slotWords])).trans ?_
  refine (hk.mono fun a ha => by simp [slotAnd, ha]).trans ((wordsKept_endDone n result v).keptOutside hslot)

theorem part_done (hq : s.part.queue = n :: rest) (hpart : v.part = (handedOver n s).part) (result : Nat) :
    (endDone n result v).part = afterRequest n rest s.part := by
  rw [endDone_frame, hpart, handedOver_frame, hq]
  rfl

theorem rd_done {a : Nat} (ha : a ∉ slotWords n) (result : Nat) : rd (endDone n result v) a = rd v a :=
  wordsKept_endDone n result v a ha

theorem slotWords_place {a : Nat} (hn : n < 8) (ha : a ∈ slotWords n) : 0x80 ≤ a ∧ a < 0xA0 := by
  simp only [slotWords, List.mem_cons, List.not_mem_nil, or_false, requestWord] at ha
  omega

theorem ringsKept_done (hn : n < 8) (result : Nat) : RingsKept v (endDone n result v) :=
  (wordsKept_endDone n result v).ringsKept fun a ha => by
    have := slotWords_place hn ha
    rw [ringPlace_eq_false_iff]
    omega

theorem withRings_slotAnd {ws : List Nat} (h : KeptOutside (slotAnd n (withRings ws)) s t) :
    KeptOutside (withRings (slotWords n ++ ws)) s t :=
  h.mono fun a ha => by
    simp only [slotAnd, withRings, Bool.or_eq_true, decide_eq_true_eq, List.mem_append] at ha ⊢
    tauto

/-- R29: the slot and the words left by a request that ends DONE, when its owner has written `ws` and records of the rings. -/
theorem request_done (hm : MemWf s.mem) (hn : n < 8) (hq : s.part.queue = n :: rest) (hwf : MemWf v.mem)
    (hpart : v.part = (handedOver n s).part) {ws : List Nat} (hws : requestWord n 0 ∉ ws)
    (hk : KeptOutside (withRings ws) (handedOver n s) v) (result : Nat) : let u := endDone n result v
    SlotShows n 3 0 s u ∧ rd u (requestWord n 3) = wordOf result ∧ KeptOutside (withRings (slotWords n ++ ws)) s u ∧
      u.part = afterRequest n rest s.part := by
  refine ⟨slotShows_done hm hwf (hk _ ?_) result, rd_endDone_result n result hwf, withRings_slotAnd (keptOutside_done hk result),
    part_done hq hpart result⟩
  rw [← Bool.not_eq_true, withRings_iff, ringPlace_requestWord hn (by decide)]
  simp [hws]

theorem ringLaw_of_writer (hring : RingLaw s) (h : t.writer = s.writer) : RingLaw t := by
  have hcopy (m : RingName) : ringCopy t m = ringCopy s m := by cases m <;> simp only [ringCopy, h]
  simpa only [ringLaw_iff, hcopy] using hring

/-- R173: a record appended by the owner of a request stands when the request has ended. -/
theorem logged_done {k : LogKind} {x a b c : Nat} (hn : n < 8) (hring : RingLaw s) (hwf : MemWf v.mem)
    (hw : v.writer = s.writer) (hc : v.clock = s.clock) (result : Nat) :
    Logged k x a b c s (endDone n result (logAppend k x a b c v)) :=
  logged_logAppend hwf hring hw hc (ringsKept_done hn result) (endDone_writer n result _)

theorem elementWords_free (n i : Nat) (ws : List Nat) : requestWord n 0 ∉ ws.map (elementWord i) ∨ 8 ≤ n := by
  by_cases hn : 8 ≤ n
  · exact .inr hn
  · refine .inl fun h => ?_
    obtain ⟨w, -, hw⟩ := List.mem_map.1 h
    unfold elementWord requestWord at hw
    omega

theorem requestWord_not_elementWords (hn : n < 8) (i : Nat) (ws : List Nat) : requestWord n 0 ∉ ws.map (elementWord i) :=
  (elementWords_free n i ws).resolve_right (by omega)

/-! Words written one after another, each once. -/

theorem rd_wrAll_mem {l : List (Nat × Word)} : ∀ {s : State}, MemWf s.mem → (l.map Prod.fst).Nodup → ∀ {a : Nat} {w : Word},
    (a, w) ∈ l → rd (wrAll s l) a = w := by
  induction l with
  | nil => exact fun _ _ _ _ h => absurd h List.not_mem_nil
  | cons x l ih =>
    intro s hm hnodup a w h
    obtain ⟨hx, hl⟩ := List.nodup_cons.1 hnodup
    rcases List.mem_cons.1 h with rfl | h
    · exact (wrAll_wordsKept l _ a hx).trans (rd_wr_same s a w hm)
    · exact ih (wr_wf s _ _ hm) hl h

/-- The words of an element's record are as many places. -/
theorem elementWords_nodup (i : Nat) {ws : List Nat} (h : ws.Nodup) : (ws.map (elementWord i)).Nodup :=
  h.map fun _ _ he => Nat.add_left_cancel he

theorem elementWord_place {i w a : Nat} (hi : i < 256) (hw : w < 16) (ha : a = elementWord i w) : 0x1000 ≤ a ∧ a < 0x2000 := by
  subst ha
  unfold elementWord
  omega

theorem elementWord_not_slotWords (hn : n < 8) {i w : Nat} : elementWord i w ∉ slotWords n := fun h => by
  have := slotWords_place hn h
  unfold elementWord at this
  omega

/-! Tables. -/

theorem tableGet_tableErase_same {α : Type} (t : List (Nat × α)) (k : Nat) : tableGet (tableErase t k) k = none := by
  induction t with
  | nil => rfl
  | cons x t ih =>
    unfold tableErase
    by_cases hx : x.1 = k
    · rw [List.filter_cons_of_neg (by simp [hx])]
      exact ih
    · rw [List.filter_cons_of_pos (by simp [hx]), tableGet, if_neg (Ne.symm hx)]
      exact ih

theorem tableGet_tableErase_other {α : Type} (t : List (Nat × α)) {k j : Nat} (hj : j ≠ k) :
    tableGet (tableErase t k) j = tableGet t j := by
  induction t with
  | nil => rfl
  | cons x t ih =>
    unfold tableErase
    by_cases hx : x.1 = k
    · rw [List.filter_cons_of_neg (by simp [hx]), tableGet, if_neg (hx ▸ hj)]
      exact ih
    · rw [List.filter_cons_of_pos (by simp [hx]), tableGet, tableGet]
      exact congrArg (fun x => ite _ _ x) ih

/-! The arguments of a request. -/

theorem argB_handedOver (n : Nat) (s : State) : argB (handedOver n s) n = argB s n :=
  congrArg BitVec.toNat (wordsKept_handedOver n s _ (by simp [requestWord_inj]))

theorem argResult_handedOver (n : Nat) (s : State) : argResult (handedOver n s) n = argResult s n :=
  congrArg BitVec.toNat (wordsKept_handedOver n s _ (by simp [requestWord_inj]))

@[simp] theorem handedOver_plant (n : Nat) (s : State) : (handedOver n s).plant = s.plant := rfl
@[simp] theorem handedOver_order (n : Nat) (s : State) : (handedOver n s).order = s.order := rfl
@[simp] theorem handedOver_clock (n : Nat) (s : State) : (handedOver n s).clock = s.clock := rfl
@[simp] theorem handedOver_writer (n : Nat) (s : State) : (handedOver n s).writer = s.writer := rfl
@[simp] theorem handedOver_sched (n : Nat) (s : State) : (handedOver n s).sched = s.sched := rfl

/-! ADD_ELEMENT (R122). -/

theorem wrAll_append (l l' : List (Nat × Word)) : ∀ s : State, wrAll s (l ++ l') = wrAll (wrAll s l) l' := by
  induction l with
  | nil => exact fun _ => rfl
  | cons x l ih => exact fun s => ih _

theorem wrAll_mem_congr (l : List (Nat × Word)) : ∀ {s t : State}, s.mem = t.mem → (wrAll s l).mem = (wrAll t l).mem := by
  induction l with
  | nil => exact fun h => h
  | cons x l ih => exact fun h => ih (congrArg (memSetWord · x.1 x.2) h)

/-- The words of a new element's record, up to its outage start stamp. -/
def elementHeadWords (i address parent : Nat) : List (Nat × Word) :=
  [(elementWord i 0, wordOf address), (elementWord i 1, wordOf parent), (elementWord i 4, 1), (elementWord i 5, 0),
   (elementWord i 6, 0), (elementWord i 7, 0), (elementWord i 8, 0)]

/-- Its outage start stamp. -/
def elementStampWords (i : Nat) : List (Nat × Word) :=
  [(elementWord i 9, pairLowWord 0), (elementWord i 9 + 1, pairHighWord 0)]

/-- The two words after it. -/
def elementTailWords (i : Nat) : List (Nat × Word) := [(elementWord i 11, 0), (elementWord i 12, 0)]

/-- The eleven words of a new element's record. -/
def newElementWords (i address parent : Nat) : List (Nat × Word) :=
  elementHeadWords i address parent ++ (elementStampWords i ++ elementTailWords i)

theorem writeElement_eq (i address parent : Nat) (s : State) : writeElement i address parent s =
    wrAll (wrHeld (wrAll s (elementHeadWords i address parent)) (elementStampWords i)) (elementTailWords i) := by
  unfold writeElement elementHeadWords elementStampWords elementTailWords wrPair
  rfl

theorem writeElement_mem (i address parent : Nat) (s : State) :
    (writeElement i address parent s).mem = (wrAll s (newElementWords i address parent)).mem := by
  rw [writeElement_eq, newElementWords, wrAll_append, wrAll_append]
  exact wrAll_mem_congr _ (wrHeld_mem _ _)

theorem writeElement_frame (i address parent : Nat) (s : State) : writeElement i address parent s =
    { s with mem := (writeElement i address parent s).mem, port := (writeElement i address parent s).port } := by
  rw [writeElement_eq, wrAll_frame, wrHeld_frame, wrAll_frame]

theorem newElementWords_places (i address parent : Nat) :
    (newElementWords i address parent).map Prod.fst = [0, 1, 4, 5, 6, 7, 8, 9, 10, 11, 12].map (elementWord i) := rfl

theorem rd_writeElement {i address parent : Nat} (hm : MemWf s.mem) {a : Nat} {w : Word}
    (h : (a, w) ∈ newElementWords i address parent) : rd (writeElement i address parent s) a = w :=
  (rd_congr (writeElement_mem i address parent s) a).trans (rd_wrAll_mem hm (by
    rw [newElementWords_places]
    exact elementWords_nodup i (by decide)) h)

theorem writeElement_kept (i address parent : Nat) (s : State) :
    WordsKept ([0, 1, 4, 5, 6, 7, 8, 9, 10, 11, 12].map (elementWord i)) s (writeElement i address parent s) := fun a ha =>
  (rd_congr (writeElement_mem i address parent s) a).trans
    (wrAll_wordsKept (newElementWords i address parent) s a (by rw [newElementWords_places]; exact ha))

theorem writeElement_wf (i address parent : Nat) (hm : MemWf s.mem) : MemWf (writeElement i address parent s).mem := by
  rw [writeElement_mem]
  exact wrAll_wf _ _ hm

/-- The tree with a new element. -/
def grownTree (i address parent : Nat) (s : State) : Tree :=
  tableSet s.plant.tree i { address := address, parent := parent, state := .unpolled }

/-- The state in which the new element's record is written and the tree has it. -/
def elementAdded (i address parent : Nat) (s : State) : State :=
  { writeElement i address parent s with plant := { s.plant with tree := grownTree i address parent s } }

theorem elementAdded_frame (i address parent : Nat) (s : State) : elementAdded i address parent s =
    { s with mem := (writeElement i address parent s).mem, port := (writeElement i address parent s).port
             plant := { s.plant with tree := grownTree i address parent s } } := by
  rw [elementAdded, writeElement_frame]

theorem elementAdded_mem (i address parent : Nat) (s : State) :
    (elementAdded i address parent s).mem = (writeElement i address parent s).mem := by
  rw [elementAdded_frame]

theorem elementAdded_kept (i address parent : Nat) (s : State) :
    KeptOutside (withRings ([0, 1, 4, 5, 6, 7, 8, 9, 10, 11, 12].map (elementWord i))) s (elementAdded i address parent s) := by
  intro a ha
  rw [rd_congr (elementAdded_mem i address parent s) a]
  exact (writeElement_kept i address parent s).withRings (List.Subset.refl _) a ha

/-- The state in which the new element is logged. -/
def elementLogged (i address parent : Nat) (s : State) : State :=
  logAppend .topology i TopologyChange.add.code 0 parent (elementAdded i address parent s)

theorem elementLogged_frame (i address parent : Nat) (s : State) : elementLogged i address parent s = { s with
    mem := (elementLogged i address parent s).mem, port := (elementLogged i address parent s).port
    plant := { s.plant with tree := grownTree i address parent s }
    writer := (elementLogged i address parent s).writer, flags := (elementLogged i address parent s).flags } := by
  rw [elementLogged, logAppend_frame, elementAdded_frame]

theorem addElement_of_none (h : addFault s (argA s n) (argB s n) (argResult s n) = none) : addElement n s =
    endDone n (depthOf (grownTree (argA s n) (argB s n) (argResult s n) s) (argA s n))
      (elementLogged (argA s n) (argB s n) (argResult s n) s) := by
  have hplant : (writeElement (argA s n) (argB s n) (argResult s n) s).plant = s.plant := by rw [writeElement_frame]
  unfold addElement
  dsimp only
  rw [h]
  dsimp only
  rw [hplant]
  rfl

theorem addElement_of_some {e : RequestError} (h : addFault s (argA s n) (argB s n) (argResult s n) = some e) :
    addElement n s = endFailed n e s := by
  unfold addElement
  dsimp only
  rw [h]

theorem isElementIndex_eq_false_iff (i : Nat) : isElementIndex i = false ↔ i = 0 ∨ 255 < i := by
  rw [← Bool.not_eq_true, isElementIndex_iff]
  omega

theorem addressTaken_iff (t : Tree) (a : Nat) : addressTaken t a = true ↔ a = 0 ∨ ∃ p ∈ t, p.2.address = a := by
  simp [addressTaken]

theorem addElement_succeeds (i address parent : Nat) (hm : MemWf s.mem) (hring : RingLaw s) (h : AtHead .addElement n rest s)
    (hp : s.part.state ≠ .unplanned) (hA : argA s n = i) (hB : argB s n = address) (hR : argResult s n = parent)
    (h1 : 1 ≤ i) (h255 : i ≤ 255) (hparent : parent ≤ 255) (hfree : elementInUse s.plant.tree i = false) (haddr : address ≠ 0)
    (huniq : ∀ p ∈ s.plant.tree, p.2.address ≠ address) (huse : elementInUse s.plant.tree parent = true)
    (hdepth : depthOf s.plant.tree parent < 8) :
     ∃ u, exec .addElement s = .next (concluded s u) ∧
       tableGet u.plant.tree i = some { address := address, parent := parent, state := .unpolled } ∧
       (∀ j, j ≠ i → tableGet u.plant.tree j = tableGet s.plant.tree j) ∧
       rd u (elementWord i 0) = wordOf address ∧ rd u (elementWord i 1) = wordOf parent ∧
       rd u (elementWord i 4) = 1 ∧ (∀ w, 5 ≤ w → w ≤ 12 → rd u (elementWord i w) = 0) ∧
       SlotShows n 3 0 s u ∧ rd u (requestWord n 3) = wordOf (depthOf u.plant.tree i) ∧
       Logged .topology i 0 0 parent s u ∧
       KeptOutside (withRings (slotWords n ++ [0, 1, 4, 5, 6, 7, 8, 9, 10, 11, 12].map (elementWord i))) s u ∧
       u.part = afterRequest n rest s.part ∧
       u = { s with
         mem := u.mem, port := u.port, part := u.part, plant := { s.plant with tree := u.plant.tree }
         writer := u.writer, flags := u.flags } := by
  have ⟨hs, hq, hn, _⟩ := h
  have hfault : addFault s i address parent = none := by
    unfold addFault
    dsimp only
    rw [if_neg (by rw [isElementIndex_eq_false_iff]; omega), if_neg (by simp [hfree]),
      if_neg (by rw [addressTaken_iff]; exact fun h => h.elim haddr fun ⟨p, hp, h⟩ => huniq p hp h),
      if_neg (by simp [huse]), if_neg (by omega)]
  have hdone : addElement n (handedOver n s) = endDone n (depthOf (grownTree i address parent s) i)
      (elementLogged i address parent (handedOver n s)) := by
    have hdone := addElement_of_none (n := n) (s := handedOver n s)
    rw [argA_handedOver, argB_handedOver, argResult_handedOver, hA, hB, hR] at hdone
    exact hdone hfault
  have hwf : MemWf (elementAdded i address parent (handedOver n s)).mem := by
    rw [elementAdded_mem]
    exact writeElement_wf i address parent (handedOver_wf n hm)
  have hwriter : (elementAdded i address parent (handedOver n s)).writer = s.writer := by
    rw [elementAdded_frame]
    rfl
  have hlog : KeptOutside ringPlace (elementAdded i address parent (handedOver n s))
      (elementLogged i address parent (handedOver n s)) :=
    logAppend_kept (ringLaw_of_writer hring hwriter) _ _ _ _ _
  have hkept : KeptOutside (withRings ([0, 1, 4, 5, 6, 7, 8, 9, 10, 11, 12].map (elementWord i))) (handedOver n s)
      (elementLogged i address parent (handedOver n s)) := (elementAdded_kept i address parent (handedOver n s)).trans hlog.withRings
  have hframe := elementLogged_frame i address parent (handedOver n s)
  have hrecord (w : Nat) (x : Word) (hx : (elementWord i w, x) ∈ newElementWords i address parent) (hw : w < 16) (result : Nat) :
      rd (endDone n result (elementLogged i address parent (handedOver n s))) (elementWord i w) = x :=
    (rd_done (elementWord_not_slotWords hn) result).trans
      ((hlog _ (ringPlace_elementWord (by omega) hw)).trans
        ((rd_congr (elementAdded_mem i address parent _) _).trans (rd_writeElement (handedOver_wf n hm) hx)))
  have hlogged := logged_done (k := .topology) (x := i) (a := 0) (b := 0) (c := parent)
    (v := elementAdded i address parent (handedOver n s)) hn hring hwf hwriter
    (by rw [elementAdded_frame]; rfl) (depthOf (grownTree i address parent s) i)
  have hwfv : MemWf (elementLogged i address parent (handedOver n s)).mem := logAppend_wf _ _ _ _ _ _ hwf
  generalize hv : elementLogged i address parent (handedOver n s) = v at hdone hkept hframe hrecord hwfv
  obtain ⟨hshows, hresult, hkept', hpart⟩ := request_done hm hn hq hwfv (by rw [hframe])
    (requestWord_not_elementWords hn i _) hkept (depthOf (grownTree i address parent s) i)
  have htree : (endDone n (depthOf (grownTree i address parent s) i) v).plant.tree = grownTree i address parent s := by
    rw [endDone_plant, hframe]
    rfl
  refine ⟨_, (exec_request (r := .addElement) h (allowed_of_planned (by decide) hs hp)).trans
    (congrArg (fun v => Host.Outcome.next (concluded s v)) hdone), ?_⟩
  refine ⟨by rw [htree]; exact tableGet_tableSet_same _ _ _, fun j hj => by rw [htree]; exact tableGet_tableSet_other _ _ hj,
    hrecord 0 _ (by simp [newElementWords, elementHeadWords]) (by decide) _,
    hrecord 1 _ (by simp [newElementWords, elementHeadWords]) (by decide) _,
    hrecord 4 _ (by simp [newElementWords, elementHeadWords]) (by decide) _, fun w h5 h12 => hrecord w 0 ?_ (by omega) _,
    hshows, by rw [hresult, htree], by rw [← hv]; exact hlogged, hkept', hpart, ?_⟩
  · have hlow : pairLowWord 0 = 0 := by decide
    have hhigh : pairHighWord 0 = 0 := by decide
    have hnext : elementWord i 9 + 1 = elementWord i 10 := rfl
    interval_cases w <;> simp [newElementWords, elementHeadWords, elementStampWords, elementTailWords, hlow, hhigh, hnext]
  · rw [endDone_frame, hframe]
    rfl

/-! RETIRE_ELEMENT (R123). -/

/-- The Plant Monitor without an element: its tree and the four counts (R127). -/
def droppedPlant (i : Nat) (e : Element) (s : State) : Plant :=
  { s.plant with
    tree := tableErase s.plant.tree i
    outCount := s.plant.outCount - (if e.state = .out then 1 else 0)
    latchedCount := s.plant.latchedCount - (if e.state = .latchedOut then 1 else 0)
    slowCount := s.plant.slowCount - warningCount s i 0
    standbyCount := s.plant.standbyCount - warningCount s i 1 }

/-- The four words written of the record of an element that leaves the tree. -/
def droppedWords (i : Nat) : List (Nat × Word) :=
  [(elementWord i 7, 0), (elementWord i 0, 0), (elementWord i 4, 0), (elementWord i 5, 0)]

/-- The state in which the element has left the record and the tree. -/
def elementDropped (i : Nat) (e : Element) (s : State) : State :=
  { wrAll s (droppedWords i) with plant := droppedPlant i e s }

theorem elementDropped_mem (i : Nat) (e : Element) (s : State) :
    (elementDropped i e s).mem = (wrAll s (droppedWords i)).mem := rfl

theorem elementDropped_frame (i : Nat) (e : Element) (s : State) : elementDropped i e s =
    { s with mem := (wrAll s (droppedWords i)).mem, port := (wrAll s (droppedWords i)).port, plant := droppedPlant i e s } := by
  rw [elementDropped, wrAll_frame]

theorem countChange_off (k : Nat) (w : Word) (b : Nat) :
    countChange k (w.getLsbD b) false = k - (if w.getLsbD b then 1 else 0) := rfl

theorem uncountState_eq (st : ElementState) (s : State) : uncountState st s =
    { s with plant := { s.plant with
        outCount := s.plant.outCount - (if st = .out then 1 else 0)
        latchedCount := s.plant.latchedCount - (if st = .latchedOut then 1 else 0) } } := by
  cases st <;> rfl

theorem setWarnings_off (i : Nat) (s : State) : setWarnings i false false s =
    { wr s (elementWord i 7) 0 with plant := { s.plant with
        slowCount := s.plant.slowCount - warningCount s i 0, standbyCount := s.plant.standbyCount - warningCount s i 1 } } := by
  have hword : ((if false = true then slowBit else 0) ||| (if false = true then standbyBit else 0) : Word) = 0 := by decide
  unfold setWarnings
  dsimp only
  rw [hword, countChange_off, countChange_off]
  rfl

theorem dropElement_eq (i : Nat) (e : Element) (s : State) : dropElement i e s =
    logAppend .topology i TopologyChange.retire.code e.parent 0 (elementDropped i e s) := by
  unfold dropElement logTopology elementDropped droppedPlant droppedWords
  rw [setWarnings_off, uncountState_eq]
  simp only [wrAll, wr, grantPort]

theorem droppedWords_places (i : Nat) : (droppedWords i).map Prod.fst = [7, 0, 4, 5].map (elementWord i) := rfl

theorem rd_elementDropped {i : Nat} {e : Element} (hm : MemWf s.mem) {w : Nat} (hw : w ∈ [0, 4, 5, 7]) :
    rd (elementDropped i e s) (elementWord i w) = 0 := by
  rw [rd_congr (elementDropped_mem i e s)]
  refine rd_wrAll_mem hm ?_ ?_
  · rw [droppedWords_places]
    exact elementWords_nodup i (by decide)
  · simp only [List.mem_cons, List.not_mem_nil, or_false] at hw
    rcases hw with rfl | rfl | rfl | rfl <;> simp [droppedWords]

theorem elementDropped_kept (i : Nat) (e : Element) (s : State) :
    KeptOutside (withRings ([0, 4, 5, 7].map (elementWord i))) s (elementDropped i e s) := by
  intro a ha
  rw [rd_congr (elementDropped_mem i e s) a]
  refine (wrAll_wordsKept (droppedWords i) s).withRings ?_ a ha
  rw [droppedWords_places]
  exact List.map_subset _ (by decide)

theorem warningCount_of_zero {i : Nat} (b : Nat) (h : rd s (elementWord i 7) = 0) : warningCount s i b = 0 := by
  simp [warningCount, h]

theorem retireElement_succeeds (i : Nat) (e : Element) (hm : MemWf s.mem) (hring : RingLaw s)
    (h : AtHead .retireElement n rest s) (hp : s.part.state ≠ .unplanned) (hA : argA s n = i) (h1 : 1 ≤ i) (h255 : i ≤ 255)
    (he : tableGet s.plant.tree i = some e) (hchildren : ∀ p ∈ s.plant.tree, p.2.parent ≠ i)
    (hdirect : countOf s.order.direct i = 0) :
    ∃ u, exec .retireElement s = .next (concluded s u) ∧
       tableGet u.plant.tree i = none ∧ (∀ j, j ≠ i → tableGet u.plant.tree j = tableGet s.plant.tree j) ∧
       rd u (elementWord i 0) = 0 ∧ rd u (elementWord i 4) = 0 ∧ rd u (elementWord i 5) = 0 ∧
       rd u (elementWord i 7) = 0 ∧
       u.plant.outCount = s.plant.outCount - (if e.state = .out then 1 else 0) ∧
       u.plant.latchedCount = s.plant.latchedCount - (if e.state = .latchedOut then 1 else 0) ∧
       WarningsMoved i s u ∧
       u.plant = { s.plant with
         tree := u.plant.tree, outCount := u.plant.outCount, latchedCount := u.plant.latchedCount
         slowCount := u.plant.slowCount, standbyCount := u.plant.standbyCount } ∧
       SlotShows n 3 0 s u ∧ rd u (requestWord n 3) = 0 ∧ Logged .topology i 1 e.parent 0 s u ∧
       KeptOutside (withRings (slotWords n ++ [0, 4, 5, 7].map (elementWord i))) s u ∧
       u.part = afterRequest n rest s.part ∧
       u = { s with
         mem := u.mem, port := u.port, part := u.part, plant := u.plant, writer := u.writer, flags := u.flags } := by
  have ⟨hs, hq, hn, _⟩ := h
  have hfault : retireFault s i = none := by
    unfold retireFault
    dsimp only
    rw [if_neg (by rw [isElementIndex_eq_false_iff]; omega), if_neg (by simp [elementInUse, he]),
      if_neg (by simpa [hdirect] using hchildren)]
  have hdone : retireElement n (handedOver n s) = endDone n 0 (logAppend .topology i TopologyChange.retire.code e.parent 0
      (elementDropped i e (handedOver n s))) := by
    rw [← dropElement_eq]
    unfold retireElement
    dsimp only
    rw [argA_handedOver, hA]
    have hfault' : retireFault (handedOver n s) i = none := hfault
    rw [hfault', handedOver_plant, he]
  have hmh := handedOver_wf n hm
  have hwf : MemWf (elementDropped i e (handedOver n s)).mem := wrAll_wf _ _ hmh
  have hwriter : (elementDropped i e (handedOver n s)).writer = s.writer := by
    rw [elementDropped_frame]
    rfl
  have hclock : (elementDropped i e (handedOver n s)).clock = s.clock := by
    rw [elementDropped_frame]
    rfl
  have hlog := logAppend_kept (ringLaw_of_writer hring hwriter) .topology i TopologyChange.retire.code e.parent 0
  have hkept := (elementDropped_kept i e (handedOver n s)).trans hlog.withRings
  have hlogged := logged_done (k := .topology) (x := i) (a := 1) (b := e.parent) (c := 0) hn hring hwf hwriter hclock 0
  have hzero (w : Nat) (hw : w ∈ [0, 4, 5, 7]) : rd (endDone n 0 (logAppend .topology i TopologyChange.retire.code e.parent 0
      (elementDropped i e (handedOver n s)))) (elementWord i w) = 0 :=
    (rd_done (elementWord_not_slotWords hn) 0).trans ((hlog _ (ringPlace_elementWord (by omega) (by simp at hw; omega))).trans
      (rd_elementDropped hmh hw))
  have hwfv := logAppend_wf .topology i TopologyChange.retire.code e.parent 0 _ hwf
  have hframe : logAppend .topology i TopologyChange.retire.code e.parent 0 (elementDropped i e (handedOver n s)) =
      { handedOver n s with
        mem := (logAppend .topology i TopologyChange.retire.code e.parent 0 (elementDropped i e (handedOver n s))).mem
        port := (logAppend .topology i TopologyChange.retire.code e.parent 0 (elementDropped i e (handedOver n s))).port
        plant := droppedPlant i e (handedOver n s)
        writer := (logAppend .topology i TopologyChange.retire.code e.parent 0 (elementDropped i e (handedOver n s))).writer
        flags := (logAppend .topology i TopologyChange.retire.code e.parent 0 (elementDropped i e (handedOver n s))).flags } := by
    rw [logAppend_frame, elementDropped_frame]
  generalize hv : logAppend .topology i TopologyChange.retire.code e.parent 0 (elementDropped i e (handedOver n s)) = v
    at hdone hkept hframe hzero hwfv
  obtain ⟨hshows, hresult, hkept', hpart⟩ := request_done hm hn hq hwfv (by rw [hframe])
    (requestWord_not_elementWords hn i _) hkept 0
  have hplant : (endDone n 0 v).plant = droppedPlant i e (handedOver n s) := by
    rw [endDone_plant, hframe]
  have hslot : elementWord i 7 ∉ slotWords n := elementWord_not_slotWords hn
  have hwarn (b : Nat) : warningCount (handedOver n s) i b = warningCount s i b := by
    have := wordsKept_handedOver n s (elementWord i 7) (fun h => by
      rw [List.mem_singleton.1 h] at hslot
      exact hslot List.mem_cons_self)
    unfold warningCount
    rw [this]
  have hoff (b : Nat) := warningCount_of_zero b (hzero 7 (by decide))
  refine ⟨_, (exec_request (r := .retireElement) h (allowed_of_planned (by decide) hs hp)).trans
    (congrArg (fun v => Host.Outcome.next (concluded s v)) hdone), ?_⟩
  refine ⟨by rw [hplant]; exact tableGet_tableErase_same _ _,
    fun j hj => by rw [hplant]; exact tableGet_tableErase_other _ hj,
    hzero 0 (by decide), hzero 4 (by decide), hzero 5 (by decide), hzero 7 (by decide), by rw [hplant]; rfl, by rw [hplant]; rfl,
    ⟨?_, ?_⟩, by rw [hplant]; rfl, hshows, hresult, by rw [← hv]; exact hlogged, hkept', hpart, ?_⟩
  · rw [hoff, Nat.add_zero, hplant, ← hwarn]
    rfl
  · rw [hoff, Nat.add_zero, hplant, ← hwarn]
    rfl
  · rw [endDone_frame, hframe]
    rfl

/-! The tests that fail (R122, R123). -/

theorem elementInUse_iff {t : Tree} {i : Nat} : elementInUse t i = true ↔ i = 0 ∨ tableGet t i ≠ none := by
  simp [elementInUse, Option.isSome_iff_ne_none]

theorem addFault_code {i address parent e : Nat}
    (he : if i = 0 ∨ 255 < i ∨ 255 < parent then e = 3
      else if elementInUse s.plant.tree i = true then e = 5
      else if address = 0 ∨ ∃ p ∈ s.plant.tree, p.2.address = address then e = 6
      else if elementInUse s.plant.tree parent = false then e = 4
      else 8 ≤ depthOf s.plant.tree parent ∧ e = 8) : ∃ f, addFault s i address parent = some f ∧ f.code = e := by
  unfold addFault
  dsimp only
  simp only [isElementIndex_eq_false_iff, ← addressTaken_iff, or_assoc] at he ⊢
  by_cases hindex : i = 0 ∨ 255 < i ∨ 255 < parent
  · rw [if_pos hindex] at he ⊢
    exact ⟨_, rfl, he.symm⟩
  rw [if_neg hindex] at he ⊢
  by_cases hin : elementInUse s.plant.tree i = true
  · rw [if_pos hin] at he ⊢
    exact ⟨_, rfl, he.symm⟩
  rw [if_neg hin] at he ⊢
  by_cases htaken : addressTaken s.plant.tree address = true
  · rw [if_pos htaken] at he ⊢
    exact ⟨_, rfl, he.symm⟩
  rw [if_neg htaken] at he ⊢
  by_cases hparent : elementInUse s.plant.tree parent = false
  · rw [if_pos hparent] at he ⊢
    exact ⟨_, rfl, he.symm⟩
  rw [if_neg hparent] at he ⊢
  rw [if_pos he.1]
  exact ⟨_, rfl, he.2.symm⟩

theorem retireFault_code {i e : Nat}
    (he : if i = 0 ∨ 255 < i then e = 3
      else if elementInUse s.plant.tree i = false then e = 4
      else ((∃ p ∈ s.plant.tree, p.2.parent = i) ∨ 0 < countOf s.order.direct i) ∧ e = 9) :
    ∃ f, retireFault s i = some f ∧ f.code = e := by
  unfold retireFault
  dsimp only
  simp only [isElementIndex_eq_false_iff, List.any_eq_true, decide_eq_true_eq] at he ⊢
  by_cases hindex : i = 0 ∨ 255 < i
  · rw [if_pos hindex] at he ⊢
    exact ⟨_, rfl, he.symm⟩
  rw [if_neg hindex] at he ⊢
  by_cases hin : elementInUse s.plant.tree i = false
  · rw [if_pos hin] at he ⊢
    exact ⟨_, rfl, he.symm⟩
  rw [if_neg hin] at he ⊢
  rw [if_pos he.1]
  exact ⟨_, rfl, he.2.symm⟩

theorem addElement_refused {i address parent e : Nat} (hA : argA s n = i) (hB : argB s n = address) (hR : argResult s n = parent)
    {f : RequestError} (hf : addFault s i address parent = some f) (he : f.code = e) (hm : MemWf s.mem)
    (h : AtHead .addElement n rest s) (hp : s.part.state ≠ .unplanned) :
    ∃ u, exec .addElement s = .next (concluded s u) ∧ SlotShows n 4 e s u ∧ WordsKept [requestWord n 0] s u ∧
      u.part = afterRequest n rest s.part ∧ u = { s with mem := u.mem, port := u.port, part := u.part } := by
  rw [← he]
  refine request_fails (r := .addElement) hm h (allowed_of_planned (by decide) h.1 hp) (readAfter_self n s) (addElement_of_some ?_)
  rw [argA_handedOver, argB_handedOver, argResult_handedOver, hA, hB, hR]
  exact hf

theorem retireElement_refused {i e : Nat} (hA : argA s n = i) {f : RequestError} (hf : retireFault s i = some f)
    (he : f.code = e) (hm : MemWf s.mem) (h : AtHead .retireElement n rest s) (hp : s.part.state ≠ .unplanned) :
    ∃ u, exec .retireElement s = .next (concluded s u) ∧ SlotShows n 4 e s u ∧ WordsKept [requestWord n 0] s u ∧
      u.part = afterRequest n rest s.part ∧ u = { s with mem := u.mem, port := u.port, part := u.part } := by
  rw [← he]
  refine request_fails (r := .retireElement) hm h (allowed_of_planned (by decide) h.1 hp) (readAfter_self n s) ?_
  have hf' : retireFault (handedOver n s) (argA (handedOver n s) n) = some f := by
    rw [argA_handedOver, hA]
    exact hf
  show retireElement n (handedOver n s) = _
  unfold retireElement
  dsimp only
  rw [hf']

/-! The tree from the parents of its elements (R110). -/

theorem chain_cons {t : Tree} {i : Nat} {e : Element} (fuel : Nat) (h : tableGet t i = some e) :
    chain t (fuel + 1) i = i :: chain t fuel (parentIn t i) := by
  simp only [chain, h, parentIn]

/-- R110: the k-th element of a chain is reached by taking parents, from elements all in use. -/
theorem chain_getElem? {t : Tree} (fuel : Nat) : ∀ (i k j : Nat), (chain t fuel i)[k]? = some j ↔
    k < fuel ∧ (∀ m, m ≤ k → tableGet t ((parentIn t)^[m] i) ≠ none) ∧ (parentIn t)^[k] i = j := by
  induction fuel with
  | zero => exact fun i k j => by simp [chain]
  | succ fuel ih =>
    intro i k j
    cases he : tableGet t i with
    | none =>
      have hempty : chain t (fuel + 1) i = [] := by simp only [chain, he]
      rw [hempty]
      exact ⟨fun h => by simp at h, fun ⟨_, h, _⟩ => absurd he (h 0 (Nat.zero_le k))⟩
    | some e =>
      rw [chain_cons fuel he]
      cases k with
      | zero =>
        refine ⟨fun h => ⟨Nat.succ_pos _, fun m hm => ?_, Option.some.inj h⟩, fun ⟨_, _, h⟩ => congrArg some h⟩
        rw [Nat.le_zero.1 hm]
        exact fun h => by cases he.symm.trans h
      | succ k =>
        rw [List.getElem?_cons_succ, ih, Nat.succ_lt_succ_iff]
        refine and_congr_right fun _ => and_congr_left fun _ => ⟨fun h m hm => ?_, fun h m hm => h (m + 1) (by omega)⟩
        cases m with
        | zero => exact fun h => by cases he.symm.trans h
        | succ m => exact h m (by omega)

theorem length_eq_iff {α : Type} (l : List α) {fuel : Nat} (hl : l.length ≤ fuel) (d : Nat) :
    l.length = d ↔ d ≤ fuel ∧ (∀ k, k < d → ∃ x, l[k]? = some x) ∧ ∀ x, l[d]? ≠ some x := by
  constructor
  · rintro rfl
    exact ⟨hl, fun k hk => ⟨l[k], List.getElem?_eq_getElem hk⟩, fun x => by simp⟩
  · rintro ⟨-, hsome, hnone⟩
    have hle : l.length ≤ d := List.getElem?_eq_none_iff.1 (Option.eq_none_iff_forall_ne_some.2 hnone)
    refine Nat.le_antisymm hle (Nat.le_of_not_lt fun hlt => ?_)
    obtain ⟨x, hx⟩ := hsome _ hlt
    simp at hx

theorem chain_length_le (t : Tree) (fuel : Nat) : ∀ i, (chain t fuel i).length ≤ fuel := by
  induction fuel with
  | zero => exact fun _ => Nat.le_refl 0
  | succ fuel ih =>
    intro i
    unfold chain
    split
    · exact Nat.zero_le _
    · exact Nat.succ_le_succ (ih _)

theorem selfDark_iff (t : Tree) (i : Nat) : selfDark t i = true ↔
    ∃ e, tableGet t i = some e ∧ (e.state = .out ∨ e.state = .latchedOut) := by
  unfold selfDark darkState
  cases tableGet t i <;> simp

theorem any_selfDark_iff (t : Tree) (l : List Nat) : l.any (selfDark t) = true ↔
    ∃ (k j : Nat) (e : Element), l[k]? = some j ∧ tableGet t j = some e ∧ (e.state = .out ∨ e.state = .latchedOut) := by
  simp only [List.any_eq_true, List.mem_iff_getElem?, selfDark_iff]
  exact ⟨fun ⟨j, ⟨k, hk⟩, e, he⟩ => ⟨k, j, e, hk, he⟩, fun ⟨k, j, e, hk, he⟩ => ⟨j, ⟨k, hk⟩, e, he⟩⟩

theorem foldl_max_le_iff (l : List Nat) (b : Nat) : ∀ a, l.foldl max a ≤ b ↔ a ≤ b ∧ ∀ x ∈ l, x ≤ b := by
  induction l with
  | nil => exact fun a => by simp
  | cons y l ih => exact fun a => by rw [List.foldl_cons, ih, max_le_iff, List.forall_mem_cons, and_assoc]

theorem levelsOf_le_iff (t : Tree) (i l : Nat) : levelsOf t i ≤ l ↔
    ∀ p ∈ t, inSubtree t i p.1 = true → depthOf t p.1 + 1 ≤ depthOf t i + l := by
  unfold levelsOf
  rw [foldl_max_le_iff]
  simp only [Nat.zero_le, true_and, List.forall_mem_map, List.mem_filter, and_imp]
  exact forall₃_congr fun p _ _ => by omega

theorem treeFollowsParents (t : Tree) (i : Nat) (on : Nat → Nat → Prop)
    (hon : ∀ k j, on k j ↔ k < 256 ∧ (∀ m, m ≤ k → tableGet t ((parentIn t)^[m] i) ≠ none) ∧ (parentIn t)^[k] i = j) :
     (∀ d, depthOf t i = d ↔ d ≤ 256 ∧ (∀ k, k < d → ∃ j, on k j) ∧ ∀ j, ¬on d j) ∧
     (isDark t i = true ↔
       ∃ k j e, on k j ∧ tableGet t j = some e ∧ (e.state = .out ∨ e.state = .latchedOut)) ∧
     (isShadowed t i = true ↔
       ∃ k j e, 1 ≤ k ∧ on k j ∧ tableGet t j = some e ∧ (e.state = .out ∨ e.state = .latchedOut)) ∧
     (∀ e, e ≠ 0 → (inSubtree t e i = true ↔ ∃ k, on k e)) ∧
     (∀ l, levelsOf t i ≤ l ↔ ∀ p ∈ t, inSubtree t i p.1 = true → depthOf t p.1 + 1 ≤ depthOf t i + l) := by
  have hchain (k j : Nat) : on k j ↔ (chain t chainFuel i)[k]? = some j := (hon k j).trans (chain_getElem? 256 i k j).symm
  simp only [hchain]
  refine ⟨length_eq_iff _ (chain_length_le t chainFuel i), any_selfDark_iff t _, ?_, fun e he => ?_, levelsOf_le_iff t i⟩
  · rw [isShadowed, any_selfDark_iff]
    simp only [List.getElem?_drop]
    constructor
    · rintro ⟨k, j, e, h⟩
      exact ⟨1 + k, j, e, by omega, h⟩
    · rintro ⟨k, j, e, hk, h⟩
      refine ⟨k - 1, j, e, ?_⟩
      rwa [show 1 + (k - 1) = k by omega]
  · rw [inSubtree, if_neg he, decide_eq_true_eq, List.mem_iff_getElem?]

/-- Settles O24: each request by its writes in turn, and the tree by the chains of its elements. -/
theorem elementsJoinAndLeaveTheTree : Obligations.ElementsJoinAndLeaveTheTree := by
  unfold Obligations.ElementsJoinAndLeaveTheTree
  refine ⟨fun n i address parent rest s hm hring h hp hA hB hR h1 h255 hparent hfree haddr huniq huse hdepth =>
      addElement_succeeds i address parent hm hring h hp hA hB hR h1 h255 hparent hfree haddr huniq huse hdepth,
    fun n i e rest s hm hring h hp hA h1 h255 he hchildren hdirect =>
      retireElement_succeeds i e hm hring h hp hA h1 h255 he hchildren hdirect,
    ⟨fun n i address parent e rest s hm h hp hA hB hR he => ?_, fun n i e rest s hm h hp hA he => ?_⟩, treeFollowsParents⟩
  · obtain ⟨f, hf, hcode⟩ := addFault_code he
    exact addElement_refused hA hB hR hf hcode hm h hp
  · obtain ⟨f, hf, hcode⟩ := retireFault_code he
    exact retireElement_refused hA hf hcode hm h hp

end Sys2Proof.Machine


/-! ## Elements moved and released (R124, R125) -/

namespace Sys2Proof.Machine

variable {s t u v : State} {n : Nat} {rest : List Nat}

/-! A RESTORE sweep for an element that is now lit. -/

theorem sweepIfLit_dark {i : Nat} (h : isDark s.plant.tree i = true) : sweepIfLit i s = s := if_pos h

theorem sweepIfLit_lit {i : Nat} (h : isDark s.plant.tree i = false) : sweepIfLit i s = openSweep (.restore i) s :=
  if_neg (by simp [h])

theorem sweepIfLit_frame (i : Nat) (s : State) : sweepIfLit i s = { s with
    mem := (sweepIfLit i s).mem, port := (sweepIfLit i s).port, writer := (sweepIfLit i s).writer
    flags := (sweepIfLit i s).flags, sched := { s.sched with sweeps := (sweepIfLit i s).sched.sweeps } } := by
  cases h : isDark s.plant.tree i with
  | true => rw [sweepIfLit_dark h]
  | false => rw [sweepIfLit_lit h, ← openSweep_frame]

theorem sweepIfLit_wf {i : Nat} (hm : MemWf s.mem) : MemWf (sweepIfLit i s).mem := by
  cases h : isDark s.plant.tree i with
  | true => rwa [sweepIfLit_dark h]
  | false => rw [sweepIfLit_lit h]; exact openSweep_wf _ s hm

theorem sweepIfLit_kept (i : Nat) (hring : RingLaw s) : KeptOutside ringPlace s (sweepIfLit i s) := by
  cases h : isDark s.plant.tree i with
  | true => rw [sweepIfLit_dark h]; exact KeptOutside.refl s
  | false => rw [sweepIfLit_lit h]; exact openSweep_kept hring _

theorem sweepIfLit_recordsKept (i : Nat) (s : State) : RecordsKept s (sweepIfLit i s) := by
  cases h : isDark s.plant.tree i with
  | true => rw [sweepIfLit_dark h]; exact RecordsKept.refl s
  | false => rw [sweepIfLit_lit h]; exact openSweep_recordsKept _ s

/-- R82: an element that is now lit has its RESTORE sweep, or the RESYNC it was folded into. -/
theorem sweepIfLit_opens {i : Nat} (h : isDark s.plant.tree i = false) :
    ∃ w ∈ (sweepIfLit i s).sched.sweeps, w.kind = .restore i ∨ w.kind = .resync := by
  rw [sweepIfLit_lit h]
  rcases openSweep_mandatory (k := .restore i) rfl s with hw | hw
  · exact ⟨_, hw, .inl rfl⟩
  · exact ⟨_, hw, .inr rfl⟩

/-- R81: with room in the table the sweep is opened and nothing else changes. -/
theorem sweepIfLit_room {i : Nat} (h : s.sched.sweeps.length < 4) :
    sweepIfLit i s = { s with sched := { s.sched with sweeps := (sweepIfLit i s).sched.sweeps } } := by
  cases hd : isDark s.plant.tree i with
  | true => rw [sweepIfLit_dark hd]
  | false => rw [sweepIfLit_lit hd]; exact openSweep_room h

theorem sweepIfLit_room_mem {i : Nat} (h : s.sched.sweeps.length < 4) : (sweepIfLit i s).mem = s.mem := by
  rw [sweepIfLit_room h]

theorem sweepIfLit_room_writer {i : Nat} (h : s.sched.sweeps.length < 4) : (sweepIfLit i s).writer = s.writer := by
  rw [sweepIfLit_room h]

theorem sweepIfLit_opens_restore {i : Nat} (h : isDark s.plant.tree i = false) (hroom : s.sched.sweeps.length < 4) :
    ∃ w ∈ (sweepIfLit i s).sched.sweeps, w.kind = .restore i ∧ w.cursor = 0 := by
  rw [sweepIfLit_lit h]
  exact ⟨_, openSweep_opens hroom, rfl, rfl⟩

/-! Records appended by the owner of a request, and sweeps opened after them. -/

theorem loggedFirst_done {k : LogKind} {x a b c : Nat} {w : State} (hn : n < 8) (hring : RingLaw s) (hwf : MemWf v.mem)
    (hw : v.writer = s.writer) (hc : v.clock = s.clock) (hk : RecordsKept (logAppend k x a b c v) w) (result : Nat) :
    LoggedFirst k x a b c s (endDone n result w) :=
  loggedFirst_logAppend hwf hring hw hc
    (hk.trans ((ringsKept_done hn result).recordsKept (endDone_writer n result w)))

/-- A record stands as the last one when what followed wrote no ring. -/
theorem logged_done_of_mem {k : LogKind} {x a b c : Nat} {w : State} (hn : n < 8) (hring : RingLaw s) (hwf : MemWf v.mem)
    (hw : v.writer = s.writer) (hc : v.clock = s.clock) (hmem : w.mem = (logAppend k x a b c v).mem)
    (hwriter : w.writer = (logAppend k x a b c v).writer) (result : Nat) : Logged k x a b c s (endDone n result w) :=
  logged_logAppend hwf hring hw hc ((RingsKept.of_mem hmem).trans (ringsKept_done hn result))
    ((endDone_writer n result w).trans hwriter)

/-! SET_FEED (R124). -/

theorem treeSetParent_eq {t : Tree} {i : Nat} {e : Element} (h : tableGet t i = some e) (p : Nat) :
    treeSetParent t i p = tableSet t i { e with parent := p } := by
  simp only [treeSetParent, h]

theorem treeSetState_eq {t : Tree} {i : Nat} {e : Element} (h : tableGet t i = some e) (st : ElementState) :
    treeSetState t i st = tableSet t i { e with state := st } := by
  simp only [treeSetState, h]

/-- The state in which an element has its new parent, in its record and in the tree. -/
def elementMoved (i parent : Nat) (s : State) : State :=
  wr { s with plant := { s.plant with tree := treeSetParent s.plant.tree i parent } } (elementWord i 1) (wordOf parent)

theorem elementMoved_frame (i parent : Nat) (s : State) : elementMoved i parent s = { s with
    mem := (elementMoved i parent s).mem, port := (elementMoved i parent s).port
    plant := { s.plant with tree := treeSetParent s.plant.tree i parent } } := rfl

/-- What a move leaves when the element was dark (`dark`) or lit before it. -/
def sweepAfterMove (dark : Bool) (i : Nat) (s : State) : State := if dark then sweepIfLit i s else s

theorem moveElement_eq (i oldParent parent : Nat) (s : State) : moveElement i oldParent parent s =
    sweepAfterMove (isDark s.plant.tree i) i
      (logAppend .topology i TopologyChange.setFeed.code oldParent parent (elementMoved i parent s)) := rfl

theorem sweepAfterMove_frame (dark : Bool) (i : Nat) (s : State) : sweepAfterMove dark i s = { s with
    mem := (sweepAfterMove dark i s).mem, port := (sweepAfterMove dark i s).port, writer := (sweepAfterMove dark i s).writer
    flags := (sweepAfterMove dark i s).flags
    sched := { s.sched with sweeps := (sweepAfterMove dark i s).sched.sweeps } } := by
  cases dark
  · rfl
  · exact sweepIfLit_frame i s

theorem sweepAfterMove_wf (dark : Bool) {i : Nat} (hm : MemWf s.mem) : MemWf (sweepAfterMove dark i s).mem := by
  cases dark
  · exact hm
  · exact sweepIfLit_wf hm

theorem sweepAfterMove_kept (dark : Bool) (i : Nat) (hring : RingLaw s) : KeptOutside ringPlace s (sweepAfterMove dark i s) := by
  cases dark
  · exact KeptOutside.refl s
  · exact sweepIfLit_kept i hring

theorem sweepAfterMove_recordsKept (dark : Bool) (i : Nat) (s : State) : RecordsKept s (sweepAfterMove dark i s) := by
  cases dark
  · exact RecordsKept.refl s
  · exact sweepIfLit_recordsKept i s

theorem feedFault_none {i parent : Nat} (h1 : 1 ≤ i) (h255 : i ≤ 255) (hp : parent ≤ 255)
    (hin : elementInUse s.plant.tree i = true) (hparent : elementInUse s.plant.tree parent = true)
    (hcycle : inSubtree s.plant.tree i parent = false)
    (hdepth : depthOf s.plant.tree parent + levelsOf s.plant.tree i ≤ 8) : feedFault s i parent = none := by
  unfold feedFault
  dsimp only
  rw [if_neg (by rw [isElementIndex_eq_false_iff]; omega), if_neg (by simp [hin, hparent]), if_neg (by simp [hcycle]),
    if_neg (by omega)]

theorem setFeed_of_none {e : Element} (h : feedFault s (argA s n) (argB s n) = none)
    (he : tableGet s.plant.tree (argA s n) = some e) : setFeed n s =
      if e.parent = argB s n then endDone n (depthOf s.plant.tree (argA s n)) s
      else endDone n (depthOf (moveElement (argA s n) e.parent (argB s n) s).plant.tree (argA s n))
        (moveElement (argA s n) e.parent (argB s n) s) := by
  unfold setFeed
  dsimp only
  rw [h, he]

theorem setFeed_of_some {f : RequestError} (h : feedFault s (argA s n) (argB s n) = some f) :
    setFeed n s = endFailed n f s := by
  unfold setFeed
  dsimp only
  rw [h]

theorem moveElement_frame (i oldParent parent : Nat) (s : State) : moveElement i oldParent parent s = { s with
    mem := (moveElement i oldParent parent s).mem, port := (moveElement i oldParent parent s).port
    writer := (moveElement i oldParent parent s).writer, flags := (moveElement i oldParent parent s).flags
    plant := { s.plant with tree := treeSetParent s.plant.tree i parent }
    sched := { s.sched with sweeps := (moveElement i oldParent parent s).sched.sweeps } } := by
  rw [moveElement_eq, sweepAfterMove_frame, logAppend_frame, elementMoved_frame]

theorem moveElement_tree (i oldParent parent : Nat) (s : State) :
    (moveElement i oldParent parent s).plant.tree = treeSetParent s.plant.tree i parent := by rw [moveElement_frame]

/-- The record and the sweep that a request leaves of an element that it may have lit. -/
theorem done_swept {k : LogKind} {x a b c i : Nat} {dark : Bool} {w : State} (hn : n < 8) (hring : RingLaw s)
    (hwf : MemWf w.mem) (hw : w.writer = s.writer) (hc : w.clock = s.clock) (hsched : w.sched = s.sched) (result : Nat) :
    let u := endDone n result (sweepAfterMove dark i (logAppend k x a b c w))
    (dark = false ∨ isDark w.plant.tree i = true → Logged k x a b c s u ∧ u.sched = s.sched) ∧
    (dark = true → isDark w.plant.tree i = false → ∃ p ∈ u.sched.sweeps, p.kind = .restore i ∨ p.kind = .resync) ∧
    LoggedFirst k x a b c s u ∧
    (dark = true → isDark w.plant.tree i = false → s.sched.sweeps.length < 4 →
      Logged k x a b c s u ∧ ∃ p ∈ u.sched.sweeps, p.kind = .restore i ∧ p.cursor = 0) := by
  have hltree : (logAppend k x a b c w).plant = w.plant := by rw [logAppend_frame]
  have hlsched : (logAppend k x a b c w).sched = s.sched := by rw [logAppend_frame, ← hsched]
  have hfirst := loggedFirst_done hn hring hwf hw hc (sweepAfterMove_recordsKept dark i (logAppend k x a b c w)) result
  refine ⟨fun h => ?_, fun hdark hlit => ?_, hfirst, fun hdark hlit hroom => ?_⟩
  · have hsame : sweepAfterMove dark i (logAppend k x a b c w) = logAppend k x a b c w := by
      cases hd : dark with
      | false => rfl
      | true => exact sweepIfLit_dark (by rw [hltree]; exact h.resolve_left (by simp [hd]))
    rw [hsame]
    exact ⟨logged_done hn hring hwf hw hc result, (endDone_sched n result _).trans hlsched⟩
  · subst hdark
    rw [endDone_sched]
    exact sweepIfLit_opens (by rw [hltree]; exact hlit)
  · subst hdark
    have hroom' : (logAppend k x a b c w).sched.sweeps.length < 4 := by rwa [hlsched]
    refine ⟨logged_done_of_mem hn hring hwf hw hc ?_ ?_ result, ?_⟩
    · exact sweepIfLit_room_mem hroom'
    · exact sweepIfLit_room_writer hroom'
    · rw [endDone_sched]
      exact sweepIfLit_opens_restore (by rw [hltree]; exact hlit) hroom'

theorem swept_kept (k : LogKind) (x a b c i : Nat) (dark : Bool) (hring : RingLaw s) (hw : t.writer = s.writer) :
    KeptOutside ringPlace t (sweepAfterMove dark i (logAppend k x a b c t)) := by
  have hringt := ringLaw_of_writer hring hw
  exact (logAppend_kept hringt k x a b c).trans
    (sweepAfterMove_kept dark i ((logAppend_moves (can := fun _ => True) _ _ _ _ _ t).ring hringt))

theorem setFeed_moves_element {i parent : Nat} {e : Element} (hm : MemWf s.mem) (hring : RingLaw s)
    (h : AtHead .setFeed n rest s) (hp : s.part.state ≠ .unplanned) (hA : argA s n = i) (hB : argB s n = parent)
    (h255 : i ≤ 255) (he : tableGet s.plant.tree i = some e) (hfault : feedFault s i parent = none)
    (hnew : e.parent ≠ parent) : ∃ u, exec .setFeed s = .next (concluded s u) ∧
       tableGet u.plant.tree i = some { e with parent := parent } ∧
       (∀ j, j ≠ i → tableGet u.plant.tree j = tableGet s.plant.tree j) ∧
       rd u (elementWord i 1) = wordOf parent ∧
       SlotShows n 3 0 s u ∧ rd u (requestWord n 3) = wordOf (depthOf u.plant.tree i) ∧
       (isDark s.plant.tree i = false → Logged .topology i 2 e.parent parent s u ∧ u.sched = s.sched) ∧
       (isDark s.plant.tree i = true → isDark u.plant.tree i = false →
         ∃ w ∈ u.sched.sweeps, w.kind = .restore i ∨ w.kind = .resync) ∧
       LoggedFirst .topology i 2 e.parent parent s u ∧
       (isDark s.plant.tree i = true → isDark u.plant.tree i = true →
         Logged .topology i 2 e.parent parent s u ∧ u.sched = s.sched) ∧
       (isDark s.plant.tree i = true → isDark u.plant.tree i = false → s.sched.sweeps.length < 4 →
         Logged .topology i 2 e.parent parent s u ∧
         ∃ w ∈ u.sched.sweeps, w.kind = .restore i ∧ w.cursor = 0) ∧
       KeptOutside (withRings (slotWords n ++ [elementWord i 1])) s u ∧
       u.part = afterRequest n rest s.part ∧
       u = { s with
         mem := u.mem, port := u.port, part := u.part, plant := { s.plant with tree := u.plant.tree }
         sched := u.sched, writer := u.writer, flags := u.flags } := by
  have ⟨hs, hq, hn, _⟩ := h
  have hdone : setFeed n (handedOver n s) = endDone n (depthOf (treeSetParent s.plant.tree i parent) i)
      (moveElement i e.parent parent (handedOver n s)) := by
    have hdone := setFeed_of_none (n := n) (s := handedOver n s) (e := e)
    rw [argA_handedOver, argB_handedOver, hA, hB, if_neg hnew, moveElement_tree] at hdone
    exact hdone hfault he
  have hexec : exec .setFeed s = .next (concluded s (setFeed n (handedOver n s))) :=
    exec_request (r := .setFeed) h (allowed_of_planned (by decide) hs hp)
  rw [hdone] at hexec
  refine ⟨_, hexec, ?_⟩
  have hmh := handedOver_wf n hm
  have hmframe := moveElement_frame i e.parent parent (handedOver n s)
  have hmtree := moveElement_tree i e.parent parent (handedOver n s)
  have hframe := elementMoved_frame i parent (handedOver n s)
  have hrd : rd (elementMoved i parent (handedOver n s)) (elementWord i 1) = wordOf parent := rd_wr_same _ _ _ hmh
  have hwf : MemWf (elementMoved i parent (handedOver n s)).mem := wr_wf _ _ _ hmh
  have hmoved : KeptOutside (withRings [elementWord i 1]) (handedOver n s) (elementMoved i parent (handedOver n s)) :=
    (show WordsKept [elementWord i 1] _ _ from fun a ha => rd_wr_other _ _ _ _ (by simpa using ha)).withRings
      (List.Subset.refl _)
  have hmove := moveElement_eq i e.parent parent (handedOver n s)
  generalize elementMoved i parent (handedOver n s) = w at *
  have hw : w.writer = s.writer := by rw [hframe]; rfl
  have hc : w.clock = s.clock := by rw [hframe]; rfl
  have hsched : w.sched = s.sched := by rw [hframe]; rfl
  have htree : w.plant.tree = treeSetParent s.plant.tree i parent := by rw [hframe]; rfl
  obtain ⟨hquiet, hopened, hfirst, hroom⟩ := done_swept (k := .topology) (x := i) (a := 2) (b := e.parent) (c := parent) (i := i)
    (dark := isDark s.plant.tree i) hn hring hwf hw hc hsched (depthOf (treeSetParent s.plant.tree i parent) i)
  have hkept := swept_kept .topology i 2 e.parent parent i (isDark s.plant.tree i) hring hw
  have hvwf := sweepAfterMove_wf (isDark s.plant.tree i) (i := i)
    (logAppend_wf .topology i 2 e.parent parent w hwf)
  have hmove' : moveElement i e.parent parent (handedOver n s) =
    sweepAfterMove (isDark s.plant.tree i) i (logAppend .topology i 2 e.parent parent w) := hmove
  rw [← hmove'] at hkept hvwf hquiet hopened hfirst hroom
  have hword : rd (moveElement i e.parent parent (handedOver n s)) (elementWord i 1) = wordOf parent :=
    (hkept _ (ringPlace_elementWord (by omega) (by decide))).trans hrd
  generalize moveElement i e.parent parent (handedOver n s) = v at *
  obtain ⟨hshows, hresult, hkept', hpart⟩ := request_done hm hn hq hvwf (by rw [hmframe])
    (requestWord_not_elementWords hn i [1]) (hmoved.trans hkept.withRings) (depthOf (treeSetParent s.plant.tree i parent) i)
  have hutree : (endDone n (depthOf (treeSetParent s.plant.tree i parent) i) v).plant.tree =
      treeSetParent s.plant.tree i parent := by rw [endDone_plant, hmtree]; rfl
  rw [htree] at hquiet hopened hroom
  rw [hutree]
  have hset := treeSetParent_eq he parent
  refine ⟨by rw [hset]; exact tableGet_tableSet_same _ _ _, fun j hj => by rw [hset]; exact tableGet_tableSet_other _ _ hj,
    (rd_done (elementWord_not_slotWords hn) _).trans hword, hshows, hresult, fun h => hquiet (.inl h), hopened, hfirst,
    fun _ h => hquiet (.inr h), hroom, hkept', hpart, ?_⟩
  rw [endDone_frame, hmframe]
  rfl

theorem feedFault_code {i parent e : Nat}
    (he : if i = 0 ∨ 255 < i ∨ 255 < parent then e = 3
      else if elementInUse s.plant.tree i = false ∨ elementInUse s.plant.tree parent = false then e = 4
      else if inSubtree s.plant.tree i parent = true then e = 7
      else 8 < depthOf s.plant.tree parent + levelsOf s.plant.tree i ∧ e = 8) :
    ∃ f, feedFault s i parent = some f ∧ f.code = e := by
  unfold feedFault
  dsimp only
  simp only [isElementIndex_eq_false_iff, or_assoc] at he ⊢
  by_cases hindex : i = 0 ∨ 255 < i ∨ 255 < parent
  · rw [if_pos hindex] at he ⊢
    exact ⟨_, rfl, he.symm⟩
  rw [if_neg hindex] at he ⊢
  by_cases hin : elementInUse s.plant.tree i = false ∨ elementInUse s.plant.tree parent = false
  · rw [if_pos hin] at he ⊢
    exact ⟨_, rfl, he.symm⟩
  rw [if_neg hin] at he ⊢
  by_cases hcycle : inSubtree s.plant.tree i parent = true
  · rw [if_pos hcycle] at he ⊢
    exact ⟨_, rfl, he.symm⟩
  rw [if_neg hcycle] at he ⊢
  rw [if_pos he.1]
  exact ⟨_, rfl, he.2.symm⟩

theorem setFeed_refused {i parent e : Nat} (hA : argA s n = i) (hB : argB s n = parent) {f : RequestError}
    (hf : feedFault s i parent = some f) (he : f.code = e) (hm : MemWf s.mem) (h : AtHead .setFeed n rest s)
    (hp : s.part.state ≠ .unplanned) :
    ∃ u, exec .setFeed s = .next (concluded s u) ∧ SlotShows n 4 e s u ∧ WordsKept [requestWord n 0] s u ∧
      u.part = afterRequest n rest s.part ∧ u = { s with mem := u.mem, port := u.port, part := u.part } := by
  rw [← he]
  refine request_fails (r := .setFeed) hm h (allowed_of_planned (by decide) h.1 hp) (readAfter_self n s) (setFeed_of_some ?_)
  rw [argA_handedOver, argB_handedOver, hA, hB]
  exact hf

/-- A request that ends DONE at once changes its slot alone. -/
theorem done_at_once (hm : MemWf s.mem) (hq : s.part.queue = n :: rest) (result : Nat) : let u := endDone n result (handedOver n s)
    SlotShows n 3 0 s u ∧ rd u (requestWord n 3) = wordOf result ∧ WordsKept (slotWords n) s u ∧
      u.part = afterRequest n rest s.part ∧ u = { s with mem := u.mem, port := u.port, part := u.part } := by
  refine ⟨slotShows_done hm (handedOver_wf n hm) rfl result, rd_endDone_result n result (handedOver_wf n hm), fun a ha => ?_,
    part_done hq rfl result, by rw [endDone_frame, handedOver_frame]⟩
  refine (rd_done ha result).trans (wordsKept_handedOver n s a fun h => ha ?_)
  rw [List.mem_singleton.1 h]
  exact List.mem_cons_self

theorem inUse_of_get {t : Tree} {i : Nat} {e : Element} (h : tableGet t i = some e) : elementInUse t i = true := by
  simp [elementInUse, h]

/-- Settles O25: the move by its writes in turn; a feed that stays ends the request at once. -/
theorem setFeedMovesTheElement : Obligations.SetFeedMovesTheElement := by
  unfold Obligations.SetFeedMovesTheElement
  refine ⟨fun n i parent e rest s hm hring h hp hA hB h1 h255 hparent he huse hcycle hdepth hnew =>
      setFeed_moves_element hm hring h hp hA hB h255 he
        (feedFault_none h1 h255 hparent (inUse_of_get he) huse hcycle hdepth) hnew,
    fun n i parent e rest s hm h hp hA hB he => ?_,
    fun n i parent e rest s hm h hp hA hB h1 h255 hparent he huse hcycle hdepth hsame => ?_⟩
  · obtain ⟨f, hf, hcode⟩ := feedFault_code he
    exact setFeed_refused hA hB hf hcode hm h hp
  · have hdone : setFeed n (handedOver n s) = endDone n (depthOf s.plant.tree i) (handedOver n s) := by
      have hdone := setFeed_of_none (n := n) (s := handedOver n s) (e := e)
      rw [argA_handedOver, argB_handedOver, hA, hB, if_pos hsame] at hdone
      exact hdone (feedFault_none h1 h255 hparent (inUse_of_get he) huse hcycle hdepth) he
    exact ⟨_, (exec_request (r := .setFeed) h (allowed_of_planned (by decide) h.1 hp)).trans
      (congrArg (fun v => Host.Outcome.next (concluded s v)) hdone), done_at_once hm h.2.1 _⟩

end Sys2Proof.Machine


/-! ## CLEAR_LATCH (R125) -/

namespace Sys2Proof.Machine

variable {s t u v : State} {n : Nat} {rest : List Nat}

theorem rdPair_congr {a : Nat} (hlow : rd t a = rd s a) (hhigh : rd t (a + 1) = rd s (a + 1)) : rdPair t a = rdPair s a :=
  congrArg₂ pairValue hlow hhigh

theorem elementWord_succ (i w : Nat) : elementWord i w + 1 = elementWord i (w + 1) := rfl

/-- R120: the duration is told by the start stamp and the clock. -/
theorem outageDuration_congr {i : Nat} (hc : t.clock = s.clock) (hpair : rdPair t (elementWord i 9) = rdPair s (elementWord i 9)) :
    outageDuration t i = outageDuration s i := by
  unfold outageDuration currentStamp
  rw [hc, hpair]

/-- The Plant Monitor when a latched-out element is released. -/
def releasedPlant (i : Nat) (s : State) : Plant :=
  { s.plant with tree := treeSetState s.plant.tree i .unpolled, latchedCount := s.plant.latchedCount - 1 }

/-- The three words written of the record of a released element. -/
def releasedWords (i d : Nat) : List (Nat × Word) :=
  [(elementWord i 4, 1), (elementWord i 5, 0), (elementWord i 11, wordOf d)]

/-- The state in which an element has been released and nothing logged yet. -/
def elementReleased (i d : Nat) (s : State) : State := { wrAll s (releasedWords i d) with plant := releasedPlant i s }

theorem elementReleased_mem (i d : Nat) (s : State) : (elementReleased i d s).mem = (wrAll s (releasedWords i d)).mem := rfl

theorem elementReleased_frame (i d : Nat) (s : State) : elementReleased i d s =
    { s with mem := (elementReleased i d s).mem, port := (elementReleased i d s).port, plant := releasedPlant i s } := by
  rw [elementReleased, wrAll_frame]

theorem releasedWords_places (i d : Nat) : (releasedWords i d).map Prod.fst = [4, 5, 11].map (elementWord i) := rfl

theorem rd_elementReleased {i d : Nat} (hm : MemWf s.mem) {a : Nat} {w : Word} (h : (a, w) ∈ releasedWords i d) :
    rd (elementReleased i d s) a = w := by
  rw [rd_congr (elementReleased_mem i d s)]
  refine rd_wrAll_mem hm ?_ h
  rw [releasedWords_places]
  exact elementWords_nodup i (by decide)

theorem elementReleased_kept (i d : Nat) (s : State) :
    KeptOutside (withRings ([4, 5, 11].map (elementWord i))) s (elementReleased i d s) := by
  intro a ha
  rw [rd_congr (elementReleased_mem i d s) a]
  exact (wrAll_wordsKept (releasedWords i d) s).withRings (by rw [releasedWords_places]; exact List.Subset.refl _) a ha

theorem setElementState_eq (i : Nat) (st : ElementState) (s : State) : setElementState i st s =
    { wr s (elementWord i 4) (wordOf st.code) with plant := { s.plant with tree := treeSetState s.plant.tree i st } } := rfl

theorem rd_unlatched {i w : Nat} (h : w ≠ 4 ∧ w ≠ 5) (s : State) :
    rd (setCounter i 0 (setElementState i .unpolled s)) (elementWord i w) = rd s (elementWord i w) := by
  have hword (x : Nat) (hx : w ≠ x) : elementWord i w ≠ elementWord i x := fun he => hx (Nat.add_left_cancel he)
  exact (rd_wr_other _ _ _ _ (hword 5 h.2)).trans (rd_wr_other _ _ _ _ (hword 4 h.1))

theorem outageDuration_unlatched (i : Nat) (s : State) :
    outageDuration (setCounter i 0 (setElementState i .unpolled s)) i = outageDuration s i :=
  outageDuration_congr rfl (rdPair_congr (rd_unlatched (by decide) s) (rd_unlatched (w := 10) (by decide) s))

theorem releaseLatch_eq (i : Nat) (s : State) : releaseLatch i s =
    sweepAfterMove true i (logAppend .unlatch i (outageDuration s i)
      (affectedCount (treeSetState s.plant.tree i .unpolled) s.order.direct i)
      (addressOf (elementReleased i (outageDuration s i) s) i) (elementReleased i (outageDuration s i) s)) := by
  have hone : wordOf ElementState.unpolled.code = 1 := by decide
  have hzero : wordOf 0 = 0 := by decide
  unfold releaseLatch
  dsimp only
  rw [outageDuration_unlatched]
  unfold elementReleased releasedPlant releasedWords affected setCounter
  rw [setElementState_eq, hone, hzero]
  simp only [wrAll, wr, grantPort]
  rfl

theorem addressOf_released {i d : Nat} {e : Element} (h : tableGet s.plant.tree i = some e) :
    addressOf (elementReleased i d s) i = e.address := by
  have htree : (elementReleased i d s).plant.tree = tableSet s.plant.tree i { e with state := .unpolled } :=
    treeSetState_eq h _
  unfold addressOf
  rw [htree, tableGet_tableSet_same]

theorem clearLatch_of_none (h : latchFault s (argA s n) = none) :
    clearLatch n s = endDone n 0 (releaseLatch (argA s n) s) := by
  unfold clearLatch
  dsimp only
  rw [h]

theorem clearLatch_of_some {f : RequestError} (h : latchFault s (argA s n) = some f) : clearLatch n s = endFailed n f s := by
  unfold clearLatch
  dsimp only
  rw [h]

theorem clearLatch_releases {i duration : Nat} {e : Element} (hm : MemWf s.mem) (hring : RingLaw s)
    (h : AtHead .clearLatch n rest s) (hp : s.part.state ≠ .unplanned) (hA : argA s n = i) (h1 : 1 ≤ i) (h255 : i ≤ 255)
    (he : tableGet s.plant.tree i = some e) (hst : e.state = .latchedOut)
    (hd : duration = (if rdPair s (elementWord i 9) = 4294967295 ∨ s.clock.valid = false ∨
         currentStamp s < rdPair s (elementWord i 9) then 65535
       else min (currentStamp s - rdPair s (elementWord i 9)) 65535)) :
     ∃ u, exec .clearLatch s = .next (concluded s u) ∧
       tableGet u.plant.tree i = some { e with state := .unpolled } ∧
       (∀ j, j ≠ i → tableGet u.plant.tree j = tableGet s.plant.tree j) ∧
       rd u (elementWord i 4) = 1 ∧ rd u (elementWord i 5) = 0 ∧
       rd u (elementWord i 11) = wordOf duration ∧
       LoggedFirst .unlatch i duration (affectedCount u.plant.tree s.order.direct i) e.address s u ∧
       (isDark u.plant.tree i = true ∨ s.sched.sweeps.length < 4 →
         Logged .unlatch i duration (affectedCount u.plant.tree s.order.direct i) e.address s u) ∧
       (isDark u.plant.tree i = false → ∃ w ∈ u.sched.sweeps, w.kind = .restore i ∨ w.kind = .resync) ∧
       (isDark u.plant.tree i = true → u.sched = s.sched) ∧
       (isDark u.plant.tree i = false → s.sched.sweeps.length < 4 →
         ∃ w ∈ u.sched.sweeps, w.kind = .restore i ∧ w.cursor = 0) ∧
       u.plant.latchedCount = s.plant.latchedCount - 1 ∧
       SlotShows n 3 0 s u ∧ rd u (requestWord n 3) = 0 ∧
       KeptOutside (withRings (slotWords n ++ [4, 5, 11].map (elementWord i))) s u ∧
       u.part = afterRequest n rest s.part ∧
       u = { s with
         mem := u.mem, port := u.port, part := u.part
         plant := { s.plant with tree := u.plant.tree, latchedCount := u.plant.latchedCount }
         sched := u.sched, writer := u.writer, flags := u.flags } := by
  have ⟨hs, hq, hn, _⟩ := h
  have hfault : latchFault s i = none := by
    unfold latchFault
    rw [if_neg (by rw [isElementIndex_eq_false_iff]; omega), he]
    exact if_pos hst
  have hslot (w : Nat) : rd (handedOver n s) (elementWord i w) = rd s (elementWord i w) :=
    wordsKept_handedOver n s _ fun hmem => by
      have hnot := elementWord_not_slotWords hn (i := i) (w := w)
      rw [List.mem_singleton.1 hmem] at hnot
      exact hnot List.mem_cons_self
  have hduration : outageDuration (handedOver n s) i = duration := by
    rw [outageDuration_congr (handedOver_clock n s) (rdPair_congr (hslot 9) (hslot 10)), hd]
    unfold outageDuration saturate16 unknownStamp
    rfl
  have hdone : clearLatch n (handedOver n s) = endDone n 0 (releaseLatch i (handedOver n s)) := by
    have hdone := clearLatch_of_none (n := n) (s := handedOver n s)
    rw [argA_handedOver, hA] at hdone
    exact hdone hfault
  have hrelease := releaseLatch_eq i (handedOver n s)
  rw [hduration, addressOf_released (s := handedOver n s) (e := e) he] at hrelease
  have hexec : exec .clearLatch s = .next (concluded s (clearLatch n (handedOver n s))) :=
    exec_request (r := .clearLatch) h (allowed_of_planned (by decide) hs hp)
  rw [hdone] at hexec
  refine ⟨_, hexec, ?_⟩
  have hmh := handedOver_wf n hm
  have hframe := elementReleased_frame i duration (handedOver n s)
  have hwf : MemWf (elementReleased i duration (handedOver n s)).mem := by
    rw [elementReleased_mem]
    exact wrAll_wf _ _ hmh
  have hreleased := elementReleased_kept i duration (handedOver n s)
  have hrd {w : Nat} {x : Word} (hx : (elementWord i w, x) ∈ releasedWords i duration) :=
    rd_elementReleased (s := handedOver n s) (i := i) (d := duration) hmh hx
  generalize elementReleased i duration (handedOver n s) = w at *
  have hw : w.writer = s.writer := by rw [hframe]; rfl
  have hc : w.clock = s.clock := by rw [hframe]; rfl
  have hsched : w.sched = s.sched := by rw [hframe]; rfl
  have htree : w.plant.tree = treeSetState s.plant.tree i .unpolled := by rw [hframe]; rfl
  obtain ⟨hquiet, hopened, hfirst, hroom⟩ := done_swept (k := .unlatch) (x := i) (a := duration)
    (b := affectedCount (treeSetState s.plant.tree i .unpolled) s.order.direct i) (c := e.address) (i := i)
    (dark := true) hn hring hwf hw hc hsched 0
  have hkept := swept_kept .unlatch i duration (affectedCount (treeSetState s.plant.tree i .unpolled) s.order.direct i) e.address
    i true hring hw
  have hvwf := sweepAfterMove_wf true (i := i) (logAppend_wf .unlatch i duration
    (affectedCount (treeSetState s.plant.tree i .unpolled) s.order.direct i) e.address w hwf)
  have hrelease' : releaseLatch i (handedOver n s) = sweepAfterMove true i (logAppend .unlatch i duration
    (affectedCount (treeSetState s.plant.tree i .unpolled) s.order.direct i) e.address w) := hrelease
  have hmframe : releaseLatch i (handedOver n s) = { handedOver n s with
      mem := (releaseLatch i (handedOver n s)).mem, port := (releaseLatch i (handedOver n s)).port
      writer := (releaseLatch i (handedOver n s)).writer, flags := (releaseLatch i (handedOver n s)).flags
      plant := releasedPlant i s
      sched := { s.sched with sweeps := (releaseLatch i (handedOver n s)).sched.sweeps } } := by
    rw [hrelease', sweepAfterMove_frame, logAppend_frame, hframe]
    rfl
  rw [← hrelease'] at hkept hvwf hquiet hopened hfirst hroom
  generalize releaseLatch i (handedOver n s) = v at *
  obtain ⟨hshows, hresult, hkept', hpart⟩ := request_done hm hn hq hvwf (by rw [hmframe])
    (requestWord_not_elementWords hn i [4, 5, 11]) (hreleased.trans hkept.withRings) 0
  have huplant : (endDone n 0 v).plant = releasedPlant i s := by rw [endDone_plant, hmframe]
  have hutree : (endDone n 0 v).plant.tree = treeSetState s.plant.tree i .unpolled := congrArg Plant.tree huplant
  have hword {k : Nat} {x : Word} (hx : (elementWord i k, x) ∈ releasedWords i duration) (hk : k < 16) :
      rd (endDone n 0 v) (elementWord i k) = x :=
    (rd_done (elementWord_not_slotWords hn) _).trans ((hkept _ (ringPlace_elementWord (by omega) hk)).trans (hrd hx))
  rw [htree] at hquiet hopened hroom
  rw [hutree]
  have hset := treeSetState_eq he .unpolled
  refine ⟨by rw [hset]; exact tableGet_tableSet_same _ _ _, fun j hj => by rw [hset]; exact tableGet_tableSet_other _ _ hj,
    hword (by simp [releasedWords]) (by decide), hword (by simp [releasedWords]) (by decide),
    hword (by simp [releasedWords]) (by decide), hfirst, fun h => ?_, fun h => hopened rfl h,
    fun h => (hquiet (.inr h)).2, fun h hlen => (hroom rfl h hlen).2, congrArg Plant.latchedCount huplant, hshows, hresult, hkept',
    hpart, ?_⟩
  · cases hdark : isDark (treeSetState s.plant.tree i .unpolled) i with
    | true => exact (hquiet (.inr hdark)).1
    | false => exact (hroom rfl hdark (h.resolve_left (by simp [hdark]))).1
  · have hlatched : (endDone n 0 v).plant.latchedCount = s.plant.latchedCount - 1 := congrArg Plant.latchedCount huplant
    rw [hlatched, endDone_frame, hmframe]
    rfl

theorem latchFault_code {i e : Nat}
    (he : if i = 0 ∨ 255 < i then e = 3
      else (tableGet s.plant.tree i = none ∧ e = 4) ∨
        ∃ x, tableGet s.plant.tree i = some x ∧ x.state ≠ .latchedOut ∧ e = 10) :
    ∃ f, latchFault s i = some f ∧ f.code = e := by
  unfold latchFault
  simp only [isElementIndex_eq_false_iff]
  by_cases hindex : i = 0 ∨ 255 < i
  · rw [if_pos hindex] at he ⊢
    exact ⟨_, rfl, he.symm⟩
  rw [if_neg hindex] at he ⊢
  rcases he with ⟨hnone, he⟩ | ⟨x, hx, hst, he⟩
  · rw [hnone]
    exact ⟨_, rfl, he.symm⟩
  · rw [hx]
    exact ⟨_, if_neg hst, he.symm⟩

/-- Settles O26: the release by its writes in turn, and the tests that fail. -/
theorem clearLatchReleasesTheElement : Obligations.ClearLatchReleasesTheElement := by
  unfold Obligations.ClearLatchReleasesTheElement
  refine ⟨fun n i duration e rest s hm hring h hp hA h1 h255 he hst hd =>
    clearLatch_releases hm hring h hp hA h1 h255 he hst hd, fun n i e rest s hm h hp hA he => ?_⟩
  obtain ⟨f, hf, rfl⟩ := latchFault_code he
  refine request_fails (r := .clearLatch) hm h (allowed_of_planned (by decide) h.1 hp) (readAfter_self n s)
    (clearLatch_of_some ?_)
  rw [argA_handedOver, hA]
  exact hf

end Sys2Proof.Machine


/-! ## ARM_EVENT (R145, R146) -/

namespace Sys2Proof.Machine

variable {s t u v : State} {n : Nat} {rest : List Nat}

/-! Operations on one record after another. -/

/-- What changes memory and the port only, record by record. -/
theorem foldl_mem_frame {α : Type} {f : State → α → State}
    (hf : ∀ v x, f v x = { v with mem := (f v x).mem, port := (f v x).port }) (l : List α) :
    ∀ s, l.foldl f s = { s with mem := (l.foldl f s).mem, port := (l.foldl f s).port } := by
  induction l with
  | nil => exact fun _ => rfl
  | cons x l ih =>
    intro s
    rw [List.foldl_cons, ih (f s x)]
    rw [hf s x]

theorem foldl_wf {α : Type} {f : State → α → State} (hf : ∀ v x, MemWf v.mem → MemWf (f v x).mem) (l : List α) :
    ∀ s, MemWf s.mem → MemWf (l.foldl f s).mem := by
  induction l with
  | nil => exact fun _ hm => hm
  | cons x l ih => exact fun s hm => ih _ (hf s x hm)

theorem foldl_kept_of_not_mem {f : State → Nat → State} {place : Nat → Nat → Bool}
    (htouch : ∀ v i, KeptOutside (place i) v (f v i)) {a : Nat} {l : List Nat} (hl : ∀ i ∈ l, place i a = false) :
    ∀ s, rd (l.foldl f s) a = rd s a := by
  induction l with
  | nil => exact fun _ => rfl
  | cons i l ih =>
    obtain ⟨hi, hl⟩ := List.forall_mem_cons.1 hl
    exact fun s => (ih hl _).trans (htouch s i a hi)

/-- A word of the record `i` is as the visit of `i` leaves it, when each visit touches its own record alone: the visit finds
the record as it stood at first. -/
theorem rd_foldl_at {f : State → Nat → State} {place : Nat → Nat → Bool} (hwf : ∀ v i, MemWf v.mem → MemWf (f v i).mem)
    (htouch : ∀ v i, KeptOutside (place i) v (f v i)) (hdisjoint : ∀ i j a, place i a = true → place j a = true → i = j)
    {i a : Nat} {x : Word} (ha : place i a = true) {l : List Nat} :
    ∀ {s : State}, MemWf s.mem → l.Nodup → i ∈ l →
      (∀ v, MemWf v.mem → (∀ b, place i b = true → rd v b = rd s b) → rd (f v i) a = x) → rd (l.foldl f s) a = x := by
  induction l with
  | nil => exact fun _ _ hi => absurd hi List.not_mem_nil
  | cons j l ih =>
    intro s hm hnodup hi hspec
    obtain ⟨hj, hl⟩ := List.nodup_cons.1 hnodup
    have hother {k b : Nat} (hb : place i b = true) (hk : k ≠ i) : place k b = false := by
      rw [← Bool.not_eq_true]
      exact fun h => hk (hdisjoint k i b h hb)
    by_cases hij : j = i
    · subst hij
      refine (foldl_kept_of_not_mem htouch (fun k hk => hother ha fun h => hj (h ▸ hk)) _).trans
        (hspec s hm fun _ _ => rfl)
    · refine ih (hwf s j hm) hl ((List.mem_cons.1 hi).resolve_left (Ne.symm hij)) fun v hv hsame => hspec v hv fun b hb => ?_
      exact (hsame b hb).trans (htouch s j b (hother hb hij))

/-! The entries of a purchase list that are cleared. -/

/-- A word of subscriber record `i`. -/
def inSubscriber (i a : Nat) : Bool := decide (0x10000 + 32 * i ≤ a) && decide (a < 0x10000 + 32 * i + 32)

theorem inSubscriber_iff (i a : Nat) : inSubscriber i a = true ↔ 0x10000 + 32 * i ≤ a ∧ a < 0x10000 + 32 * i + 32 := by
  simp [inSubscriber]

theorem inSubscriber_subscriberWord {i w : Nat} (hw : w < 32) : inSubscriber i (subscriberWord i w) = true := by
  rw [inSubscriber_iff, subscriberWord]
  omega

theorem inSubscriber_disjoint (i j a : Nat) (hi : inSubscriber i a = true) (hj : inSubscriber j a = true) : i = j := by
  rw [inSubscriber_iff] at hi hj
  omega

theorem purchaseAt_slot_lt (s : State) (i j : Nat) : (purchaseAt s i j).slot < 8 := Nat.mod_lt _ (by decide)

theorem purchaseWord_field {k : Nat} (hk : k < 8) (b : Bool) :
    (purchaseWord b k).getLsbD 15 = b ∧ field (purchaseWord b k) 0 3 = k := by
  have h : ∀ (b : Bool) (k : Fin 8), (purchaseWord b k).getLsbD 15 = b ∧ field (purchaseWord b k) 0 3 = k := by decide
  exact h b ⟨k, hk⟩

theorem unmarkedEntries_places (s : State) (i : Nat) (p : Purchase → Bool) : (unmarkedEntries s i p).map Prod.fst =
    (purchasePlaces.filter fun j => p (purchaseAt s i j)).map fun j => subscriberWord i (14 + 2 * j) := by
  rw [unmarkedEntries, List.map_map]
  rfl

theorem mem_purchasePlaces {j : Nat} : j ∈ purchasePlaces ↔ j < 4 := by
  simp only [purchasePlaces, List.mem_cons, List.not_mem_nil, or_false]
  omega

theorem mem_unmarkedEntries {s : State} {i : Nat} {p : Purchase → Bool} {x : Nat × Word} : x ∈ unmarkedEntries s i p ↔
    ∃ j, j < 4 ∧ p (purchaseAt s i j) = true ∧ unmarkedEntry s i j = x := by
  simp only [unmarkedEntries, List.mem_map, List.mem_filter, mem_purchasePlaces, and_assoc]

theorem unmarkedEntries_nodup (s : State) (i : Nat) (p : Purchase → Bool) : ((unmarkedEntries s i p).map Prod.fst).Nodup := by
  rw [unmarkedEntries_places]
  refine (List.Nodup.filter _ (by decide)).map fun j k h => ?_
  simp only [subscriberWord] at h
  omega

theorem rd_unmarked {i j : Nat} {p : Purchase → Bool} (hm : MemWf s.mem) (hj : j < 4) (hp : p (purchaseAt s i j) = true) :
    rd (wrHeld s (unmarkedEntries s i p)) (subscriberWord i (14 + 2 * j)) = purchaseWord false (purchaseAt s i j).slot := by
  rw [rd_wrHeld]
  exact rd_wrAll_mem hm (unmarkedEntries_nodup s i p) (mem_unmarkedEntries.2 ⟨j, hj, hp, rfl⟩)

theorem rd_not_unmarked {i a : Nat} {p : Purchase → Bool}
    (ha : ∀ j, j < 4 → p (purchaseAt s i j) = true → a ≠ subscriberWord i (14 + 2 * j)) :
    rd (wrHeld s (unmarkedEntries s i p)) a = rd s a :=
  wrHeld_wordsKept _ s a fun h => by
    obtain ⟨x, hx, rfl⟩ := List.mem_map.1 h
    obtain ⟨j, hj, hp, rfl⟩ := mem_unmarkedEntries.1 hx
    exact ha j hj hp rfl

theorem clearSlotEntries_touch (k : Nat) (s : State) (i : Nat) : KeptOutside (inSubscriber i) s (clearSlotEntries k s i) := by
  intro a ha
  refine rd_not_unmarked fun j hj _ h => ?_
  rw [h, inSubscriber_subscriberWord (by omega)] at ha
  cases ha

theorem purchaseAt_congr {i j : Nat} (h : ∀ w, w < 32 → subRd t i w = subRd s i w) (hj : j < 4) :
    purchaseAt t i j = purchaseAt s i j := by
  unfold purchaseAt
  rw [h _ (by omega), h _ (by omega)]

/-! The wrap clearing (R146). -/

theorem rd_wrapClear_at {k i a : Nat} {x : Word} (hm : MemWf s.mem) (hi : i < 4096) (ha : inSubscriber i a = true)
    (hspec : ∀ v, MemWf v.mem → (∀ b, inSubscriber i b = true → rd v b = rd s b) → rd (clearSlotEntries k v i) a = x) :
    rd (wrapClear k s) a = x :=
  rd_foldl_at (fun v _ hv => wrHeld_wf v _ hv) (clearSlotEntries_touch k) inSubscriber_disjoint ha hm List.nodup_range
    (List.mem_range.2 hi) hspec

theorem subRd_congr {i : Nat} (h : ∀ b, inSubscriber i b = true → rd t b = rd s b) (w : Nat) (hw : w < 32) :
    subRd t i w = subRd s i w := h _ (inSubscriber_subscriberWord hw)

theorem wrapClear_entry {k i j : Nat} (hm : MemWf s.mem) (hi : i < 4096) (hj : j < 4) (hk : (purchaseAt s i j).slot = k) :
    subRd (wrapClear k s) i (14 + 2 * j) = purchaseWord false k := by
  refine rd_wrapClear_at hm hi (inSubscriber_subscriberWord (by omega)) fun v hv hsame => ?_
  have hentry := purchaseAt_congr (subRd_congr hsame) hj
  refine (rd_unmarked (p := fun p => decide (p.slot = k)) hv hj (by rw [hentry]; exact decide_eq_true hk)).trans ?_
  rw [hentry, hk]

theorem wrapClear_other {k i w : Nat} (hm : MemWf s.mem) (hi : i < 4096) (hw : w < 32)
    (h : ∀ j, j < 4 → (purchaseAt s i j).slot = k → w ≠ 14 + 2 * j) : subRd (wrapClear k s) i w = subRd s i w := by
  refine rd_wrapClear_at hm hi (inSubscriber_subscriberWord hw) fun v hv hsame => ?_
  refine (rd_not_unmarked fun j hj hp he => h j hj ?_ (Nat.add_left_cancel he)).trans (hsame _ (inSubscriber_subscriberWord hw))
  rw [← purchaseAt_congr (subRd_congr hsame) hj]
  exact of_decide_eq_true hp

/-- The subscriber table. -/
def inSubscribers (a : Nat) : Bool := decide (0x10000 ≤ a) && decide (a < 0x30000)

theorem wrapClear_kept (k : Nat) (s : State) : KeptOutside inSubscribers s (wrapClear k s) := by
  intro a ha
  refine foldl_kept_of_not_mem (clearSlotEntries_touch k) (fun i hi => ?_) s
  have hlt : i < 4096 := List.mem_range.1 hi
  rw [← Bool.not_eq_true, inSubscriber_iff]
  simp only [inSubscribers, Bool.and_eq_false_iff, decide_eq_false_iff_not] at ha
  omega

theorem wrapClear_frame (k : Nat) (s : State) :
    wrapClear k s = { s with mem := (wrapClear k s).mem, port := (wrapClear k s).port } :=
  foldl_mem_frame (fun v _ => wrHeld_frame v _) _ s

theorem wrapClear_wf (k : Nat) (hm : MemWf s.mem) : MemWf (wrapClear k s).mem := foldl_wf (fun v _ hv => wrHeld_wf v _ hv) _ s hm

/-! The totals of a slot (R145, R154, R156). -/

/-- The words of a slot's purchase count and revenue. -/
def totalsWords (k count revenue : Nat) : List (Nat × Word) :=
  [(slotWord k 8, wordOf count), (slotWord k 9, pairLowWord revenue), (slotWord k 10, pairHighWord revenue)]

theorem setSlotTotals_mem (k count revenue : Nat) (s : State) :
    (setSlotTotals k count revenue s).mem = (wrAll s (totalsWords k count revenue)).mem :=
  wrHeld_mem [(slotWord k 9, pairLowWord revenue), (slotWord k 10, pairHighWord revenue)] (wr s (slotWord k 8) (wordOf count))

theorem setSlotTotals_frame (k count revenue : Nat) (s : State) : setSlotTotals k count revenue s =
    { s with mem := (setSlotTotals k count revenue s).mem, port := (setSlotTotals k count revenue s).port } := rfl

theorem totalsWords_places (k count revenue : Nat) : (totalsWords k count revenue).map Prod.fst = [8, 9, 10].map (slotWord k) := rfl

theorem slotWords_nodup (k : Nat) {ws : List Nat} (h : ws.Nodup) : (ws.map (slotWord k)).Nodup :=
  h.map fun _ _ he => Nat.add_left_cancel he

theorem setSlotTotals_wf (k count revenue : Nat) (hm : MemWf s.mem) : MemWf (setSlotTotals k count revenue s).mem := by
  rw [setSlotTotals_mem]
  exact wrAll_wf _ _ hm

theorem setSlotTotals_kept (k count revenue : Nat) (s : State) :
    WordsKept ([8, 9, 10].map (slotWord k)) s (setSlotTotals k count revenue s) := fun a ha =>
  (rd_congr (setSlotTotals_mem k count revenue s) a).trans
    (wrAll_wordsKept (totalsWords k count revenue) s a (by rw [totalsWords_places]; exact ha))

theorem rd_setSlotTotals {k count revenue : Nat} (hm : MemWf s.mem) {a : Nat} {w : Word} (h : (a, w) ∈ totalsWords k count revenue) :
    rd (setSlotTotals k count revenue s) a = w := by
  rw [rd_congr (setSlotTotals_mem k count revenue s)]
  refine rd_wrAll_mem hm ?_ h
  rw [totalsWords_places]
  exact slotWords_nodup k (by decide)

/-! A slot is armed. -/

/-- The state in which the entries of an event number that is used again have been cleared. -/
def armBase (k : Nat) (s : State) : State := if 65535 ≤ (rd s (slotWord k 7)).toNat then wrapClear k s else s

/-- The copy of a slot that is armed. -/
def armCopy (k : Nat) (s : State) : ArmedSlot :=
  { state := if currentStamp s < rdPair s (slotWord k 0) then .open else .showing
    event := nextEvent (rd s (slotWord k 7)).toNat, startStamp := rdPair s (slotWord k 0), endStamp := rdPair s (slotWord k 2)
    cutoff := (rd s (slotWord k 4)).toNat, price := (rd s (slotWord k 5)).toNat }

/-- The state and the event number in the record of a slot that is armed. -/
def armHead (k : Nat) (s : State) : List (Nat × Word) :=
  [(slotWord k 6, wordOf (armCopy k s).state.code), (slotWord k 7, wordOf (armCopy k s).event)]

theorem armSlot_eq (k : Nat) (s : State) : armSlot k s =
    setSlotTotals k 0 0 (wrAll (setArmed k (armCopy k s) (armBase k s)) (armHead k s)) := by
  unfold armSlot armBase armHead armCopy
  rfl

theorem armBase_frame (k : Nat) (s : State) :
    armBase k s = { s with mem := (armBase k s).mem, port := (armBase k s).port } := by
  unfold armBase
  split
  · exact wrapClear_frame k s
  · rfl

theorem armBase_wf (k : Nat) (hm : MemWf s.mem) : MemWf (armBase k s).mem := by
  unfold armBase
  split
  · exact wrapClear_wf k hm
  · exact hm

theorem armSlot_frame (k : Nat) (s : State) : armSlot k s = { s with
    mem := (armSlot k s).mem, port := (armSlot k s).port
    slots := { s.slots with armed := tableSet s.slots.armed k (armCopy k s) } } := by
  rw [armSlot_eq, setSlotTotals_frame, wrAll_frame, setArmed, armBase_frame]

theorem armSlot_mem (k : Nat) (s : State) :
    (armSlot k s).mem = (wrAll (armBase k s) (armHead k s ++ totalsWords k 0 0)).mem := by
  rw [armSlot_eq, setSlotTotals_mem, ← wrAll_append]
  exact wrAll_mem_congr _ rfl

theorem armWords_places (k : Nat) (s : State) :
    (armHead k s ++ totalsWords k 0 0).map Prod.fst = [6, 7, 8, 9, 10].map (slotWord k) := rfl

theorem armSlot_wf (k : Nat) (hm : MemWf s.mem) : MemWf (armSlot k s).mem := by
  rw [armSlot_mem]
  exact wrAll_wf _ _ (armBase_wf k hm)

theorem rd_armSlot {k : Nat} (hm : MemWf s.mem) {a : Nat} {w : Word} (h : (a, w) ∈ armHead k s ++ totalsWords k 0 0) :
    rd (armSlot k s) a = w := by
  rw [rd_congr (armSlot_mem k s)]
  refine rd_wrAll_mem (armBase_wf k hm) ?_ h
  rw [armWords_places]
  exact slotWords_nodup k (by decide)

theorem armSlot_kept (k : Nat) (s : State) : WordsKept ([6, 7, 8, 9, 10].map (slotWord k)) (armBase k s) (armSlot k s) :=
  fun a ha => (rd_congr (armSlot_mem k s) a).trans (wrAll_wordsKept _ _ a (by rw [armWords_places]; exact ha))

/-! The tests of ARM_EVENT. -/

theorem imageNamesSlot_iff (s : State) (k : Nat) : imageNamesSlot s k = true ↔
    ∃ im x, s.lineup.image = some im ∧ x ∈ im ∧ x.kind = .event ∧ x.argument = k := by
  unfold imageNamesSlot
  cases s.lineup.image <;> simp

/-- The state that ARM_EVENT and CANCEL_PURCHASE test: the slot handed over, and a record read. -/
def readOver (n : Nat) (s : State) : State := partRead (handedOver n s)

theorem readOver_frame (n : Nat) (s : State) : readOver n s = { handedOver n s with port := (readOver n s).port } := rfl

theorem rd_readOver (n : Nat) (s : State) (a : Nat) : rd (readOver n s) a = rd (handedOver n s) a := rfl

theorem rd_slotWord_readOver (hn : n < 8) (s : State) (k w : Nat) : rd (readOver n s) (slotWord k w) = rd s (slotWord k w) :=
  rd_slotWord_handedOver s k w hn

theorem rdPair_slotWord_readOver (hn : n < 8) (s : State) (k w : Nat) :
    rdPair (readOver n s) (slotWord k w) = rdPair s (slotWord k w) :=
  rdPair_congr (rd_slotWord_readOver hn s k w) (rd_slotWord_readOver hn s k (w + 1))

theorem armFault_readOver (hn : n < 8) (s : State) (k : Nat) : armFault (readOver n s) k = armFault s k := by
  have hcut := rd_slotWord_readOver hn s k 4
  have hstart := rdPair_slotWord_readOver hn s k 0
  have hend := rdPair_slotWord_readOver hn s k 2
  unfold armFault
  dsimp only
  rw [hcut, hstart, hend]
  rfl

theorem armCopy_readOver (hn : n < 8) (s : State) (k : Nat) : armCopy k (readOver n s) = armCopy k s := by
  unfold armCopy
  rw [rdPair_slotWord_readOver hn, rdPair_slotWord_readOver hn, rd_slotWord_readOver hn, rd_slotWord_readOver hn,
    rd_slotWord_readOver hn]
  rfl

theorem armEvent_of_none (h : armFault (partRead s) (argA (partRead s) n) = none) : armEvent n s =
    endDone n (armCopy (argA (partRead s) n) (partRead s)).event (armSlot (argA (partRead s) n) (partRead s)) := by
  unfold armEvent
  dsimp only
  rw [h]
  rfl

theorem armEvent_of_some {f : RequestError} (h : armFault (partRead s) (argA (partRead s) n) = some f) :
    armEvent n s = endFailed n f (partRead s) := by
  unfold armEvent
  dsimp only
  rw [h]

end Sys2Proof.Machine


/-! ## ARM_EVENT: the slot armed, and the tests that fail (R145, R146) -/

namespace Sys2Proof.Machine

variable {s t u v : State} {n : Nat} {rest : List Nat}

theorem requestWord_not_slotPlaces (hn : n < 8) (k : Nat) (ws : List Nat) : requestWord n 0 ∉ ws.map (slotWord k) := fun h => by
  obtain ⟨w, -, hw⟩ := List.mem_map.1 h
  unfold slotWord requestWord at hw
  omega

theorem slotWord_not_slotWords (hn : n < 8) {k w : Nat} : slotWord k w ∉ slotWords n := fun h => by
  have := slotWords_place hn h
  unfold slotWord at this
  omega

theorem subscriberWord_not_slotWords (hn : n < 8) {i w : Nat} : subscriberWord i w ∉ slotWords n := fun h => by
  have := slotWords_place hn h
  unfold subscriberWord at this
  omega

theorem subscriberWord_not_slotPlaces {i w k : Nat} (hk : k ≤ 7) {ws : List Nat} (hws : ∀ x ∈ ws, x < 16) :
    subscriberWord i w ∉ ws.map (slotWord k) := fun h => by
  obtain ⟨x, hx, hw⟩ := List.mem_map.1 h
  have := hws x hx
  unfold slotWord subscriberWord at hw
  omega

theorem armFault_none {k start finish cutoff : Nat} (hk : k ≤ 7) (hvalid : s.clock.valid = true)
    (hstart : start = rdPair s (slotWord k 0)) (hfinish : finish = rdPair s (slotWord k 2))
    (hcutoff : cutoff = (rd s (slotWord k 4)).toNat) (horder : start < finish) (hnow : currentStamp s < finish)
    (hcut : cutoff ≤ finish - start) (hnamed : imageNamesSlot s k = true) (hidle : slotState s k = .idle) :
    armFault s k = none := by
  subst hstart hfinish hcutoff
  unfold armFault
  dsimp only
  rw [if_neg (by omega), if_neg (by simp [hvalid]), if_neg (by omega), if_neg (by simp [hnamed]), if_neg (by simp [hidle])]

theorem armFault_code {k start finish cutoff e : Nat} {named : Bool} (hstart : start = rdPair s (slotWord k 0))
    (hfinish : finish = rdPair s (slotWord k 2)) (hcutoff : cutoff = (rd s (slotWord k 4)).toNat)
    (hnamed : imageNamesSlot s k = named)
    (he : if 7 < k then e = 3
      else if s.clock.valid = false then e = 19
      else if finish ≤ start ∨ finish ≤ currentStamp s ∨ finish < start + cutoff then e = 11
      else if named = false then e = 12
      else slotState s k ≠ .idle ∧ e = 2) : ∃ f, armFault s k = some f ∧ f.code = e := by
  subst hstart hfinish hcutoff hnamed
  unfold armFault
  dsimp only
  by_cases hindex : 7 < k
  · rw [if_pos hindex] at he ⊢
    exact ⟨_, rfl, he.symm⟩
  rw [if_neg hindex] at he ⊢
  by_cases hvalid : s.clock.valid = false
  · rw [if_pos hvalid] at he ⊢
    exact ⟨_, rfl, he.symm⟩
  rw [if_neg hvalid] at he ⊢
  by_cases htimes : rdPair s (slotWord k 2) ≤ rdPair s (slotWord k 0) ∨ rdPair s (slotWord k 2) ≤ currentStamp s ∨
      rdPair s (slotWord k 2) < rdPair s (slotWord k 0) + (rd s (slotWord k 4)).toNat
  · rw [if_pos htimes] at he
    rw [if_pos (by omega)]
    exact ⟨_, rfl, he.symm⟩
  rw [if_neg htimes] at he
  rw [if_neg (by omega)]
  by_cases himage : imageNamesSlot s k = false
  · rw [if_pos himage] at he ⊢
    exact ⟨_, rfl, he.symm⟩
  rw [if_neg himage] at he ⊢
  rw [if_pos he.1]
  exact ⟨_, rfl, he.2.symm⟩

/-- The words that ARM_EVENT writes in the entries of an event number used again. -/
theorem armBase_kept (k : Nat) (s : State) : KeptOutside inSubscribers s (armBase k s) := by
  unfold armBase
  split
  · exact wrapClear_kept k s
  · exact KeptOutside.refl s

theorem armBase_of_low {k : Nat} (h : (rd s (slotWord k 7)).toNat ≠ 65535) : armBase k s = s := by
  have := (rd s (slotWord k 7)).isLt
  exact if_neg (by omega)

theorem armBase_of_wrap {k : Nat} (h : (rd s (slotWord k 7)).toNat = 65535) : armBase k s = wrapClear k s := if_pos (by omega)

theorem nextEvent_toNat (w : Word) : nextEvent w.toNat = if w.toNat = 65535 then 1 else w.toNat + 1 := by
  have := w.isLt
  unfold nextEvent
  by_cases h : w.toNat = 65535
  · rw [if_pos h, if_pos (by omega)]
  · rw [if_neg h, if_neg (by omega)]

/-- A request that ends DONE, whatever its owner wrote outside the slot. -/
theorem request_done_of {p : Nat → Bool} (hm : MemWf s.mem) (hq : s.part.queue = n :: rest) (hwf : MemWf v.mem)
    (hpart : v.part = (handedOver n s).part) (hp : p (requestWord n 0) = false)
    (hk : KeptOutside p (handedOver n s) v) (result : Nat) : let u := endDone n result v
    SlotShows n 3 0 s u ∧ rd u (requestWord n 3) = wordOf result ∧ KeptOutside (slotAnd n p) s u ∧
      u.part = afterRequest n rest s.part :=
  ⟨slotShows_done hm hwf (hk _ hp) result, rd_endDone_result n result hwf, keptOutside_done hk result, part_done hq hpart result⟩

/-- The places that arming writes beside the slot of the request. -/
def armPlaces (k : Nat) (a : Nat) : Bool := decide (a ∈ [6, 7, 8, 9, 10].map (slotWord k)) || inSubscribers a

theorem armSlot_keptOutside (k : Nat) (s : State) : KeptOutside (armPlaces k) s (armSlot k s) :=
  ((armBase_kept k s).mono fun a ha => by simp [armPlaces, ha]).trans
    ((armSlot_kept k s).keptOutside fun a ha => by rw [armPlaces, decide_eq_true ha, Bool.true_or])

theorem slotAnd_armPlaces (k a : Nat) : slotAnd n (armPlaces k) a =
    (decide (a ∈ slotWords n ++ [6, 7, 8, 9, 10].map (slotWord k)) || (decide (0x10000 ≤ a) && decide (a < 0x30000))) := by
  simp only [slotAnd, armPlaces, inSubscribers, List.mem_append, Bool.decide_or, Bool.or_assoc]

theorem armPlaces_slotWord {k : Nat} (hn : n < 8) : armPlaces k (requestWord n 0) = false := by
  have hnot := requestWord_not_slotPlaces hn k [6, 7, 8, 9, 10]
  have hplace : requestWord n 0 < 0x10000 := by unfold requestWord; omega
  have hlow : ¬0x10000 ≤ requestWord n 0 := by omega
  simp only [armPlaces, inSubscribers, decide_eq_false hnot, decide_eq_false hlow, Bool.false_and, Bool.or_false]

/-- R146: what the entries of a slot show when their event number is used again. -/
theorem wrapCleared_purchaseAt {k i j : Nat} (hm : MemWf s.mem) (hi : i < 4096) (hj : j < 4) (hk : (purchaseAt s i j).slot = k) :
    purchaseAt (wrapClear k s) i j = { purchaseAt s i j with valid := false } := by
  have hentry := wrapClear_entry hm hi hj hk
  have hevent : subRd (wrapClear k s) i (15 + 2 * j) = subRd s i (15 + 2 * j) :=
    wrapClear_other hm hi (by omega) fun _ _ _ => by omega
  obtain ⟨hvalid, hslot⟩ := purchaseWord_field (k := k) (hk ▸ purchaseAt_slot_lt s i j) false
  conv_lhs => unfold purchaseAt
  rw [hentry, hevent, hvalid, hslot, ← hk]
  rfl

theorem readOver_wf (n : Nat) (hm : MemWf s.mem) : MemWf (readOver n s).mem := handedOver_wf n hm

theorem subRd_readOver (hn : n < 8) (s : State) (i w : Nat) : subRd (readOver n s) i w = subRd s i w :=
  wordsKept_handedOver n s _ fun h => by
    have hnot := subscriberWord_not_slotWords hn (i := i) (w := w)
    rw [List.mem_singleton.1 h] at hnot
    exact hnot List.mem_cons_self

theorem purchaseAt_readOver (hn : n < 8) (s : State) (i j : Nat) : purchaseAt (readOver n s) i j = purchaseAt s i j := by
  unfold purchaseAt
  rw [subRd_readOver hn, subRd_readOver hn]

theorem armEvent_arms {k : Nat} (hm : MemWf s.mem) (h : AtHead .armEvent n rest s) (hp : s.part.state ≠ .unplanned)
    (hA : argA s n = k) (hk : k ≤ 7) (hfault : armFault s k = none) : ∃ u, exec .armEvent s = .next (concluded s u) ∧
       u.slots = { s.slots with armed := tableSet s.slots.armed k (armCopy k s) } ∧
       (∀ a w, (a, w) ∈ armHead k s ++ totalsWords k 0 0 → rd u a = w) ∧
       SlotShows n 3 0 s u ∧ rd u (requestWord n 3) = wordOf (armCopy k s).event ∧
       ((rd s (slotWord k 7)).toNat ≠ 65535 → WordsKept (slotWords n ++ [6, 7, 8, 9, 10].map (slotWord k)) s u) ∧
       ((rd s (slotWord k 7)).toNat = 65535 → ∀ i w, subRd u i w = subRd (wrapClear k (readOver n s)) i w) ∧
       KeptOutside (slotAnd n (armPlaces k)) s u ∧ u.part = afterRequest n rest s.part ∧
       u = { s with
         mem := u.mem, port := u.port, part := u.part, slots := { s.slots with armed := u.slots.armed } } := by
  have ⟨hs, hq, hn, _⟩ := h
  have hargA : argA (readOver n s) n = k := (argA_handedOver n s).trans hA
  have hdone : armEvent n (handedOver n s) = endDone n (armCopy k s).event (armSlot k (readOver n s)) := by
    have hdone := armEvent_of_none (n := n) (s := handedOver n s)
    rw [show partRead (handedOver n s) = readOver n s from rfl, hargA, armFault_readOver hn, armCopy_readOver hn] at hdone
    exact hdone hfault
  have hexec : exec .armEvent s = .next (concluded s (armEvent n (handedOver n s))) :=
    exec_request (r := .armEvent) h (allowed_of_planned (by decide) hs hp)
  rw [hdone] at hexec
  refine ⟨_, hexec, ?_⟩
  have hmr : MemWf (readOver n s).mem := handedOver_wf n hm
  have hframe := armSlot_frame k (readOver n s)
  rw [armCopy_readOver hn] at hframe
  have hkept : KeptOutside (armPlaces k) (handedOver n s) (armSlot k (readOver n s)) := armSlot_keptOutside k (readOver n s)
  have hrd {a : Nat} {w : Word} (ha : (a, w) ∈ armHead k s ++ totalsWords k 0 0) : rd (armSlot k (readOver n s)) a = w :=
    rd_armSlot hmr (by rw [armHead, armCopy_readOver hn]; exact ha)
  have hvwf := armSlot_wf k hmr
  have hwords := armSlot_kept k (readOver n s)
  have hword7 : rd (readOver n s) (slotWord k 7) = rd s (slotWord k 7) := rd_slotWord_readOver hn s k 7
  generalize armSlot k (readOver n s) = v at *
  obtain ⟨hshows, hresult, hkept', hpart⟩ := request_done_of hm hq hvwf (by rw [hframe]; rfl) (armPlaces_slotWord hn) hkept
    (armCopy k s).event
  refine ⟨by rw [endDone_slots, hframe]; rfl, fun a w ha => (rd_done ?_ _).trans (hrd ha), hshows, hresult, fun hlow a ha => ?_,
    fun hwrap i w => ?_, hkept', hpart, by rw [endDone_frame, hframe]; rfl⟩
  · have hplace := List.mem_map_of_mem (f := Prod.fst) ha
    rw [armWords_places] at hplace
    obtain ⟨x, -, rfl⟩ := List.mem_map.1 hplace
    exact slotWord_not_slotWords hn
  · rw [armBase_of_low (by rwa [hword7])] at hwords
    have hslot : a ∉ slotWords n := fun h => ha (List.mem_append_left _ h)
    refine (rd_done hslot _).trans ((hwords a fun h => ha (List.mem_append_right _ h)).trans
      (wordsKept_handedOver n s a fun h => hslot ?_))
    rw [List.mem_singleton.1 h]
    exact List.mem_cons_self
  · rw [armBase_of_wrap (by rwa [hword7])] at hwords
    exact (rd_done (subscriberWord_not_slotWords hn) _).trans
      (hwords _ (subscriberWord_not_slotPlaces hk (by decide)))

/-- Settles O27: the slot armed by its writes in turn, the entries of a number used again, and the tests that fail. -/
theorem armEventArmsTheSlot : Obligations.ArmEventArmsTheSlot := by
  unfold Obligations.ArmEventArmsTheSlot
  refine ⟨fun n k start finish cutoff event rest s hm h hp hA hk hvalid hstart hfinish hcutoff horder hnow hcut hnamed hidle
      hevent => ?_, fun n k start finish cutoff e named rest s hm h hp hA hstart hfinish hcutoff hnamed he => ?_⟩
  · have hn := h.2.2.1
    obtain ⟨u, hexec, hslots, hrd, hshows, hresult, hlow, hwrap, hkept, hpart, hframe⟩ := armEvent_arms hm h hp hA hk
      (armFault_none hk hvalid hstart hfinish hcutoff horder hnow hcut ((imageNamesSlot_iff s k).2 hnamed) hidle)
    have hnext : (armCopy k s).event = event := (nextEvent_toNat _).trans hevent.symm
    have harmed : u.slots.armed = tableSet s.slots.armed k (armCopy k s) := by rw [hslots]
    have hcopy : armCopy k s =
        { state := if currentStamp s < start then .open else .showing, event := event, startStamp := start
          endStamp := finish, cutoff := cutoff, price := (rd s (slotWord k 5)).toNat } := by
      rw [hstart, hfinish, hcutoff, ← hnext]
      rfl
    have hcode : wordOf (armCopy k s).state.code = if currentStamp s < start then 1 else 2 := by
      rw [hcopy]
      by_cases hlt : currentStamp s < start
      · simp only [hlt, if_true]
        rfl
      · simp only [hlt, if_false]
        rfl
    have hhigh : pairHighWord 0 = 0 := by decide
    have hlow' : pairLowWord 0 = 0 := by decide
    have hzero : wordOf 0 = 0 := by decide
    refine ⟨u, hexec, by rw [harmed, tableGet_tableSet_same, hcopy], fun j hj => by rw [harmed, tableGet_tableSet_other _ _ hj],
      (hrd _ _ (by simp [armHead])).trans hcode, (hrd _ _ (by simp [armHead])).trans (congrArg wordOf hnext),
      hrd _ _ (by simp [totalsWords, hzero]), hrd _ _ (by simp [totalsWords, hlow']), hrd _ _ (by simp [totalsWords, hhigh]),
      hshows, hresult.trans (congrArg wordOf hnext), hlow, fun h => ⟨fun i j hi hj hslot => ?_, fun i w hi hw hnot => ?_, ?_⟩,
      hpart, hframe⟩
    · have hu : purchaseAt u i j = purchaseAt (wrapClear k (readOver n s)) i j := by
        unfold purchaseAt
        rw [hwrap h, hwrap h]
      rw [hu, wrapCleared_purchaseAt (readOver_wf n hm) hi hj ((congrArg Purchase.slot (purchaseAt_readOver hn s i j)).trans hslot),
        purchaseAt_readOver hn]
    · rw [hwrap h, wrapClear_other (readOver_wf n hm) hi hw, subRd_readOver hn]
      exact fun j hj hslot => hnot j hj ((congrArg Purchase.slot (purchaseAt_readOver hn s i j)).symm.trans hslot)
    · intro a ha
      exact hkept a ((slotAnd_armPlaces k a).trans ha)
  · have hnamed' : imageNamesSlot s k = named := Bool.eq_iff_iff.2 ((imageNamesSlot_iff s k).trans hnamed.symm)
    obtain ⟨f, hf, rfl⟩ := armFault_code hstart hfinish hcutoff hnamed' he
    refine request_fails (r := .armEvent) hm h (allowed_of_planned (by decide) h.1 hp) (readAfter_partRead n s)
      (armEvent_of_some ?_)
    rw [show partRead (handedOver n s) = readOver n s from rfl, show argA (readOver n s) n = k from
      (argA_handedOver n s).trans hA, armFault_readOver h.2.2.1]
    exact hf

end Sys2Proof.Machine


/-! ## Purchases: the journal record, the fill and the checks (R152 to R156) -/

namespace Sys2Proof.Machine

variable {s t u v b : State} {n i k j : Nat} {rest : List Nat}

/-! Journal records (R173, R174). -/

theorem JournalAt.congr {p q c : Nat} {body : List Nat} (h : JournalAt p q c body s t)
    (hk : ∀ w, w < 16 → rd u (journalWord p w) = rd t (journalWord p w)) (hlen : body.length ≤ 12) :
    JournalAt p q c body s u := by
  obtain ⟨hkind, hsequence, hstamp, hbody⟩ := h
  refine ⟨(hk 0 (by decide)).trans hkind, (hk 1 (by decide)).trans hsequence,
    (rdPair_congr (hk 2 (by decide)) (hk 3 (by decide))).trans hstamp, fun w x hx => ?_⟩
  have hw : w < body.length := (List.getElem?_eq_some_iff.1 hx).1
  exact (hk _ (by omega)).trans (hbody w x hx)

/-- The record and the stamp are told by the clock. -/
theorem JournalAt.of_clock {p q c : Nat} {body : List Nat} (h : JournalAt p q c body s t) (hc : s.clock = v.clock) :
    JournalAt p q c body v t := by
  simpa only [JournalAt, currentStamp, hc] using h

theorem journalWord_ne_control {h w : Nat} (n : RingName) (hw : w < 16) :
    journalWord h w ≠ (ringControl n).1 ∧ journalWord h w ≠ (ringControl n).2.2 := by
  cases n <;> simp only [journalWord, ringControl, logHeadWord, logSequenceWord, journalHeadWord, journalSequenceWord] <;> omega

/-- The words of a journal record (12.9). -/
def journalRecord (s : State) (kind sequence : Nat) (body : List Nat) : List Word :=
  recordPrefix s kind sequence ++ body.map wordOf

theorem journalAppend_of_loaded {r : RingCopy} (hr : s.writer.journal = some r) (kind : JournalKind) (body : List Nat) :
    journalAppend kind body s = returnJournal (advanceRing .journal r
      (writeRecord s (journalWord r.head 0) (journalRecord s kind.code r.sequence body))) := by
  simp only [journalAppend, hr, journalRecord]

theorem journalAppend_writer {r : RingCopy} (hr : s.writer.journal = some r) (kind : JournalKind) (body : List Nat) :
    (journalAppend kind body s).writer = { s.writer with
      journal := some { head := (r.head + 1) % 1024, tail := r.tail, sequence := nextSequence r.sequence }, taken := false } := by
  rw [journalAppend_of_loaded hr]
  unfold returnJournal advanceRing setRingCopy
  dsimp only
  rw [wr_writer, wr_writer, writeRecord_frame]
  rfl

theorem advanceRing_journalWord (n : RingName) (r : RingCopy) (s : State) {h w : Nat} (hw : w < 16) :
    rd (advanceRing n r s) (journalWord h w) = rd s (journalWord h w) := by
  obtain ⟨hhead, hseq⟩ := journalWord_ne_control (h := h) n hw
  exact (setRingCopy_rd n _ _ _).trans ((rd_wr_other _ _ _ _ hseq).trans (rd_wr_other _ _ _ _ hhead))

theorem journalAt_journalAppend {r : RingCopy} (hm : MemWf s.mem) (hr : s.writer.journal = some r) (kind : JournalKind)
    {body : List Nat} (hlen : body.length ≤ 12) :
    JournalAt r.head r.sequence kind.code body s (journalAppend kind body s) := by
  have hword (w : Nat) (x : Word) (hw : w < 16) (hx : (journalRecord s kind.code r.sequence body)[w]? = some x) :
      rd (journalAppend kind body s) (journalWord r.head w) = x := by
    rw [journalAppend_of_loaded hr]
    exact (advanceRing_journalWord .journal r _ hw).trans (rd_writeRecord_same _ s (journalWord r.head 0) w x hm hx)
  refine ⟨hword 0 _ (by decide) rfl, hword 1 _ (by decide) rfl, ?_, fun w x hx => ?_⟩
  · rw [rdPair, hword 2 _ (by decide) rfl, show journalWord r.head 2 + 1 = journalWord r.head 3 from rfl,
      hword 3 _ (by decide) rfl, pairValue_words_mod]
  · have hw : w < body.length := (List.getElem?_eq_some_iff.1 hx).1
    refine hword (4 + w) _ (by omega) ?_
    rw [journalRecord, List.getElem?_append_right (by simp [recordPrefix]), List.getElem?_map]
    simp only [recordPrefix, List.length_cons, List.length_nil, Nat.add_sub_cancel_left, hx, Option.map_some]

/-! What the checks of a purchase read. -/

/-- From place 0xA0 on, the event slots and the records read the same, and so do the armed copies, the clock and the activation
outstanding. -/
structure SeesAs (s t : State) : Prop where
  slots : t.slots = s.slots
  clock : t.clock = s.clock
  order : t.order = s.order
  words : ∀ a, 0xA0 ≤ a → rd t a = rd s a

theorem SeesAs.refl (s : State) : SeesAs s s := ⟨rfl, rfl, rfl, fun _ _ => rfl⟩

theorem SeesAs.trans (h : SeesAs s t) (k : SeesAs t u) : SeesAs s u :=
  ⟨k.slots.trans h.slots, k.clock.trans h.clock, k.order.trans h.order, fun a ha => (k.words a ha).trans (h.words a ha)⟩

theorem SeesAs.of_mem (hmem : t.mem = s.mem) (hs : t.slots = s.slots) (hc : t.clock = s.clock) (ho : t.order = s.order) :
    SeesAs s t := ⟨hs, hc, ho, fun a _ => rd_congr hmem a⟩

theorem SeesAs.handedOver (hn : n < 8) (s : State) : SeesAs s (handedOver n s) :=
  ⟨rfl, rfl, rfl, fun a ha => wordsKept_handedOver n s a fun h => by
    rw [List.mem_singleton.1 h, requestWord] at ha
    omega⟩

theorem SeesAs.partRead (s : State) : SeesAs s (partRead s) := ⟨rfl, rfl, rfl, fun _ _ => rfl⟩

theorem SeesAs.slotRd (h : SeesAs s t) (k w : Nat) : rd t (slotWord k w) = rd s (slotWord k w) :=
  h.words _ (by unfold slotWord; omega)

theorem SeesAs.slotPair (h : SeesAs s t) (k w : Nat) : rdPair t (slotWord k w) = rdPair s (slotWord k w) :=
  rdPair_congr (h.slotRd k w) (h.slotRd k (w + 1))

theorem SeesAs.subRd (h : SeesAs s t) (i w : Nat) : subRd t i w = subRd s i w :=
  h.words _ (by unfold subscriberWord; omega)

theorem SeesAs.currentStamp (h : SeesAs s t) : currentStamp t = currentStamp s := by rw [Machine.currentStamp, h.clock]; rfl

theorem SeesAs.slotState (h : SeesAs s t) (k : Nat) : slotState t k = slotState s k := by
  unfold Machine.slotState
  rw [h.slots]

theorem SeesAs.slotEvent (h : SeesAs s t) (k : Nat) : slotEvent t k = slotEvent s k := by
  unfold Machine.slotEvent
  rw [h.slots]

theorem SeesAs.armedOf (h : SeesAs s t) (k : Nat) : armedOf t k = armedOf s k := by
  unfold Machine.armedOf
  rw [h.slots]

theorem SeesAs.purchaseAt (h : SeesAs s t) (i j : Nat) : purchaseAt t i j = purchaseAt s i j := by
  unfold Machine.purchaseAt
  rw [h.subRd, h.subRd]

theorem SeesAs.isLive (h : SeesAs s t) (p : Purchase) : isLive t p = isLive s p := by
  unfold Machine.isLive
  rw [h.slotState, h.slotEvent]

theorem SeesAs.livePlaceOf (h : SeesAs s t) (i k : Nat) : livePlaceOf t i k = livePlaceOf s i k := by
  simp only [Machine.livePlaceOf, h.purchaseAt, h.isLive]

theorem SeesAs.freePlace (h : SeesAs s t) (i : Nat) : freePlace t i = freePlace s i := by
  simp only [Machine.freePlace, h.purchaseAt, h.isLive]

theorem SeesAs.subStatus (h : SeesAs s t) (i : Nat) : subStatus t i = subStatus s i := by
  unfold Machine.subStatus
  rw [h.subRd]

theorem SeesAs.inUse (h : SeesAs s t) (i : Nat) : inUse t i = inUse s i := by
  unfold Machine.inUse subTap
  rw [h.subRd, h.order]

theorem SeesAs.servable (h : SeesAs s t) (i : Nat) : servable t i = servable s i := by
  unfold Machine.servable
  rw [h.inUse, h.subStatus]

theorem SeesAs.mayPurchase (h : SeesAs s t) (i : Nat) : mayPurchase t i = mayPurchase s i := by
  unfold Machine.mayPurchase
  rw [h.servable, h.subStatus]

theorem SeesAs.purchasable (h : SeesAs s t) (k : Nat) : purchasable t k = purchasable s k := by
  unfold Machine.purchasable
  rw [h.slotState, h.currentStamp, h.armedOf]

theorem SeesAs.recordRefusal (h : SeesAs s t) (i k : Nat) : recordRefusal t i k = recordRefusal s i k := by
  unfold Machine.recordRefusal
  rw [h.mayPurchase, h.livePlaceOf, h.freePlace, h.subRd, h.subRd, h.armedOf]

theorem SeesAs.purchaseRefusal (h : SeesAs s t) (i k : Nat) : purchaseRefusal t i k = purchaseRefusal s i k := by
  unfold Machine.purchaseRefusal
  rw [h.clock, h.mayPurchase, h.purchasable, h.recordRefusal]

/-! The checks (R153). -/

theorem mayPurchase_eq_false_iff (s : State) (i : Nat) :
    mayPurchase s i = false ↔ servable s i = false ∨ (subStatus s i).confirmed ≠ .full := by
  simp only [mayPurchase, Bool.and_eq_false_iff, decide_eq_false_iff_not, ne_eq]

theorem purchasable_iff (s : State) (k : Nat) : purchasable s k = true ↔ slotState s k = .open ∨
    (slotState s k = .showing ∧ currentStamp s < (armedOf s k).startStamp + (armedOf s k).cutoff) := by
  simp only [purchasable, Bool.or_eq_true, Bool.and_eq_true, decide_eq_true_eq]

theorem recordRefusal_none (hserve : servable s i = true) (hfull : (subStatus s i).confirmed = .full)
    (hlive : livePlaceOf s i k = none) (hfree : freePlace s i = some j)
    (hcredit : (subRd s i 13).toNat + (armedOf s k).price ≤ (subRd s i 5).toNat) : recordRefusal s i k = none := by
  unfold recordRefusal
  rw [if_neg (by simp [mayPurchase, hserve, hfull]), if_neg (by simp [hlive]), if_neg (by simp [hfree]), if_neg (by omega)]

theorem purchaseRefusal_none (hvalid : s.clock.valid = true) (hbuy : purchasable s k = true) (hrecord : recordRefusal s i k = none) :
    purchaseRefusal s i k = none := by
  have hmay : mayPurchase s i ≠ false := fun h => by
    unfold recordRefusal at hrecord
    rw [if_pos h] at hrecord
    cases hrecord
  unfold purchaseRefusal
  rw [if_neg (by simp [hvalid]), if_neg hmay, if_neg (by simp [hbuy]), hrecord]

/-- R153: the first check from the second onward that fails, told by the request error of DESK_PURCHASE. -/
theorem purchaseRefusal_code {e : Nat} {r : RingCopy}
    (he : if s.clock.valid = false then e = 19
      else if servable s i = false ∨ (subStatus s i).confirmed ≠ .full then e = 17
      else if purchasable s k = false then e = 13
      else if livePlaceOf s i k ≠ none then e = 14
      else if freePlace s i = none then e = 15
      else if (subRd s i 5).toNat < (subRd s i 13).toNat + (armedOf s k).price then e = 16
      else ringFull .journal r = true ∧ e = 18) :
    (∃ f, purchaseRefusal s i k = some f ∧ f.code = e ∧ f ≠ .journalFull) ∨
      (purchaseRefusal s i k = none ∧ ringFull .journal r = true ∧ e = 18) := by
  unfold purchaseRefusal recordRefusal
  simp only [← mayPurchase_eq_false_iff, Option.isSome_iff_ne_none, Option.isNone_iff_eq_none] at he ⊢
  by_cases hvalid : s.clock.valid = false
  · rw [if_pos hvalid] at he ⊢
    exact .inl ⟨_, rfl, he.symm, by decide⟩
  rw [if_neg hvalid] at he ⊢
  by_cases hmay : mayPurchase s i = false
  · rw [if_pos hmay] at he ⊢
    exact .inl ⟨_, rfl, he.symm, by decide⟩
  rw [if_neg hmay] at he ⊢
  by_cases hbuy : purchasable s k = false
  · rw [if_pos hbuy] at he ⊢
    exact .inl ⟨_, rfl, he.symm, by decide⟩
  rw [if_neg hbuy] at he ⊢
  rw [if_neg hmay]
  by_cases hlive : livePlaceOf s i k ≠ none
  · rw [if_pos hlive] at he ⊢
    exact .inl ⟨_, rfl, he.symm, by decide⟩
  rw [if_neg hlive] at he ⊢
  by_cases hfree : freePlace s i = none
  · rw [if_pos hfree] at he ⊢
    exact .inl ⟨_, rfl, he.symm, by decide⟩
  rw [if_neg hfree] at he ⊢
  by_cases hcredit : (subRd s i 5).toNat < (subRd s i 13).toNat + (armedOf s k).price
  · rw [if_pos hcredit] at he ⊢
    exact .inl ⟨_, rfl, he.symm, by decide⟩
  rw [if_neg hcredit] at he ⊢
  exact .inr ⟨rfl, he⟩

/-! The decision. -/

/-- R174: a journal position has been taken after the record was read. -/
def journalTaken (b : State) : State := { partRead b with writer := { b.writer with taken := true } }

theorem SeesAs.journalTaken (b : State) : SeesAs b (journalTaken b) := ⟨rfl, rfl, rfl, fun _ _ => rfl⟩

theorem takeJournal_room {r l : RingCopy} (hl : b.writer.log = some l) (hj : b.writer.journal = some r)
    (hroom : ringFull .journal r = false) : takeJournal (partRead b) = (journalTaken b, true) := by
  have hload : validateRings (partRead b) = partRead b := validateRings_loaded hl hj
  have hj' : (partRead b).writer.journal = some r := hj
  unfold takeJournal
  dsimp only
  rw [hload]
  split
  · next hnone => cases hj'.symm.trans hnone
  · next x hx =>
    cases hj'.symm.trans hx
    rw [if_neg (by simp [hroom])]
    rfl

theorem takeJournal_full {r l : RingCopy} (hl : b.writer.log = some l) (hj : b.writer.journal = some r)
    (hfull : ringFull .journal r = true) : takeJournal (partRead b) = (reportCondition .journalFull (partRead b), false) := by
  have hload : validateRings (partRead b) = partRead b := validateRings_loaded hl hj
  have hj' : (partRead b).writer.journal = some r := hj
  unfold takeJournal
  dsimp only
  rw [hload, hj']
  dsimp only
  rw [if_pos hfull]

theorem decidePurchase_accepted {r l : RingCopy} (source token : Nat) (hl : b.writer.log = some l)
    (hj : b.writer.journal = some r) (hroom : ringFull .journal r = false) (hnone : purchaseRefusal b i k = none)
    (hfree : freePlace b i = some j) :
    decidePurchase i k source token b = acceptPurchase i k j source token (journalTaken b) := by
  have hrecord : recordRefusal b i k = none := by
    unfold purchaseRefusal at hnone
    split at hnone
    · cases hnone
    · split at hnone
      · cases hnone
      · split at hnone
        · cases hnone
        · exact hnone
  unfold decidePurchase
  dsimp only
  rw [(SeesAs.partRead b).purchaseRefusal, hnone, takeJournal_room hl hj hroom]
  dsimp only
  rw [fillPurchase, (SeesAs.journalTaken b).recordRefusal, hrecord, (SeesAs.journalTaken b).freePlace, hfree]

theorem decidePurchase_refused {f : RequestError} (source token : Nat) (h : purchaseRefusal b i k = some f) :
    decidePurchase i k source token b = refuse i f (partRead b) := by
  unfold decidePurchase
  dsimp only
  rw [(SeesAs.partRead b).purchaseRefusal, h]

theorem decidePurchase_full {r l : RingCopy} (source token : Nat) (hl : b.writer.log = some l)
    (hj : b.writer.journal = some r) (hfull : ringFull .journal r = true) (hnone : purchaseRefusal b i k = none) :
    decidePurchase i k source token b = (reportCondition .journalFull (partRead b), .refused .journalFull) := by
  unfold decidePurchase
  dsimp only
  rw [(SeesAs.partRead b).purchaseRefusal, hnone, takeJournal_full hl hj hfull]
  rfl

/-! The fill (R154). -/

/-- The three words of a purchase entry and the PPV spent. -/
def filledWords (i k j : Nat) (s : State) : List (Nat × Word) :=
  [(subscriberWord i (14 + 2 * j), purchaseWord true k), (subscriberWord i (15 + 2 * j), wordOf (slotEvent s k)),
   (subscriberWord i 13, wordOf ((subRd s i 13).toNat + (armedOf s k).price))]

theorem filledWords_places (i k j : Nat) (s : State) :
    (filledWords i k j s).map Prod.fst = [14 + 2 * j, 15 + 2 * j, 13].map (subscriberWord i) := rfl

theorem subscriberWords_nodup (i : Nat) {ws : List Nat} (h : ws.Nodup) : (ws.map (subscriberWord i)).Nodup :=
  h.map fun _ _ he => Nat.add_left_cancel he

/-- The state in which the entry is filled and its record appended. -/
def journalled (i k j source token : Nat) (b : State) : State :=
  journalAppend .purchase (purchaseWords i k (slotEvent b k) (armedOf b k).price source token)
    (wrHeld (journalTaken b) (filledWords i k j b))

/-- The state in which a purchase is filled, before the submission. -/
def bought (i k j source token : Nat) (b : State) : State :=
  setSlotTotals k ((rd b (slotWord k 8)).toNat + 1) (rdPair b (slotWord k 9) + (armedOf b k).price)
    (journalled i k j source token b)

/-- A purchase writes no slot's record before its totals. -/
theorem filledWords_kept (i k j : Nat) (b : State) : WordsKept ([14 + 2 * j, 15 + 2 * j, 13].map (subscriberWord i)) b
    (wrHeld (journalTaken b) (filledWords i k j b)) := fun a ha =>
  wrHeld_wordsKept (filledWords i k j b) (journalTaken b) a (by rw [filledWords_places]; exact ha)

theorem journalled_kept (hring : RingLaw b) (i k j source token : Nat) :
    KeptOutside (withRings ([13, 14 + 2 * j, 15 + 2 * j].map (subscriberWord i))) b (journalled i k j source token b) := by
  have hring' : RingLaw (wrHeld (journalTaken b) (filledWords i k j b)) := hring
  refine ((filledWords_kept i k j b).withRings ?_).trans (journalAppend_kept hring' _ (Nat.le_refl _)).withRings
  exact List.map_subset _ fun x hx => by simp at hx ⊢; tauto

theorem journalled_slotRd (hring : RingLaw b) {i k j source token w : Nat} (hk : k ≤ 7) (hw : w < 16) :
    rd (journalled i k j source token b) (slotWord k w) = rd b (slotWord k w) := by
  refine journalled_kept hring i k j source token _ ?_
  rw [← Bool.not_eq_true, withRings_iff, ringPlace_slotWord (by omega) hw]
  rintro (h | h)
  · obtain ⟨x, -, hx⟩ := List.mem_map.1 h
    unfold slotWord subscriberWord at hx
    omega
  · cases h

theorem acceptPurchase_eq (hring : RingLaw b) {i k j source token : Nat} (hk : k ≤ 7) :
    acceptPurchase i k j source token (journalTaken b) =
      (if slotState b k = .showing then submit i (bought i k j source token b) else bought i k j source token b,
        .accepted (journalSequence b)) := by
  have hcount := journalled_slotRd (i := i) (j := j) (source := source) (token := token) hring hk (w := 8) (by decide)
  have hrevenue : rdPair (journalled i k j source token b) (slotWord k 9) = rdPair b (slotWord k 9) :=
    rdPair_congr (journalled_slotRd hring hk (by decide)) (journalled_slotRd hring hk (w := 10) (by decide))
  unfold acceptPurchase
  dsimp only
  rw [show journalAppend .purchase (purchaseWords i k (slotEvent (journalTaken b) k) (armedOf (journalTaken b) k).price source token)
    (fillEntry i k j (journalTaken b)) = journalled i k j source token b from rfl, hcount, hrevenue]
  rfl

end Sys2Proof.Machine


/-! ## Purchases filled and cancelled (R154, R156), and submissions (R65) -/

namespace Sys2Proof.Machine

variable {s t u v b : State} {n i k j : Nat} {rest : List Nat}

/-! Submissions. -/

theorem isWaiting_wakeRefresh (i : Nat) (s : State) : isWaiting (wakeRefresh s) i = isWaiting s i := by
  rw [isWaiting, isWaiting, wakeRefresh_sched]

theorem submit_waiting {i : Nat} (h : isWaiting s i = true) :
    (submit i s).sched = { s.sched with refresh := s.sched.refresh.woken } := by
  unfold submit
  dsimp only
  rw [if_pos ((isWaiting_wakeRefresh i s).trans h), wakeRefresh_sched]

theorem submit_room {i : Nat} (h : isWaiting s i = false) (hroom : s.sched.queue.length < 64) :
    (submit i s).sched = { s.sched with queue := s.sched.queue ++ [i], refresh := s.sched.refresh.woken } := by
  unfold submit
  dsimp only
  rw [if_neg (by rw [isWaiting_wakeRefresh, h]; exact Bool.false_ne_true),
    if_pos (by rw [wakeRefresh_sched]; exact hroom), wakeRefresh_sched]

theorem submit_full {i : Nat} (h : isWaiting s i = false) (hfull : 64 ≤ s.sched.queue.length) :
    (submit i s).sched = { s.sched with deferred := insertNat s.sched.deferred i, refresh := s.sched.refresh.woken } := by
  unfold submit
  dsimp only
  rw [if_neg (by rw [isWaiting_wakeRefresh, h]; exact Bool.false_ne_true),
    if_neg (by rw [wakeRefresh_sched]; exact Nat.not_lt.2 hfull), wakeRefresh_sched]

/-- R65, R88: a submission places the subscriber once, and ends refresh's rest. -/
theorem submitted_submit (i : Nat) (s : State) : Submitted i s (submit i s) := by
  refine ⟨fun h => ?_, fun h hroom => ?_, fun h hfull => ?_, ?_⟩
  · rw [submit_waiting h]; exact ⟨rfl, rfl⟩
  · rw [submit_room h hroom]; exact ⟨rfl, rfl⟩
  · rw [submit_full h hfull]; exact ⟨rfl, mem_insertNat _ i⟩
  · cases h : isWaiting s i with
    | true => rw [submit_waiting h]
    | false =>
      rcases Nat.lt_or_ge s.sched.queue.length 64 with hroom | hfull
      · rw [submit_room h hroom]
      · rw [submit_full h hfull]

theorem submissionOnly_submit (i : Nat) (s : State) : SubmissionOnly s (submit i s) := by
  unfold SubmissionOnly
  cases h : isWaiting s i with
  | true => rw [submit_waiting h]
  | false =>
    rcases Nat.lt_or_ge s.sched.queue.length 64 with hroom | hfull
    · rw [submit_room h hroom]
    · rw [submit_full h hfull]

theorem isWaiting_submit (i : Nat) (s : State) : isWaiting (submit i s) i = true := by
  cases h : isWaiting s i with
  | true => rw [isWaiting, submit_waiting h]; exact h
  | false =>
    rcases Nat.lt_or_ge s.sched.queue.length 64 with hroom | hfull
    · rw [isWaiting, submit_room h hroom]
      simp
    · rw [isWaiting, submit_full h hfull]
      simp [mem_insertNat]

/-- A submission is told by the scheduler before it and after it. -/
theorem Submitted.congr {i : Nat} (h : Submitted i s t) (hs : v.sched = s.sched) (ht : u.sched = t.sched) : Submitted i v u := by
  unfold Submitted isWaiting at *
  rwa [hs, ht]

/-! What a purchase leaves. -/

theorem wordOf_toNat {x : Nat} (h : x < 65536) : (wordOf x).toNat = x := by
  rw [wordOf, BitVec.toNat_ofNat]
  exact Nat.mod_eq_of_lt h

theorem journalled_frame (i k j source token : Nat) (b : State) : journalled i k j source token b = { b with
    mem := (journalled i k j source token b).mem, port := (journalled i k j source token b).port
    writer := (journalled i k j source token b).writer } := by
  rw [journalled, journalAppend_frame, wrHeld_frame, journalTaken]
  rfl

theorem bought_frame (i k j source token : Nat) (b : State) : bought i k j source token b = { b with
    mem := (bought i k j source token b).mem, port := (bought i k j source token b).port
    writer := (journalled i k j source token b).writer } := by
  rw [bought, setSlotTotals_frame, journalled_frame]

theorem journalled_writer {r : RingCopy} (hr : b.writer.journal = some r) (i k j source token : Nat) :
    (journalled i k j source token b).writer = { b.writer with
      journal := some { head := (r.head + 1) % 1024, tail := r.tail, sequence := nextSequence r.sequence }, taken := false } :=
  (journalAppend_writer (show (wrHeld (journalTaken b) (filledWords i k j b)).writer.journal = some r from hr) _ _)

theorem journalled_wf (hm : MemWf b.mem) (i k j source token : Nat) : MemWf (journalled i k j source token b).mem :=
  journalAppend_wf _ _ _ (wrHeld_wf (journalTaken b) _ hm)

theorem bought_wf (hm : MemWf b.mem) (i k j source token : Nat) : MemWf (bought i k j source token b).mem :=
  setSlotTotals_wf _ _ _ (journalled_wf hm i k j source token)

theorem bought_kept (hring : RingLaw b) (i k j source token : Nat) :
    KeptOutside (withRings ([13, 14 + 2 * j, 15 + 2 * j].map (subscriberWord i) ++ [8, 9, 10].map (slotWord k))) b
      (bought i k j source token b) :=
  ((journalled_kept hring i k j source token).withRings_mono (List.subset_append_left _ _)).trans
    ((setSlotTotals_kept k _ _ _).withRings (List.subset_append_right _ _))

theorem slotPlace_lt {k a : Nat} (hk : k ≤ 7) {ws : List Nat} (hws : ∀ x ∈ ws, x < 16) (ha : a ∈ ws.map (slotWord k)) :
    a < 0x120 := by
  obtain ⟨x, hx, rfl⟩ := List.mem_map.1 ha
  have := hws x hx
  unfold slotWord
  omega

/-- A word above the slots is as the record's append leaves it. -/
theorem rd_bought_high {a : Nat} (hk : k ≤ 7) (ha : 0x120 ≤ a) (source token : Nat) :
    rd (bought i k j source token b) a = rd (journalled i k j source token b) a :=
  setSlotTotals_kept k _ _ _ a fun h => by
    have := slotPlace_lt hk (ws := [8, 9, 10]) (by decide) h
    omega

theorem rd_bought_filled (hm : MemWf b.mem) (hring : RingLaw b) (hk : k ≤ 7) (hj : j < 4) {w : Nat} {x : Word}
    (h : (subscriberWord i w, x) ∈ filledWords i k j b) (source token : Nat) :
    subRd (bought i k j source token b) i w = x := by
  have hring' : RingLaw (wrHeld (journalTaken b) (filledWords i k j b)) := hring
  refine (rd_bought_high hk (by unfold subscriberWord; omega) source token).trans
    ((journalAppend_kept hring' _ (Nat.le_refl _) _ (ringPlace_subscriberWord i w)).trans ?_)
  rw [rd_wrHeld]
  refine rd_wrAll_mem (s := journalTaken b) hm ?_ h
  rw [filledWords_places]
  exact subscriberWords_nodup i (by simp; omega)

theorem journalAt_bought {r : RingCopy} (hm : MemWf b.mem) (hr : b.writer.journal = some r) (hk : k ≤ 7) (source token : Nat) :
    JournalAt r.head r.sequence 1 (purchaseWords i k (slotEvent b k) (armedOf b k).price source token) b
      (bought i k j source token b) := by
  have hat := journalAt_journalAppend (s := wrHeld (journalTaken b) (filledWords i k j b)) (r := r)
    (wrHeld_wf (journalTaken b) _ hm) hr .purchase
    (body := purchaseWords i k (slotEvent b k) (armedOf b k).price source token) (Nat.le_refl _)
  exact (hat.of_clock rfl).congr (fun w _ => rd_bought_high hk (by unfold journalWord; omega) source token) (Nat.le_refl _)

theorem totals_setSlotTotals (hm : MemWf s.mem) (k count revenue : Nat) :
    rd (setSlotTotals k count revenue s) (slotWord k 8) = wordOf count ∧
      rdPair (setSlotTotals k count revenue s) (slotWord k 9) = revenue % 4294967296 := by
  have hlow : rd (setSlotTotals k count revenue s) (slotWord k 9) = pairLowWord revenue :=
    rd_setSlotTotals hm (List.mem_cons_of_mem _ List.mem_cons_self)
  have hhigh : rd (setSlotTotals k count revenue s) (slotWord k 9 + 1) = pairHighWord revenue :=
    rd_setSlotTotals hm (List.mem_cons_of_mem _ (List.mem_cons_of_mem _ List.mem_cons_self))
  exact ⟨rd_setSlotTotals hm List.mem_cons_self, by rw [rdPair, hlow, hhigh, pairValue_words_mod]⟩

theorem bought_totals (hm : MemWf b.mem) (i k j source token : Nat) :
    rd (bought i k j source token b) (slotWord k 8) = wordOf ((rd b (slotWord k 8)).toNat + 1) ∧
      rdPair (bought i k j source token b) (slotWord k 9) =
        (rdPair b (slotWord k 9) + (armedOf b k).price) % 4294967296 :=
  totals_setSlotTotals (journalled_wf hm i k j source token) _ _ _

end Sys2Proof.Machine


/-! ## DESK_PURCHASE (R152 to R154) -/

namespace Sys2Proof.Machine

variable {s t u v b : State} {n i k j : Nat} {rest : List Nat}

/-! Requests that end FAILED, whatever their owner wrote outside the slot. -/

/-- A state that differs from another in memory, in its port and in the flags. -/
def FlagsAndWords (s v : State) : Prop := v = { s with mem := v.mem, port := v.port, flags := v.flags }

theorem request_failed (e : RequestError) {ws : List Nat} (hm : MemWf s.mem) (hq : s.part.queue = n :: rest) (hwf : MemWf v.mem)
    (hv : FlagsAndWords (handedOver n s) v) (hk : WordsKept ws (handedOver n s) v) (hws : requestWord n 0 ∉ ws) :
    let u := endFailed n e v
    SlotShows n 4 e.code s u ∧ WordsKept (requestWord n 0 :: ws) s u ∧ u.flags = v.flags ∧
      u.part = afterRequest n rest s.part ∧
      u = { s with mem := u.mem, port := u.port, part := u.part, flags := u.flags } := by
  have hcode : requestCode v n = requestCode s n :=
    (congrArg (field · 0 8) (hk _ hws)).trans (requestCode_handedOver n hm)
  obtain ⟨hc, hstatus, herror⟩ := slotShows_endFailed n e hwf
  have hpart : v.part = (handedOver n s).part := by rw [hv]
  refine ⟨⟨hc.trans hcode, hstatus, herror⟩, fun a ha => ?_, endFailed_flags n e v, ?_, ?_⟩
  · have hnot : a ∉ [requestWord n 0] := fun h => ha (List.mem_singleton.1 h ▸ List.mem_cons_self)
    exact (wordsKept_endFailed n e v a hnot).trans ((hk a fun h => ha (List.mem_cons_of_mem _ h)).trans
      (wordsKept_handedOver n s a hnot))
  · rw [endFailed_frame, hpart, handedOver_frame, hq]
    rfl
  · rw [endFailed_frame, hv, handedOver_frame]

/-! A refusal (R153). -/

theorem refuse_fst (i : Nat) (f : RequestError) (s : State) :
    (refuse i f s).1 = if f = .credit then setNotice (subscriberWord i 7) 2 s else s := rfl

theorem RequestError.code_eq_credit (f : RequestError) : f.code = 16 ↔ f = .credit := by cases f <;> decide

theorem RequestError.code_eq_journalFull (f : RequestError) : f.code = 18 ↔ f = .journalFull := by cases f <;> decide

theorem reportCondition_started {f : Flag} (h : s.part.state ≠ .starting) : reportCondition f s = latch f.mask s := if_neg h

/-- What a refused purchase leaves: the notice of a CREDIT, and the flag of a full journal. -/
structure Refused (i : Nat) (f : RequestError) (b v : State) : Prop where
  wf : MemWf b.mem → MemWf v.mem
  same : f ≠ .credit → v.mem = b.mem
  credit : f = .credit → WordsKept [subscriberWord i 7] b v ∧
    (MemWf b.mem → subRd v i 7 = subRd b i 7 ||| 4)
  flags : f ≠ .journalFull → v.flags = b.flags
  full : f = .journalFull → v.flags = b.flags ||| 0x1000
  port : PortIdle b → v.port = { b.port with last := some .part }
  frame : FlagsAndWords b v

theorem refused_refuse {f : RequestError} (hf : f ≠ .journalFull) (i : Nat) (b : State) :
    Refused i f b (refuse i f (partRead b)).1 := by
  rw [refuse_fst]
  by_cases hc : f = .credit
  · rw [if_pos hc]
    refine ⟨fun hm => wr_wf _ _ _ hm, fun h => absurd hc h,
      fun _ => ⟨fun a ha => setNotice_wordsKept _ _ (partRead b) a ha, fun hm => rd_wr_same (partRead b) _ _ hm⟩,
      fun _ => rfl, fun h => absurd h hf, fun hidle => ?_, rfl⟩
    have hport : (setNotice (subscriberWord i 7) 2 (partRead b)).port = (partRead (partRead b)).port := rfl
    rw [hport, partRead_eq (partRead_idle b), partRead_eq hidle]
  · rw [if_neg hc]
    exact ⟨fun hm => hm, fun _ => rfl, fun h => absurd h hc, fun _ => rfl, fun h => absurd h hf,
      fun hidle => congrArg State.port (partRead_eq hidle), rfl⟩

theorem refused_full (hs : b.part.state ≠ .starting) (i : Nat) :
    Refused i .journalFull b (reportCondition .journalFull (partRead b)) := by
  rw [reportCondition_started (s := partRead b) hs]
  exact ⟨fun hm => hm, fun _ => rfl, fun h => (by cases h), fun h => absurd rfl h, fun _ => rfl,
    fun hidle => congrArg State.port (partRead_eq hidle), rfl⟩

/-- R153: the first check that fails decides. -/
theorem decidePurchase_refuses {e : Nat} {r l : RingCopy} (hs : b.part.state ≠ .starting) (hl : b.writer.log = some l)
    (hj : b.writer.journal = some r) (source token : Nat)
    (h : (∃ f, purchaseRefusal b i k = some f ∧ f.code = e ∧ f ≠ .journalFull) ∨
      (purchaseRefusal b i k = none ∧ ringFull .journal r = true ∧ e = 18)) :
    ∃ f v, decidePurchase i k source token b = (v, .refused f) ∧ f.code = e ∧ Refused i f b v := by
  rcases h with ⟨f, hf, he, hne⟩ | ⟨hnone, hfull, he⟩
  · exact ⟨f, _, decidePurchase_refused source token hf, he, refused_refuse hne i b⟩
  · exact ⟨.journalFull, _, decidePurchase_full source token hl hj hfull hnone, he.symm, refused_full hs i⟩

/-! The purchase with its submission. -/

/-- The state in which a purchase is filled and, while its slot shows, its subscriber submitted. -/
def purchased (i k j source token : Nat) (b : State) : State :=
  if slotState b k = .showing then submit i (bought i k j source token b) else bought i k j source token b

theorem purchased_frame (i k j source token : Nat) (b : State) : purchased i k j source token b =
    { bought i k j source token b with sched := (purchased i k j source token b).sched } := by
  unfold purchased
  split
  · exact submit_frame i _
  · rfl

theorem purchased_mem (i k j source token : Nat) (b : State) :
    (purchased i k j source token b).mem = (bought i k j source token b).mem := by rw [purchased_frame]

theorem bought_sched (i k j source token : Nat) (b : State) : (bought i k j source token b).sched = b.sched := by
  rw [bought_frame]

theorem purchased_submitted {i j source token : Nat} (h : slotState b k = .showing) :
    Submitted i b (purchased i k j source token b) ∧ isWaiting (purchased i k j source token b) i = true := by
  unfold purchased
  rw [if_pos h]
  exact ⟨(submitted_submit i _).congr (bought_sched i k j source token b).symm rfl, isWaiting_submit i _⟩

theorem purchased_submissionOnly (i j source token : Nat) : SubmissionOnly b (purchased i k j source token b) := by
  unfold purchased
  split
  · have h := submissionOnly_submit i (bought i k j source token b)
    unfold SubmissionOnly at h ⊢
    rw [bought_sched] at h
    exact h
  · unfold SubmissionOnly
    rw [bought_sched]

theorem purchased_sched_open {i j source token : Nat} (h : slotState b k = .open) :
    (purchased i k j source token b).sched = b.sched := by
  unfold purchased
  rw [if_neg (by rw [h]; decide), bought_sched]

theorem decidePurchase_fills {r l : RingCopy} (source token : Nat) (hring : RingLaw b) (hk : k ≤ 7) (hl : b.writer.log = some l)
    (hj : b.writer.journal = some r) (hroom : ringFull .journal r = false) (hnone : purchaseRefusal b i k = none)
    (hfree : freePlace b i = some j) :
    decidePurchase i k source token b = (purchased i k j source token b, .accepted r.sequence) := by
  rw [decidePurchase_accepted source token hl hj hroom hnone hfree, acceptPurchase_eq hring hk]
  have hseq : journalSequence b = r.sequence := by simp only [journalSequence, hj]
  rw [hseq]
  rfl

theorem freePlace_lt (h : freePlace s i = some j) : j < 4 := mem_purchasePlaces.1 (List.mem_of_find?_eq_some h)

/-! The request. -/

theorem deskPurchase_index (h : 4096 ≤ argA s n ∨ 7 < argB s n) : deskPurchase n s = endFailed n .badIndex s := if_pos h

theorem deskPurchase_of_refused {f : RequestError} (h : ¬(subscriberCount ≤ argA s n ∨ 7 < argB s n))
    (hd : decidePurchase (argA s n) (argB s n) sourceDesk 0 s = (v, .refused f)) : deskPurchase n s = endFailed n f v := by
  unfold deskPurchase
  dsimp only
  rw [if_neg h, hd]

theorem deskPurchase_of_accepted {q : Nat} (h : ¬(subscriberCount ≤ argA s n ∨ 7 < argB s n))
    (hd : decidePurchase (argA s n) (argB s n) sourceDesk 0 s = (v, .accepted q)) : deskPurchase n s = endDone n q v := by
  unfold deskPurchase
  dsimp only
  rw [if_neg h, hd]

theorem exec_deskPurchase (h : AtHead .deskPurchase n rest s) (hp : s.part.state = .serving) :
    exec .deskPurchase s = .next (concluded s (deskPurchase n (handedOver n s))) :=
  exec_request (r := .deskPurchase) h (by rw [hp]; rfl)

theorem deskPurchase_fills {price : Nat} {r l : RingCopy} (hm : MemWf s.mem) (hring : RingLaw s)
    (h : AtHead .deskPurchase n rest s) (hp : s.part.state = .serving) (hA : argA s n = i) (hB : argB s n = k) (hi : i < 4096)
    (hk : k ≤ 7) (hnone : purchaseRefusal s i k = none) (hfree : freePlace s i = some j) (hprice : price = (armedOf s k).price)
    (hcredit : (subRd s i 13).toNat + price ≤ (subRd s i 5).toNat) (hl : s.writer.log = some l)
    (hj : s.writer.journal = some r) (hroom : ringFull .journal r = false) :
    ∃ u, exec .deskPurchase s = .next (concluded s u) ∧
       subRd u i (14 + 2 * j) = wordOf (k + 32768) ∧ subRd u i (15 + 2 * j) = wordOf (slotEvent s k) ∧
       (subRd u i 13).toNat = (subRd s i 13).toNat + price ∧
       rd u (slotWord k 8) = wordOf ((rd s (slotWord k 8)).toNat + 1) ∧
       rdPair u (slotWord k 9) = (rdPair s (slotWord k 9) + price) % 4294967296 ∧
       JournalAt r.head r.sequence 1 [i, k, slotEvent s k, price, 1, 0, 0, 0, 0, 0, 0, 0] s u ∧
       u.writer.journal =
         some { head := (r.head + 1) % 1024, tail := r.tail, sequence := nextSequence r.sequence } ∧
       (slotState s k = .showing → Submitted i s u ∧ isWaiting u i = true) ∧ SubmissionOnly s u ∧
       (slotState s k = .open → u.sched = s.sched) ∧
       SlotShows n 3 0 s u ∧ rd u (requestWord n 3) = wordOf r.sequence ∧
       KeptOutside
         (withRings (slotWords n ++ [13, 14 + 2 * j, 15 + 2 * j].map (subscriberWord i) ++
           [8, 9, 10].map (slotWord k))) s u ∧
       u.part = afterRequest n rest s.part ∧
       u = { s with
         mem := u.mem, port := u.port, part := u.part, sched := u.sched
         writer := { s.writer with journal := u.writer.journal, taken := false } } := by
  have ⟨_, hq, hn, _⟩ := h
  have hsees := SeesAs.handedOver hn s
  have hringb : RingLaw (handedOver n s) := ringLaw_of_writer hring (handedOver_writer n s)
  have hmb := handedOver_wf n hm
  have hdone : deskPurchase n (handedOver n s) = endDone n r.sequence (purchased i k j sourceDesk 0 (handedOver n s)) := by
    have hdone := deskPurchase_of_accepted (n := n) (s := handedOver n s) (v := purchased i k j sourceDesk 0 (handedOver n s))
      (q := r.sequence)
    rw [argA_handedOver, argB_handedOver, hA, hB] at hdone
    exact hdone (by unfold subscriberCount; omega) (decidePurchase_fills sourceDesk 0 hringb hk hl hj hroom ((hsees.purchaseRefusal i k).trans hnone)
      ((hsees.freePlace i).trans hfree))
  have hexec := exec_deskPurchase h hp
  rw [hdone] at hexec
  refine ⟨_, hexec, ?_⟩
  have hj4 := freePlace_lt hfree
  have hfilled {w : Nat} {x : Word} (hx : (subscriberWord i w, x) ∈ filledWords i k j (handedOver n s)) :
      subRd (bought i k j sourceDesk 0 (handedOver n s)) i w = x := rd_bought_filled hmb hringb hk hj4 hx sourceDesk 0
  have hjournal := journalAt_bought (i := i) (j := j) hmb (r := r) hj hk sourceDesk 0
  obtain ⟨hcount, hrevenue⟩ := bought_totals hmb i k j sourceDesk 0
  have hkept := bought_kept hringb i k j sourceDesk 0
  have hwf := bought_wf hmb i k j sourceDesk 0
  have hwriter := journalled_writer (b := handedOver n s) (r := r) hj i k j sourceDesk 0
  have hbframe := bought_frame i k j sourceDesk 0 (handedOver n s)
  have hpframe := purchased_frame i k j sourceDesk 0 (handedOver n s)
  have hsub := purchased_submitted (b := handedOver n s) (i := i) (k := k) (j := j) (source := sourceDesk) (token := 0)
  have honly := purchased_submissionOnly (b := handedOver n s) (k := k) i j sourceDesk 0
  have hopen := purchased_sched_open (b := handedOver n s) (i := i) (k := k) (j := j) (source := sourceDesk) (token := 0)
  rw [hwriter] at hbframe
  rw [hsees.slotState] at hsub hopen
  rw [hsees.slotEvent, hsees.armedOf, ← hprice] at hjournal
  rw [hsees.slotRd] at hcount
  rw [hsees.slotPair, hsees.armedOf, ← hprice] at hrevenue
  unfold filledWords at hfilled
  rw [hsees.slotEvent, hsees.subRd, hsees.armedOf, ← hprice] at hfilled
  generalize purchased i k j sourceDesk 0 (handedOver n s) = v at *
  generalize bought i k j sourceDesk 0 (handedOver n s) = w at *
  have hmem : v.mem = w.mem := by rw [hpframe]
  have hrd (a : Nat) (ha : a ∉ slotWords n) : rd (endDone n r.sequence v) a = rd w a :=
    (rd_done ha r.sequence).trans (rd_congr hmem a)
  have hsubrd (x : Nat) : subRd (endDone n r.sequence v) i x = subRd w i x := hrd _ (subscriberWord_not_slotWords hn)
  have hkeptv : KeptOutside (withRings ([13, 14 + 2 * j, 15 + 2 * j].map (subscriberWord i) ++ [8, 9, 10].map (slotWord k)))
      (handedOver n s) v := fun a ha => (rd_congr hmem a).trans (hkept a ha)
  have hcode : requestWord n 0 ∉ [13, 14 + 2 * j, 15 + 2 * j].map (subscriberWord i) ++ [8, 9, 10].map (slotWord k) := by
    rw [List.mem_append]
    rintro (h | h)
    · obtain ⟨x, -, hx⟩ := List.mem_map.1 h
      unfold requestWord subscriberWord at hx
      omega
    · exact requestWord_not_slotPlaces hn k _ h
  obtain ⟨hshows, hresult, hkept', hpart⟩ := request_done hm hn hq (by rw [hmem]; exact hwf) (by rw [hpframe, hbframe]) hcode
    hkeptv r.sequence
  have hmark : purchaseWord true k = wordOf (k + 32768) := rfl
  have hprice13 : (wordOf ((subRd s i 13).toNat + price)).toNat = (subRd s i 13).toNat + price :=
    wordOf_toNat (by have := (subRd s i 5).isLt; omega)
  refine ⟨((hsubrd _).trans (hfilled List.mem_cons_self)).trans hmark,
    (hsubrd _).trans (hfilled (List.mem_cons_of_mem _ List.mem_cons_self)), ?_,
    (hrd _ (slotWord_not_slotWords hn)).trans hcount,
    (rdPair_congr (hrd _ (slotWord_not_slotWords hn)) (hrd (slotWord k 10) (slotWord_not_slotWords hn))).trans hrevenue,
    ?_, ?_, fun hshow => ?_, ?_, fun ho => ?_, hshows, hresult, by rw [List.append_assoc]; exact hkept', hpart, ?_⟩
  · rw [hsubrd, hfilled (w := 13) (List.mem_cons_of_mem _ (List.mem_cons_of_mem _ List.mem_cons_self)), hprice13]
  · exact (hjournal.of_clock (handedOver_clock n s)).congr (fun w _ => hrd _ (fun hmem => by
      have := slotWords_place hn hmem
      unfold journalWord at this
      omega)) (Nat.le_refl _)
  · rw [endDone_writer, hpframe, hbframe]
  · obtain ⟨hs, hw⟩ := hsub hshow
    refine ⟨hs.congr (handedOver_sched n s).symm (endDone_sched n _ v), ?_⟩
    rwa [isWaiting, endDone_sched]
  · unfold SubmissionOnly at honly ⊢
    rw [endDone_sched]
    exact honly
  · rw [endDone_sched]
    exact hopen ho
  · rw [endDone_frame, hpframe, hbframe]
    rfl

theorem deskPurchase_refuses {e : Nat} {r l : RingCopy} (hm : MemWf s.mem) (h : AtHead .deskPurchase n rest s)
    (hp : s.part.state = .serving) (hA : argA s n = i) (hB : argB s n = k) (hin : ¬(4096 ≤ i ∨ 7 < k))
    (hl : s.writer.log = some l) (hj : s.writer.journal = some r)
    (hf : (∃ f, purchaseRefusal s i k = some f ∧ f.code = e ∧ f ≠ .journalFull) ∨
      (purchaseRefusal s i k = none ∧ ringFull .journal r = true ∧ e = 18)) :
    ∃ u, exec .deskPurchase s = .next (concluded s u) ∧ SlotShows n 4 e s u ∧
       (e ≠ 16 → WordsKept [requestWord n 0] s u) ∧
       (e = 16 → WordsKept [requestWord n 0, subscriberWord i 7] s u ∧ subRd u i 7 = subRd s i 7 ||| 4) ∧
       (e ≠ 18 → u.flags = s.flags) ∧ (e = 18 → u.flags = s.flags ||| 0x1000) ∧
       u.part = afterRequest n rest s.part ∧
       u = { s with mem := u.mem, port := u.port, part := u.part, flags := u.flags } := by
  have ⟨hs, hq, hn, _⟩ := h
  have hsees := SeesAs.handedOver hn s
  have hstate : (handedOver n s).part.state ≠ .starting := ((started_iff s).1 hs).2
  rw [← hsees.purchaseRefusal] at hf
  obtain ⟨f, v, hdecide, rfl, hrefused⟩ := decidePurchase_refuses (b := handedOver n s) (l := l) (r := r) hstate hl hj sourceDesk 0 hf
  have hdone : deskPurchase n (handedOver n s) = endFailed n f v := by
    have hdone := deskPurchase_of_refused (n := n) (s := handedOver n s) (v := v) (f := f)
    rw [argA_handedOver, argB_handedOver, hA, hB] at hdone
    exact hdone hin hdecide
  have hexec := exec_deskPurchase h hp
  rw [hdone] at hexec
  refine ⟨_, hexec, ?_⟩
  have hcode : requestWord n 0 ≠ subscriberWord i 7 := by unfold requestWord subscriberWord; omega
  have hkept (ws : List Nat) (hk : WordsKept ws (handedOver n s) v) (hws : requestWord n 0 ∉ ws) :=
    request_failed f hm hq (hrefused.wf (handedOver_wf n hm)) hrefused.frame hk hws
  have hcredit : WordsKept [subscriberWord i 7] (handedOver n s) v := by
    by_cases hc : f = .credit
    · exact (hrefused.credit hc).1
    · exact fun a _ => rd_congr (hrefused.same hc) a
  obtain ⟨hshows, hwords, hflags, hpart, hframe⟩ := hkept _ hcredit (by simpa using hcode)
  refine ⟨hshows, fun he => ?_, fun he => ⟨hwords, ?_⟩, fun he => ?_, fun he => ?_, hpart, hframe⟩
  · exact (hkept [] (fun a _ => rd_congr (hrefused.same (mt f.code_eq_credit.2 he)) a) List.not_mem_nil).2.1
  · have hnot : subscriberWord i 7 ∉ [requestWord n 0] := by simpa using hcode.symm
    exact (wordsKept_endFailed n f v _ hnot).trans (((hrefused.credit (f.code_eq_credit.1 he)).2 (handedOver_wf n hm)).trans
      (congrArg (· ||| 4) (hsees.subRd i 7)))
  · exact hflags.trans (hrefused.flags (mt f.code_eq_journalFull.2 he))
  · exact hflags.trans (hrefused.full (f.code_eq_journalFull.1 he))

/-- Settles O29: the fill by its writes in turn, and the first check that fails. -/
theorem deskPurchaseChecksThenFills : Obligations.DeskPurchaseChecksThenFills := by
  unfold Obligations.DeskPurchaseChecksThenFills
  refine ⟨fun n i k j price rest r l s hm hring h hp hA hB hi hk hvalid hserve hfull hslot hlive hfree hprice hcredit hl hj hroom =>
      deskPurchase_fills hm hring h hp hA hB hi hk (purchaseRefusal_none hvalid ((purchasable_iff s k).2 hslot)
        (recordRefusal_none hserve hfull hlive hfree (hprice ▸ hcredit))) hfree hprice hcredit hl hj hroom,
    fun n i k e rest r l s hm h hp hA hB hl hj he => ?_⟩
  by_cases hindex : 4096 ≤ i ∨ 7 < k
  · rw [if_pos hindex] at he
    subst he
    obtain ⟨u, hexec, hshows, hkept, hpart, hframe⟩ := request_fails (r := .deskPurchase) (e := .badIndex) hm h
      (by rw [hp]; rfl) (readAfter_self n s) (deskPurchase_index (by rwa [argA_handedOver, argB_handedOver, hA, hB]))
    exact ⟨u, hexec, hshows, fun _ => hkept, fun h => (by cases h), fun _ => by rw [hframe], fun h => (by cases h), hpart,
      by rw [hframe]⟩
  · rw [if_neg hindex] at he
    exact deskPurchase_refuses hm h hp hA hB hindex hl hj (purchaseRefusal_code he)

end Sys2Proof.Machine


/-! ## CANCEL_PURCHASE (R156) -/

namespace Sys2Proof.Machine

variable {s t u v b : State} {n i k j : Nat} {rest : List Nat}

/-- The state in which the refund is recorded. -/
def refunded (i k : Nat) (b : State) : State :=
  journalAppend .refund (purchaseWords i k (slotEvent b k) (armedOf b k).price sourceDesk 0) (journalTaken b)

theorem refunded_kept (hring : RingLaw b) (i k : Nat) : KeptOutside ringPlace b (refunded i k b) :=
  journalAppend_kept (s := journalTaken b) hring _ (Nat.le_refl _)

theorem refunded_wf (hm : MemWf b.mem) (i k : Nat) : MemWf (refunded i k b).mem := journalAppend_wf _ _ (journalTaken b) hm

theorem refunded_frame (i k : Nat) (b : State) : refunded i k b = { b with
    mem := (refunded i k b).mem, port := (refunded i k b).port, writer := (refunded i k b).writer } := by
  rw [refunded, journalAppend_frame, journalTaken]
  rfl

theorem refunded_writer {r : RingCopy} (hr : b.writer.journal = some r) (i k : Nat) : (refunded i k b).writer = { b.writer with
    journal := some { head := (r.head + 1) % 1024, tail := r.tail, sequence := nextSequence r.sequence }, taken := false } :=
  journalAppend_writer (show (journalTaken b).writer.journal = some r from hr) _ _

theorem journalAt_refunded {r : RingCopy} (hm : MemWf b.mem) (hr : b.writer.journal = some r) (i k : Nat) :
    JournalAt r.head r.sequence 2 (purchaseWords i k (slotEvent b k) (armedOf b k).price sourceDesk 0) b (refunded i k b) :=
  (journalAt_journalAppend (s := journalTaken b) hm hr .refund (Nat.le_refl _)).of_clock rfl

/-- The PPV spent of a record after a refund. -/
def spentAfter (i k : Nat) (b : State) : Nat := (subRd b i 13).toNat - min (armedOf b k).price (subRd b i 13).toNat

/-- The entry and the PPV spent of a record after a refund. -/
def refundWords (i k j : Nat) (b : State) : List (Nat × Word) :=
  [(subscriberWord i (14 + 2 * j), purchaseWord false (purchaseAt b i j).slot), (subscriberWord i 13, wordOf (spentAfter i k b))]

/-- The state in which the purchase is cancelled. -/
def cancelled (i k j : Nat) (b : State) : State :=
  setSlotTotals k ((rd b (slotWord k 8)).toNat - 1) (rdPair b (slotWord k 9) - (armedOf b k).price)
    (wrHeld (refunded i k b) (refundWords i k j b))

theorem refundWords_places (i k j : Nat) (b : State) :
    (refundWords i k j b).map Prod.fst = [14 + 2 * j, 13].map (subscriberWord i) := rfl

theorem slotWord_not_refunded {i w : Nat} (hk : k ≤ 7) (hw : w < 16) (j : Nat) (b : State) :
    slotWord k w ∉ (refundWords i k j b).map Prod.fst := by
  rw [refundWords_places]
  intro h
  obtain ⟨x, -, hx⟩ := List.mem_map.1 h
  unfold slotWord subscriberWord at hx
  omega

theorem refundHeld_slotRd (hring : RingLaw b) {i w : Nat} (hk : k ≤ 7) (hw : w < 16) (j : Nat) :
    rd (wrHeld (refunded i k b) (refundWords i k j b)) (slotWord k w) = rd b (slotWord k w) :=
  (wrHeld_wordsKept _ (refunded i k b) _ (slotWord_not_refunded hk hw j b)).trans
    (refunded_kept hring i k _ (ringPlace_slotWord (by omega) hw))

theorem cancelEntry_eq (hring : RingLaw b) (hk : k ≤ 7) (i j : Nat) :
    cancelEntry i k j (journalTaken b) = cancelled i k j b := by
  have hsub (w : Nat) : subRd (refunded i k b) i w = subRd b i w := refunded_kept hring i k _ (ringPlace_subscriberWord i w)
  have hentry : purchaseAt (refunded i k b) i j = purchaseAt b i j := by
    unfold purchaseAt
    rw [hsub, hsub]
  have hcount := refundHeld_slotRd (i := i) hring hk (w := 8) (by decide) j
  have hrevenue : rdPair (wrHeld (refunded i k b) (refundWords i k j b)) (slotWord k 9) = rdPair b (slotWord k 9) :=
    rdPair_congr (refundHeld_slotRd hring hk (by decide) j) (refundHeld_slotRd hring hk (w := 10) (by decide) j)
  have hfold : cancelEntry i k j (journalTaken b) =
      setSlotTotals k ((rd (wrHeld (refunded i k b) [unmarkedEntry (refunded i k b) i j, (subscriberWord i 13,
          wordOf ((subRd (refunded i k b) i 13).toNat - min (armedOf b k).price (subRd (refunded i k b) i 13).toNat))])
          (slotWord k 8)).toNat - 1)
        (rdPair (wrHeld (refunded i k b) [unmarkedEntry (refunded i k b) i j, (subscriberWord i 13,
          wordOf ((subRd (refunded i k b) i 13).toNat - min (armedOf b k).price (subRd (refunded i k b) i 13).toNat))])
          (slotWord k 9) - (armedOf b k).price)
        (wrHeld (refunded i k b) [unmarkedEntry (refunded i k b) i j, (subscriberWord i 13,
          wordOf ((subRd (refunded i k b) i 13).toNat - min (armedOf b k).price (subRd (refunded i k b) i 13).toNat))]) := rfl
  rw [hfold, unmarkedEntry, hentry, hsub]
  rw [refundWords, spentAfter] at hcount hrevenue
  rw [hcount, hrevenue]
  rfl

theorem cancelled_frame (i k j : Nat) (b : State) : cancelled i k j b = { b with
    mem := (cancelled i k j b).mem, port := (cancelled i k j b).port, writer := (refunded i k b).writer } := by
  rw [cancelled, setSlotTotals_frame, wrHeld_frame, refunded_frame]

theorem cancelled_wf (hm : MemWf b.mem) (i k j : Nat) : MemWf (cancelled i k j b).mem :=
  setSlotTotals_wf _ _ _ (wrHeld_wf _ _ (refunded_wf hm i k))

theorem cancelled_kept (hring : RingLaw b) (i k j : Nat) :
    KeptOutside (withRings ([13, 14 + 2 * j].map (subscriberWord i) ++ [8, 9, 10].map (slotWord k))) b (cancelled i k j b) := by
  have hheld : WordsKept ([14 + 2 * j, 13].map (subscriberWord i)) (refunded i k b)
      (wrHeld (refunded i k b) (refundWords i k j b)) := fun a ha =>
    wrHeld_wordsKept (refundWords i k j b) (refunded i k b) a (by rw [refundWords_places]; exact ha)
  refine ((refunded_kept hring i k).withRings.trans (hheld.withRings ?_)).trans
    ((setSlotTotals_kept k _ _ _).withRings (List.subset_append_right _ _))
  exact List.Subset.trans (List.map_subset _ fun x hx => by simp at hx ⊢; tauto) (List.subset_append_left _ _)

theorem rd_cancelled_high {a : Nat} (hk : k ≤ 7) (ha : 0x120 ≤ a) (i j : Nat) :
    rd (cancelled i k j b) a = rd (wrHeld (refunded i k b) (refundWords i k j b)) a :=
  setSlotTotals_kept k _ _ _ a fun h => by
    have := slotPlace_lt hk (ws := [8, 9, 10]) (by decide) h
    omega

theorem rd_cancelled_refund (hm : MemWf b.mem) (hk : k ≤ 7) {w : Nat} {x : Word}
    (h : (subscriberWord i w, x) ∈ refundWords i k j b) : subRd (cancelled i k j b) i w = x := by
  refine (rd_cancelled_high hk (by unfold subscriberWord; omega) i j).trans ?_
  rw [rd_wrHeld]
  refine rd_wrAll_mem (refunded_wf hm i k) ?_ h
  rw [refundWords_places]
  exact subscriberWords_nodup i (by simp; omega)

theorem journalAt_cancelled {r : RingCopy} (hm : MemWf b.mem) (hring : RingLaw b) (hr : b.writer.journal = some r) (hk : k ≤ 7)
    (i j : Nat) : JournalAt r.head r.sequence 2 (purchaseWords i k (slotEvent b k) (armedOf b k).price sourceDesk 0) b
      (cancelled i k j b) := by
  have hhead : r.head < 1024 := (hring.1 .journal r hr).1
  refine (journalAt_refunded hm hr i k).congr (fun w hw => ?_) (Nat.le_refl _)
  refine (rd_cancelled_high hk (by unfold journalWord; omega) i j).trans
    (wrHeld_wordsKept _ (refunded i k b) _ fun h => ?_)
  rw [refundWords_places] at h
  obtain ⟨x, -, hx⟩ := List.mem_map.1 h
  unfold journalWord subscriberWord at hx
  omega

theorem rdPair_lt (s : State) (a : Nat) : rdPair s a < 4294967296 := by
  have h₁ := (rd s a).isLt
  have h₂ := (rd s (a + 1)).isLt
  unfold rdPair pairValue
  omega

theorem cancelled_totals (hm : MemWf b.mem) (i k j : Nat) :
    rd (cancelled i k j b) (slotWord k 8) = wordOf ((rd b (slotWord k 8)).toNat - 1) ∧
      rdPair (cancelled i k j b) (slotWord k 9) = rdPair b (slotWord k 9) - (armedOf b k).price := by
  obtain ⟨hcount, hrevenue⟩ := totals_setSlotTotals (wrHeld_wf _ (refundWords i k j b) (refunded_wf hm i k)) k
    ((rd b (slotWord k 8)).toNat - 1) (rdPair b (slotWord k 9) - (armedOf b k).price)
  have hlt := rdPair_lt b (slotWord k 9)
  exact ⟨hcount, hrevenue.trans (Nat.mod_eq_of_lt (by omega))⟩

/-! The request. -/

theorem livePlaceOf_spec (h : livePlaceOf s i k = some j) : j < 4 ∧ (purchaseAt s i j).slot = k := by
  have hmem := List.mem_of_find?_eq_some h
  have hlive := List.find?_some h
  rw [Bool.and_eq_true, decide_eq_true_eq] at hlive
  exact ⟨mem_purchasePlaces.1 hmem, hlive.2⟩

theorem readOver_sees (hn : n < 8) (s : State) : SeesAs s (readOver n s) := (SeesAs.handedOver hn s).trans (SeesAs.partRead _)

theorem cancelPurchase_badIndex (h : 4096 ≤ argA (partRead s) n ∨ 7 < argB (partRead s) n) :
    cancelPurchase n s = endFailed n .badIndex (partRead s) := if_pos h

theorem cancelPurchase_notInUse (h : ¬(subscriberCount ≤ argA (partRead s) n ∨ 7 < argB (partRead s) n))
    (hu : inUse (partRead s) (argA (partRead s) n) = false) : cancelPurchase n s = endFailed n .notInUse (partRead s) := by
  unfold cancelPurchase
  dsimp only
  rw [if_neg h, if_pos hu]

theorem cancelPurchase_notPurchasable (h : ¬(subscriberCount ≤ argA (partRead s) n ∨ 7 < argB (partRead s) n))
    (hu : inUse (partRead s) (argA (partRead s) n) = true)
    (hp : slotState (partRead s) (argB (partRead s) n) ≠ .open ∨
      livePlaceOf (partRead s) (argA (partRead s) n) (argB (partRead s) n) = none) :
    cancelPurchase n s = endFailed n .notPurchasable (partRead s) := by
  unfold cancelPurchase
  dsimp only
  rw [if_neg h, if_neg (by simp [hu])]
  split
  · next j hst hlive =>
    rw [hst, hlive] at hp
    exact absurd hp (by simp)
  · rfl

theorem cancelPurchase_room {r l : RingCopy} (h : ¬(subscriberCount ≤ argA (partRead s) n ∨ 7 < argB (partRead s) n))
    (hu : inUse (partRead s) (argA (partRead s) n) = true) (hst : slotState (partRead s) (argB (partRead s) n) = .open)
    (hlive : livePlaceOf (partRead s) (argA (partRead s) n) (argB (partRead s) n) = some j)
    (hl : s.writer.log = some l) (hj : s.writer.journal = some r) (hroom : ringFull .journal r = false) :
    cancelPurchase n s =
      endDone n r.sequence (cancelEntry (argA (partRead s) n) (argB (partRead s) n) j (journalTaken s)) := by
  have hseq : journalSequence (journalTaken s) = r.sequence := by
    have hj' : (journalTaken s).writer.journal = some r := hj
    simp only [journalSequence, hj']
  unfold cancelPurchase
  dsimp only
  rw [if_neg h, if_neg (by simp [hu]), hst, hlive, takeJournal_room hl hj hroom]
  dsimp only
  rw [hseq]

theorem cancelPurchase_full {r l : RingCopy} (h : ¬(subscriberCount ≤ argA (partRead s) n ∨ 7 < argB (partRead s) n))
    (hu : inUse (partRead s) (argA (partRead s) n) = true) (hst : slotState (partRead s) (argB (partRead s) n) = .open)
    (hlive : livePlaceOf (partRead s) (argA (partRead s) n) (argB (partRead s) n) = some j)
    (hl : s.writer.log = some l) (hj : s.writer.journal = some r) (hfull : ringFull .journal r = true) :
    cancelPurchase n s = endFailed n .journalFull (reportCondition .journalFull (partRead s)) := by
  unfold cancelPurchase
  dsimp only
  rw [if_neg h, if_neg (by simp [hu]), hst, hlive, takeJournal_full hl hj hfull]

theorem exec_cancelPurchase (h : AtHead .cancelPurchase n rest s) (hp : s.part.state = .serving) :
    exec .cancelPurchase s = .next (concluded s (cancelPurchase n (handedOver n s))) :=
  exec_request (r := .cancelPurchase) h (by rw [hp]; rfl)

/-- Settles O30: the refund by its writes in turn, and the first test that fails. -/
theorem cancelPurchaseRefunds : Obligations.CancelPurchaseRefunds := by
  unfold Obligations.CancelPurchaseRefunds
  refine ⟨fun n i k j price rest r l s hm hring h hp hA hB hi hk huse hst hlive hprice hl hj hroom => ?_,
    fun n i k e rest r l s hm h hp hA hB hl hj he => ?_⟩
  · have ⟨_, hq, hn, _⟩ := h
    have hsees := SeesAs.handedOver hn s
    have hread := readOver_sees hn s
    have hargA : argA (partRead (handedOver n s)) n = i := (argA_handedOver n s).trans hA
    have hargB : argB (partRead (handedOver n s)) n = k := (argB_handedOver n s).trans hB
    have hringb : RingLaw (handedOver n s) := ringLaw_of_writer hring (handedOver_writer n s)
    have hmb := handedOver_wf n hm
    have hdone : cancelPurchase n (handedOver n s) = endDone n r.sequence (cancelled i k j (handedOver n s)) := by
      have hdone := cancelPurchase_room (n := n) (s := handedOver n s) (j := j) (l := l) (r := r)
      rw [hargA, hargB, cancelEntry_eq hringb hk] at hdone
      exact hdone (by unfold subscriberCount; omega) ((hread.inUse i).trans huse) ((hread.slotState k).trans hst)
        ((hread.livePlaceOf i k).trans hlive) hl hj hroom
    have hexec := exec_cancelPurchase h hp
    rw [hdone] at hexec
    refine ⟨_, hexec, ?_⟩
    obtain ⟨hj4, hslot⟩ := livePlaceOf_spec hlive
    have hjournal := journalAt_cancelled (b := handedOver n s) (r := r) hmb hringb hj hk i j
    obtain ⟨hcount, hrevenue⟩ := cancelled_totals hmb i k j
    have hkept := cancelled_kept hringb i k j
    have hwf := cancelled_wf hmb i k j
    have hframe := cancelled_frame i k j (handedOver n s)
    have hrefund {w : Nat} {x : Word} (hx : (subscriberWord i w, x) ∈ refundWords i k j (handedOver n s)) :=
      rd_cancelled_refund hmb hk hx
    rw [refunded_writer (b := handedOver n s) (r := r) hj] at hframe
    rw [hsees.slotEvent, hsees.armedOf, ← hprice] at hjournal
    rw [hsees.slotRd] at hcount
    rw [hsees.slotPair, hsees.armedOf, ← hprice] at hrevenue
    have hspent : spentAfter i k (handedOver n s) = (subRd s i 13).toNat - price := by
      rw [spentAfter, hsees.subRd, hsees.armedOf, ← hprice]
      omega
    rw [refundWords, hspent, hsees.purchaseAt, hslot] at hrefund
    generalize cancelled i k j (handedOver n s) = v at *
    have hrd (a : Nat) (ha : a ∉ slotWords n) : rd (endDone n r.sequence v) a = rd v a := rd_done ha r.sequence
    have hsubrd (x : Nat) : subRd (endDone n r.sequence v) i x = subRd v i x := hrd _ (subscriberWord_not_slotWords hn)
    have hcode : requestWord n 0 ∉ [13, 14 + 2 * j].map (subscriberWord i) ++ [8, 9, 10].map (slotWord k) := by
      rw [List.mem_append]
      rintro (h | h)
      · obtain ⟨x, -, hx⟩ := List.mem_map.1 h
        unfold requestWord subscriberWord at hx
        omega
      · exact requestWord_not_slotPlaces hn k _ h
    obtain ⟨hshows, hresult, hkept', hpart⟩ := request_done hm hn hq hwf (by rw [hframe]) hcode hkept r.sequence
    refine ⟨?_, ?_, (hrd _ (slotWord_not_slotWords hn)).trans hcount,
      (rdPair_congr (hrd _ (slotWord_not_slotWords hn)) (hrd (slotWord k 10) (slotWord_not_slotWords hn))).trans hrevenue,
      ?_, ?_, hshows, hresult, by rw [List.append_assoc]; exact hkept', hpart, ?_⟩
    · show (subRd (endDone n r.sequence v) i (14 + 2 * j)).getLsbD 15 = false
      rw [hsubrd, hrefund List.mem_cons_self]
      exact (purchaseWord_field (by omega) false).1
    · rw [hsubrd, hrefund (w := 13) (List.mem_cons_of_mem _ List.mem_cons_self)]
      exact wordOf_toNat (by have := (subRd s i 13).isLt; omega)
    · exact (hjournal.of_clock (handedOver_clock n s)).congr (fun w _ => hrd _ (fun hmem => by
        have := slotWords_place hn hmem
        unfold journalWord at this
        omega)) (Nat.le_refl _)
    · rw [endDone_writer, hframe]
    · rw [endDone_frame, hframe]
      rfl
  · have ⟨hs, hq, hn, _⟩ := h
    have hread := readOver_sees hn s
    have hargA : argA (partRead (handedOver n s)) n = i := (argA_handedOver n s).trans hA
    have hargB : argB (partRead (handedOver n s)) n = k := (argB_handedOver n s).trans hB
    have hfails (f : RequestError) (hf : f.code = e) (hne : e ≠ 18)
        (ho : cancelPurchase n (handedOver n s) = endFailed n f (partRead (handedOver n s))) :
        ∃ u, exec .cancelPurchase s = .next (concluded s u) ∧ SlotShows n 4 e s u ∧ WordsKept [requestWord n 0] s u ∧
          (e ≠ 18 → u.flags = s.flags) ∧ (e = 18 → u.flags = s.flags ||| 0x1000) ∧ u.part = afterRequest n rest s.part ∧
          u = { s with mem := u.mem, port := u.port, part := u.part, flags := u.flags } := by
      subst hf
      obtain ⟨u, hexec, hshows, hkept, hpart, hframe⟩ := request_fails (r := .cancelPurchase) hm h (by rw [hp]; rfl)
        (readAfter_partRead n s) ho
      exact ⟨u, hexec, hshows, hkept, fun _ => by rw [hframe], fun h => absurd h hne, hpart, by rw [hframe]⟩
    by_cases hindex : 4096 ≤ i ∨ 7 < k
    · rw [if_pos hindex] at he
      exact hfails .badIndex he.symm (by omega) (cancelPurchase_badIndex (by rwa [hargA, hargB]))
    rw [if_neg hindex] at he
    have hin : ¬(subscriberCount ≤ argA (partRead (handedOver n s)) n ∨ 7 < argB (partRead (handedOver n s)) n) := by
      rw [hargA, hargB]
      exact hindex
    by_cases huse : inUse s i = false
    · rw [if_pos huse] at he
      exact hfails .notInUse he.symm (by omega) (cancelPurchase_notInUse hin (by rw [hargA]; exact (hread.inUse i).trans huse))
    rw [if_neg huse] at he
    have huse' : inUse (partRead (handedOver n s)) (argA (partRead (handedOver n s)) n) = true := by
      rw [hargA]
      exact (hread.inUse i).trans (by simpa using huse)
    by_cases hbuy : slotState s k ≠ .open ∨ livePlaceOf s i k = none
    · rw [if_pos hbuy] at he
      refine hfails .notPurchasable he.symm (by omega) (cancelPurchase_notPurchasable hin huse' ?_)
      rw [hargA, hargB]
      exact hbuy.imp (fun h => (hread.slotState k).symm ▸ h) fun h => (hread.livePlaceOf i k).trans h
    rw [if_neg hbuy] at he
    obtain ⟨hfull, rfl⟩ := he
    rw [not_or, not_ne_iff] at hbuy
    obtain ⟨j, hlive⟩ := Option.ne_none_iff_exists'.1 hbuy.2
    have hdone := cancelPurchase_full (n := n) (s := handedOver n s) (j := j) hin huse'
      (by rw [hargB]; exact (hread.slotState k).trans hbuy.1)
      (by rw [hargA, hargB]; exact (hread.livePlaceOf i k).trans hlive) hl hj hfull
    have hexec := exec_cancelPurchase h hp
    have hrefused := refused_full (b := handedOver n s) ((started_iff s).1 hs).2 i
    rw [hdone] at hexec
    obtain ⟨hshows, hwords, hflags, hpart, hframe⟩ := request_failed .journalFull hm hq (hrefused.wf (handedOver_wf n hm))
      hrefused.frame (ws := []) (fun a _ => rd_congr (hrefused.same (by decide)) a) List.not_mem_nil
    exact ⟨_, hexec, hshows, hwords, fun h => absurd rfl h, fun _ => hflags.trans (hrefused.full rfl), hpart, hframe⟩

end Sys2Proof.Machine


/-! ## CLOSE_NOW (R161, R162) -/

namespace Sys2Proof.Machine

variable {s t u v b : State} {n i k j : Nat} {rest : List Nat}

/-- The close control words of a close that begins. -/
def beginWords (number : Nat) : List (Nat × Word) :=
  [(closeNumberWord, wordOf number), (closeCursorWord, wordOf 0), (closeStatusWord, wordOf CloseStatus.closing.code)]

/-- The Close Engine when a close begins. -/
def begunClose (bound : Option Nat) (number : Nat) (c : CloseEngine) : CloseEngine :=
  { c with copy := some { status := .closing, cursor := 0, number := number }, bound := bound, statements := 0, resumed := false
           stalled := false }

/-- The state in which a close has begun and is not logged yet. -/
def closeBegun (bound : Option Nat) (number : Nat) (s : State) : State :=
  { wrAll s (beginWords number) with close := begunClose bound number s.close }

theorem closeBegun_mem (bound : Option Nat) (number : Nat) (s : State) :
    (closeBegun bound number s).mem = (wrAll s (beginWords number)).mem := rfl

theorem closeBegun_frame (bound : Option Nat) (number : Nat) (s : State) : closeBegun bound number s = { s with
    mem := (closeBegun bound number s).mem, port := (closeBegun bound number s).port
    close := begunClose bound number s.close } := by
  rw [closeBegun, wrAll_frame]

theorem closeNumber_of_copy {c : CloseCopy} (h : s.close.copy = some c) : closeNumber s = c.number := by
  simp only [closeNumber, h]

theorem closeStatus_of_copy {c : CloseCopy} (h : s.close.copy = some c) : closeStatus s = c.status := by
  simp only [closeStatus, h]

/-- R162 steps 1 and 2: the number, the cursor and the status of a close that begins. -/
theorem closeBegun_eq {c : CloseCopy} (h : s.close.copy = some c) (bound : Option Nat) (number : Nat) :
    setCloseStatus .closing (setCloseCursor 0 (setCloseNumber number
      { s with close := { s.close with statements := 0, resumed := false, stalled := false, bound := bound } })) =
      closeBegun bound number s := by
  simp only [setCloseNumber, h, setCloseCursor, setCloseStatus, closeBegun, begunClose, beginWords, wrAll, wr, grantPort]

theorem beginClose_slot {c : CloseCopy} (h : s.close.copy = some c) (slot : Nat) : beginClose (some slot) s =
    logAppend .closeBegin (nextCloseNumber c.number) 1 slot 0 (closeBegun (some slot) (nextCloseNumber c.number) s) := by
  unfold beginClose
  dsimp only
  rw [closeNumber_of_copy h, closeBegun_eq h]

theorem beginClose_alarm {c : CloseCopy} (h : s.close.copy = some c) : beginClose none s =
    logAppend .closeBegin (nextCloseNumber c.number) 0 0xFFFF 0 (closeBegun none (nextCloseNumber c.number) s) := by
  unfold beginClose
  dsimp only
  rw [closeNumber_of_copy h, closeBegun_eq h]

theorem beginWords_places (number : Nat) : (beginWords number).map Prod.fst = [0x128, 0x127, 0x126] := rfl

theorem rd_closeBegun (hm : MemWf s.mem) {number a : Nat} {w : Word} (h : (a, w) ∈ beginWords number) (bound : Option Nat) :
    rd (closeBegun bound number s) a = w := by
  rw [rd_congr (closeBegun_mem bound number s)]
  exact rd_wrAll_mem hm (by rw [beginWords_places]; decide) h

theorem closeBegun_wf (hm : MemWf s.mem) (bound : Option Nat) (number : Nat) : MemWf (closeBegun bound number s).mem := by
  rw [closeBegun_mem]
  exact wrAll_wf _ _ hm

theorem closeBegun_kept (bound : Option Nat) (number : Nat) (s : State) :
    WordsKept [0x128, 0x127, 0x126] s (closeBegun bound number s) := fun a ha =>
  (rd_congr (closeBegun_mem bound number s) a).trans (wrAll_wordsKept _ _ a (by rw [beginWords_places]; exact ha))

theorem slotShows_handedOver (hm : MemWf s.mem) : SlotShows n 2 0 s (handedOver n s) :=
  (slotShows_of_codeWord (s := popRequest s) (e := .ok) (by decide) (rd_writeRequestStatus_same n statusInProgress .ok hm))

theorem SlotShows.of_word {status error : Nat} (h : SlotShows n status error s t)
    (hk : rd u (requestWord n 0) = rd t (requestWord n 0)) : SlotShows n status error s u := by
  simpa only [SlotShows, requestCode, requestStatus, hk] using h

/-- Settles O31: the close begins by its writes in turn, or the request ends BUSY. -/
theorem closeNowBeginsAClose : Obligations.CloseNowBeginsAClose := by
  unfold Obligations.CloseNowBeginsAClose
  intro n c rest s hm hring h hp hcopy
  have ⟨hs, hq, hn, _⟩ := h
  have hexec : exec .closeNow s = .next (concluded s (closeNow n (handedOver n s))) :=
    exec_request (r := .closeNow) h (allowed_of_planned (by decide) hs hp)
  have hstatus : closeStatus (handedOver n s) = c.status := closeStatus_of_copy hcopy
  refine ⟨fun hidle => ?_, fun hclosing => ?_⟩
  · have hdone : closeNow n (handedOver n s) = logAppend .closeBegin (nextCloseNumber c.number) 1 n 0
        (closeBegun (some n) (nextCloseNumber c.number) (stayInProgress n .closeNow (handedOver n s))) := by
      have hbegin := beginClose_slot (s := stayInProgress n .closeNow (handedOver n s)) hcopy n
      unfold closeNow
      rw [hstatus, hidle]
      exact hbegin
    rw [hdone] at hexec
    refine ⟨_, hexec, ?_⟩
    have hmb : MemWf (stayInProgress n .closeNow (handedOver n s)).mem := handedOver_wf n hm
    have hframe := closeBegun_frame (some n) (nextCloseNumber c.number) (stayInProgress n .closeNow (handedOver n s))
    have hrd {a : Nat} {w : Word} (ha : (a, w) ∈ beginWords (nextCloseNumber c.number)) :=
      rd_closeBegun hmb ha (some n)
    have hwf := closeBegun_wf hmb (some n) (nextCloseNumber c.number)
    have hkept : WordsKept [0x128, 0x127, 0x126] (handedOver n s) _ :=
      closeBegun_kept (some n) (nextCloseNumber c.number) (stayInProgress n .closeNow (handedOver n s))
    generalize closeBegun (some n) (nextCloseNumber c.number) (stayInProgress n .closeNow (handedOver n s)) = v at *
    have hw : v.writer = s.writer := by rw [hframe]; rfl
    have hc : v.clock = s.clock := by rw [hframe]; rfl
    have hlog := logAppend_kept (ringLaw_of_writer hring hw) .closeBegin (nextCloseNumber c.number) 1 n 0
    have hlframe := logAppend_frame .closeBegin (nextCloseNumber c.number) 1 n 0 v
    have hlogged := logged_logAppend (k := .closeBegin) (x := nextCloseNumber c.number) (a := 1) (b := n) (c := 0) hwf hring hw hc
      (fun _ _ => rfl) rfl
    have hplace (a : Nat) (ha : a ∈ [0x126, 0x127, 0x128]) : ringPlace a = false := by
      rw [ringPlace_eq_false_iff]
      simp at ha
      omega
    have hcode : requestWord n 0 ∉ [0x128, 0x127, 0x126] := by
      unfold requestWord
      simp
      omega
    refine ⟨by rw [hlframe, hframe]; rfl, 
      (hlog _ (hplace _ (by decide))).trans (hrd (List.mem_cons_of_mem _ (List.mem_cons_of_mem _ List.mem_cons_self))),
      (hlog _ (hplace _ (by decide))).trans (hrd (List.mem_cons_of_mem _ List.mem_cons_self)),
      (hlog _ (hplace _ (by decide))).trans (hrd List.mem_cons_self), hlogged,
      (slotShows_handedOver hm).of_word ((hlog _ (ringPlace_requestWord hn (by decide))).trans (hkept _ hcode)), ?_, ?_, ?_⟩
    · refine (((wordsKept_handedOver n s).withRings (by simp)).trans (hkept.withRings fun x hx => ?_)).trans hlog.withRings
      simp at hx ⊢
      tauto
    · rw [hlframe, hframe]
      show ({ s.part with queue := s.part.queue.drop 1, inProgress := _ } : Part) = _
      rw [hq]
      rfl
    · rw [hlframe, hframe]
      rfl
  · refine request_fails (r := .closeNow) (e := .busy) hm h (allowed_of_planned (by decide) hs hp) (readAfter_self n s) ?_
    show closeNow n (handedOver n s) = endFailed n .busy (handedOver n s)
    unfold closeNow
    rw [hstatus, hclosing]

end Sys2Proof.Machine


/-! ## The end of QUIESCE, and the status word (R32, R66, 12.8) -/

namespace Sys2Proof.Machine

variable {s t u v b : State} {n i k j : Nat} {rest : List Nat}

/-! Requests that end together. -/

/-- Slots that end one after another: each shows its end, when each end keeps the code of every slot. -/
theorem foldl_shows {f : State → Nat → State} {status error : Nat} {p : State → Nat → Prop} (hwf : ∀ v m, MemWf v.mem → MemWf (f v m).mem)
    (hshow : ∀ v m, MemWf v.mem → SlotShows m status error v (f v m) ∧ p (f v m) m)
    (hother : ∀ v m m', MemWf v.mem → m' ≠ m →
      rd (f v m) (requestWord m' 0) = rd v (requestWord m' 0) ∧ (p v m' → p (f v m) m'))
    {l : List Nat} : ∀ {s : State}, MemWf s.mem →
      (∀ m, m ∈ l → SlotShows m status error s (l.foldl f s) ∧ p (l.foldl f s) m) ∧
      (∀ m, m ∉ l → rd (l.foldl f s) (requestWord m 0) = rd s (requestWord m 0) ∧ (p s m → p (l.foldl f s) m)) := by
  induction l with
  | nil => exact fun _ => ⟨fun _ h => absurd h List.not_mem_nil, fun _ _ => ⟨rfl, id⟩⟩
  | cons n l ih =>
    intro s hm
    obtain ⟨hin, hout⟩ := ih (hwf s n hm)
    obtain ⟨hn, hpn⟩ := hshow s n hm
    refine ⟨fun m hmem => ?_, fun m hmem => ?_⟩
    · by_cases hl : m ∈ l
      · obtain ⟨⟨hcode, hrest⟩, hp⟩ := hin m hl
        refine ⟨⟨hcode.trans ?_, hrest⟩, hp⟩
        by_cases hmn : m = n
        · rw [hmn]
          exact hn.1
        · exact congrArg (field · 0 8) (hother s n m hm hmn).1
      · obtain rfl := (List.mem_cons.1 hmem).resolve_right hl
        obtain ⟨hword, hp⟩ := hout m hl
        exact ⟨hn.of_word hword, hp hpn⟩
    · obtain ⟨hmn, hl⟩ := not_or.1 (mt List.mem_cons.2 hmem)
      obtain ⟨hword, hp⟩ := hout m hl
      obtain ⟨hword', hp'⟩ := hother s n m hm hmn
      exact ⟨hword.trans hword', fun h => hp (hp' h)⟩

theorem requestWord_not_slotWords {m n : Nat} {w : Nat} (hw : w < 4) (h : m ≠ n) : requestWord m w ∉ slotWords n := by
  simp only [slotWords, requestWord, List.mem_cons, List.not_mem_nil, or_false]
  omega

/-- R29: each of the slots that end DONE shows it, with the result. -/
theorem endQuiesces_shows (hm : MemWf s.mem) (result : Nat) (l : List Nat) :
    ∀ m, m ∈ l → SlotShows m 3 0 s (l.foldl (fun t n => endDone n result t) s) ∧
      rd (l.foldl (fun t n => endDone n result t) s) (requestWord m 3) = wordOf result :=
  (foldl_shows (f := fun t n => endDone n result t) (p := fun v m => rd v (requestWord m 3) = wordOf result)
    (fun _ m hv => endDone_wf m result _ hv) (fun v m hv => ⟨slotShows_endDone m result hv, rd_endDone_result m result hv⟩)
    (fun _ _ _ _ hne => ⟨rd_done (requestWord_not_slotWords (by decide) hne) result, fun h =>
      (rd_done (requestWord_not_slotWords (by decide) hne) result).trans h⟩) hm).1

theorem endQuiesces_kept (result : Nat) (l : List Nat) :
    ∀ s, WordsKept (l.flatMap slotWords) s (l.foldl (fun t n => endDone n result t) s) := by
  induction l with
  | nil => exact fun s => WordsKept.refl s
  | cons n l ih =>
    intro s a ha
    rw [List.flatMap_cons, List.mem_append, not_or] at ha
    exact (ih _ a ha.2).trans (rd_done ha.1 result)

theorem endQuiesces_part (result : Nat) (l : List Nat) : ∀ s : State,
    (l.foldl (fun t n => endDone n result t) s).part =
      { s.part with inProgress := (l.foldl (fun t n => endDone n result t) s).part.inProgress } := by
  induction l with
  | nil => exact fun _ => rfl
  | cons n l ih =>
    intro s
    rw [List.foldl_cons, ih, endDone_frame]

theorem endQuiesces_eq (result : Nat) (l : List Nat) (s : State) :
    l.foldl (fun t n => endDone n result t) s = { s with
      mem := (l.foldl (fun t n => endDone n result t) s).mem, port := (l.foldl (fun t n => endDone n result t) s).port
      part := { s.part with inProgress := s.part.inProgress.filter fun p => decide (p.1 ∉ l) } } := by
  rw [← endQuiesces_inProgress result l s, ← endQuiesces_part]
  exact endQuiesces_frame result l s

theorem endDone_port (h : PortIdle s) (n result : Nat) : (endDone n result s).port = { s.port with last := some .part } := by
  have hport : (endDone n result s).port = (partRead (partRead s)).port := rfl
  rw [hport, partRead_eq (partRead_idle s), partRead_eq h]

theorem endQuiesces_port (result : Nat) (l : List Nat) : ∀ {s : State}, PortIdle s →
    (l.foldl (fun t n => endDone n result t) s).port = if l = [] then s.port else { s.port with last := some .part } := by
  induction l with
  | nil => exact fun _ => rfl
  | cons n l ih =>
    intro s h
    have hidle : PortIdle (endDone n result s) := wr_idle _ _ _
    rw [if_neg (List.cons_ne_nil n l), List.foldl_cons, ih hidle, endDone_port h]
    split <;> rfl

/-- R32: the part at rest: QUIESCED, with every QUIESCE ended. -/
def rested (s : State) : State :=
  (quiesceSlots s).foldl (fun t n => endDone n s.order.held t) { s with part := { s.part with state := .quiesced } }

theorem rested_frame (s : State) : rested s = { s with
    mem := (rested s).mem, port := (rested s).port
    part := { s.part with
      state := .quiesced, inProgress := s.part.inProgress.filter fun p => decide (p.1 ∉ quiesceSlots s) } } := by
  rw [rested, endQuiesces_eq]

theorem settle_eq_rested (h : comesToRest s) : settle s = rested s := by
  have hquiet : quietTest s = rested s := if_pos h
  have hstate : (rested s).part.state = .quiesced := by rw [rested_frame]
  rw [settle, hquiet, arbiterDecide, if_neg fun c => by rw [hstate] at c; exact absurd c.2.1 (by decide)]

theorem mem_quiesceSlots (s : State) (m : Nat) : m ∈ quiesceSlots s ↔ (m, .quiesce) ∈ s.part.inProgress := by
  simp [quiesceSlots]

theorem rested_shows (hm : MemWf s.mem) {m : Nat} (h : (m, .quiesce) ∈ s.part.inProgress) :
    SlotShows m 3 0 s (rested s) ∧ rd (rested s) (requestWord m 3) = wordOf s.order.held :=
  endQuiesces_shows (s := { s with part := { s.part with state := .quiesced } }) hm s.order.held _ m ((mem_quiesceSlots s m).2 h)

theorem rested_kept (s : State) : WordsKept ((quiesceSlots s).flatMap slotWords) s (rested s) :=
  endQuiesces_kept s.order.held (quiesceSlots s) { s with part := { s.part with state := .quiesced } }

/-- Outside SERVING and with nothing to end a command leaves what it made. -/
theorem settle_unserved (hrest : ¬comesToRest s) (hst : s.part.state ≠ .serving) : settle s = s := by
  rw [settle_of_not_rest hrest, arbiterDecide, if_neg fun c => hst c.2.1]

/-! The status word (12.8). -/

theorem statusOfWord_statusWord {r : RecordStatus} (h : r.attempts < 8) : statusOfWord (statusWord r) = r := by
  obtain ⟨c, l, a, m⟩ := r
  have hall : ∀ (c : PortState) (l : LinkStatus) (a : Fin 8) (m : Bool),
      statusOfWord (statusWord ⟨c, l, a, m⟩) = ⟨c, l, a, m⟩ := by
    intro c l
    cases c <;> cases l <;> decide
  exact hall c l ⟨a, h⟩ m

theorem subStatus_attempts_lt (s : State) (i : Nat) : (subStatus s i).attempts < 8 := Nat.mod_lt _ (by decide)

theorem subStatus_congr {i : Nat} (h : subRd t i 8 = subRd s i 8) : subStatus t i = subStatus s i :=
  congrArg statusOfWord h

theorem subStatus_writeStatus {i : Nat} {old new : RecordStatus} (hm : MemWf s.mem) (h : new.attempts < 8) :
    subStatus (writeStatus i old new s) i = new :=
  (congrArg statusOfWord (rd_wr_same s (subscriberWord i 8) (statusWord new) hm)).trans (statusOfWord_statusWord h)

theorem subscriberWord_inj {i j w x : Nat} (hw : w < 32) (hx : x < 32) : subscriberWord i w = subscriberWord j x ↔ i = j ∧ w = x := by
  unfold subscriberWord
  omega

theorem subRd_writeStatus_other {i m w : Nat} {old new : RecordStatus} (hw : w < 32) (h : m ≠ i ∨ w ≠ 8) :
    subRd (writeStatus i old new s) m w = subRd s m w :=
  writeStatus_wordsKept i old new s _ fun hmem => by
    rw [List.mem_singleton, subscriberWord_inj hw (by decide)] at hmem
    tauto

theorem countsMoved_writeStatus (i : Nat) (old new : RecordStatus) (s : State) :
    CountsMoved old new s (writeStatus i old new s) := ⟨rfl, rfl⟩

end Sys2Proof.Machine


/-! ## The candidates given up at the entry to QUIESCING (R102) -/

namespace Sys2Proof.Machine

variable {s t u v w : State} {n i k j : Nat} {rest : List Nat}

/-- One of the entries holds a drop address. -/
def holdsDrop (l : List PendingAck) (tap port : Nat) : Bool := l.any fun e => decide (e.tap = tap) && decide (e.port = port)

/-- The subscribers of the SUBSCRIBER entries. -/
def subscribersOf (l : List PendingAck) : List Nat :=
  (l.filter fun e => decide (e.kind = .subscriber)).map fun e => e.subscriber

/-- The RETIRE entries. -/
def retiresOf (l : List PendingAck) : List PendingAck := l.filter fun e => decide (e.kind = .retire)

/-- What giving up the entries of `l` one after another leaves. -/
structure GivenUp (l : List PendingAck) (v w : State) : Prop where
  wf : MemWf w.mem
  frame : w = { v with mem := w.mem, port := w.port, order := w.order, tracker := w.tracker }
  tracker : w.tracker = { v.tracker with table := v.tracker.table.filter fun x => !holdsDrop l x.tap x.port }
  order : w.order = { v.order with
    unreached := w.order.unreached, held := w.order.held
    retires := v.order.retires.map fun x => if holdsDrop (retiresOf l) x.tap x.port then { x with sent := false } else x }
  status : ∀ i ∈ subscribersOf l, subStatus w i = { subStatus v i with link := .held }
  kept : WordsKept ((subscribersOf l).map fun i => subscriberWord i 8) v w
  counts : (subscribersOf l).Nodup →
    w.order.held = v.order.held + ((subscribersOf l).filter fun i =>
      !(subStatus v i).conflict && decide ((subStatus v i).link ≠ .held)).length ∧
    w.order.unreached = v.order.unreached - ((subscribersOf l).filter fun i =>
      !(subStatus v i).conflict && decide ((subStatus v i).link = .unreached)).length

theorem GivenUp.nil (hm : MemWf v.mem) : GivenUp [] v v := by
  refine ⟨hm, rfl, ?_, ?_, fun _ h => absurd h List.not_mem_nil, WordsKept.refl v, fun _ => ⟨rfl, rfl⟩⟩
  · rw [show v.tracker.table.filter (fun x => !holdsDrop [] x.tap x.port) = v.tracker.table from
      List.filter_eq_self.2 fun _ _ => rfl]
  · rw [show v.order.retires.map (fun x => if holdsDrop (retiresOf []) x.tap x.port then { x with sent := false } else x) =
      v.order.retires from List.map_id _]

theorem holdsDrop_cons_iff (e : PendingAck) (l : List PendingAck) (tap port : Nat) :
    holdsDrop (e :: l) tap port = true ↔ (tap = e.tap ∧ port = e.port) ∨ holdsDrop l tap port = true := by
  simp only [holdsDrop, List.any_cons, Bool.or_eq_true, Bool.and_eq_true, decide_eq_true_eq, eq_comm (a := tap),
    eq_comm (a := port)]

theorem giveUp_tracker (e : PendingAck) (v : State) : (giveUp e v).tracker =
    { v.tracker with table := v.tracker.table.filter fun x => !entryAt e.tap e.port x } := by
  unfold giveUp
  cases e.kind <;> rfl

theorem giveUp_frame (e : PendingAck) (v : State) : giveUp e v = { v with
    mem := (giveUp e v).mem, port := (giveUp e v).port, order := (giveUp e v).order, tracker := (giveUp e v).tracker } := by
  unfold giveUp
  cases e.kind <;> rfl

theorem giveUp_wf (e : PendingAck) (hm : MemWf v.mem) : MemWf (giveUp e v).mem := by
  unfold giveUp
  cases e.kind
  · exact wr_wf _ _ _ hm
  · exact hm

theorem giveUp_subscriber {e : PendingAck} (h : e.kind = .subscriber) (v : State) : giveUp e v = freeWithLink e .held v := by
  unfold giveUp
  rw [h]

theorem giveUp_retire_mem {e : PendingAck} (h : e.kind = .retire) (v : State) : (giveUp e v).mem = v.mem := by
  unfold giveUp
  rw [h]
  rfl

theorem giveUp_retire_order {e : PendingAck} (h : e.kind = .retire) (v : State) : (giveUp e v).order = { v.order with
    retires := v.order.retires.map fun r => if r.tap = e.tap ∧ r.port = e.port then { r with sent := false } else r } := by
  unfold giveUp
  rw [h]
  rfl

theorem subStatus_giveUp {e : PendingAck} (hm : MemWf v.mem) (h : e.kind = .subscriber) :
    subStatus (giveUp e v) e.subscriber = { subStatus v e.subscriber with link := .held } := by
  rw [giveUp_subscriber h]
  exact subStatus_writeStatus (s := freeEntry e.tap e.port v) hm (subStatus_attempts_lt v e.subscriber)

theorem giveUp_kept (e : PendingAck) (v : State) :
    WordsKept ((subscribersOf [e]).map fun i => subscriberWord i 8) v (giveUp e v) := by
  cases h : e.kind with
  | subscriber =>
    have hsub : subscribersOf [e] = [e.subscriber] := by simp [subscribersOf, h]
    rw [giveUp_subscriber h, hsub]
    exact fun a ha => writeStatus_wordsKept _ _ _ (freeEntry e.tap e.port v) a ha
  | retire => exact fun a _ => rd_congr (giveUp_retire_mem h v) a

/-- R66: one status given up moves the counts by its own part. -/
theorem giveUp_counts {e : PendingAck} (h : e.kind = .subscriber) (v : State) :
    (giveUp e v).order.held = v.order.held + (if !(subStatus v e.subscriber).conflict &&
      decide ((subStatus v e.subscriber).link ≠ .held) then 1 else 0) ∧
    (giveUp e v).order.unreached = v.order.unreached - (if !(subStatus v e.subscriber).conflict &&
      decide ((subStatus v e.subscriber).link = .unreached) then 1 else 0) := by
  have hm := countsMoved_writeStatus e.subscriber (subStatus v e.subscriber) { subStatus v e.subscriber with link := .held }
    (freeEntry e.tap e.port v)
  rw [giveUp_subscriber h]
  obtain ⟨hu, hh⟩ := hm
  refine ⟨hh.trans ?_, hu.trans ?_⟩
  · unfold linkCount
    cases (subStatus v e.subscriber).conflict <;> cases (subStatus v e.subscriber).link <;> simp [freeEntry]
  · unfold linkCount
    cases (subStatus v e.subscriber).conflict <;> cases (subStatus v e.subscriber).link <;> simp [freeEntry]

theorem subscribersOf_cons_subscriber {e : PendingAck} (h : e.kind = .subscriber) (l : List PendingAck) :
    subscribersOf (e :: l) = e.subscriber :: subscribersOf l := by
  simp [subscribersOf, h]

theorem subscribersOf_cons_retire {e : PendingAck} (h : e.kind = .retire) (l : List PendingAck) :
    subscribersOf (e :: l) = subscribersOf l := by
  simp [subscribersOf, h]

theorem retiresOf_cons_subscriber {e : PendingAck} (h : e.kind = .subscriber) (l : List PendingAck) :
    retiresOf (e :: l) = retiresOf l := by
  simp [retiresOf, h]

theorem retiresOf_cons_retire {e : PendingAck} (h : e.kind = .retire) (l : List PendingAck) :
    retiresOf (e :: l) = e :: retiresOf l := by
  simp [retiresOf, h]

theorem subStatus_giveUp_other {e : PendingAck} {i : Nat} (h : i ∉ subscribersOf [e]) (v : State) :
    subStatus (giveUp e v) i = subStatus v i :=
  subStatus_congr (giveUp_kept e v _ fun hmem => h (by
    obtain ⟨m, hm, he⟩ := List.mem_map.1 hmem
    rwa [← ((subscriberWord_inj (by decide) (by decide)).1 he).1]))

theorem filter_holdsDrop_cons (e : PendingAck) (l : List PendingAck) (t : List PendingAck) :
    ((t.filter fun x => !entryAt e.tap e.port x).filter fun x => !holdsDrop l x.tap x.port) =
      t.filter fun x => !holdsDrop (e :: l) x.tap x.port := by
  rw [List.filter_filter]
  refine List.filter_congr fun x _ => ?_
  rw [Bool.eq_iff_iff]
  simp only [Bool.and_eq_true, Bool.not_eq_true', ← Bool.not_eq_true, holdsDrop_cons_iff, entryAt, decide_eq_true_eq, not_or]
  tauto

theorem map_holdsDrop_cons (e : PendingAck) (l : List PendingAck) (t : List RetireEntry) :
    ((t.map fun r => if r.tap = e.tap ∧ r.port = e.port then { r with sent := false } else r).map fun x =>
      if holdsDrop l x.tap x.port then { x with sent := false } else x) =
      t.map fun x => if holdsDrop (e :: l) x.tap x.port then { x with sent := false } else x := by
  rw [List.map_map]
  refine List.map_congr_left fun x _ => ?_
  by_cases hx : x.tap = e.tap ∧ x.port = e.port
  · have hcons : holdsDrop (e :: l) x.tap x.port = true := (holdsDrop_cons_iff _ _ _ _).2 (.inl hx)
    rw [Function.comp, if_pos hx, if_pos hcons]
    split <;> rfl
  · have hcons : holdsDrop (e :: l) x.tap x.port = holdsDrop l x.tap x.port := by
      rw [Bool.eq_iff_iff, holdsDrop_cons_iff]
      exact or_iff_right hx
    rw [Function.comp, if_neg hx, hcons]

/-- The table and the retires after one more entry has been given up. -/
theorem GivenUp.cons_table {e : PendingAck} {l : List PendingAck} (h : GivenUp l (giveUp e v) w) :
    w.tracker = { v.tracker with table := v.tracker.table.filter fun x => !holdsDrop (e :: l) x.tap x.port } := by
  have htracker := h.tracker
  rw [giveUp_tracker] at htracker
  rw [htracker, ← filter_holdsDrop_cons]

theorem GivenUp.cons_order {e : PendingAck} {l : List PendingAck} (h : GivenUp l (giveUp e v) w) :
    w.order = { v.order with
      unreached := w.order.unreached, held := w.order.held
      retires := v.order.retires.map fun x =>
        if holdsDrop (retiresOf (e :: l)) x.tap x.port then { x with sent := false } else x } := by
  cases he : e.kind with
  | subscriber =>
    have hstep : (giveUp e v).order = { v.order with
        unreached := (giveUp e v).order.unreached, held := (giveUp e v).order.held } := by
      rw [giveUp_subscriber he]
      rfl
    have horder := h.order
    rw [hstep] at horder
    rw [retiresOf_cons_subscriber he]
    exact horder
  | retire =>
    have horder := h.order
    rw [giveUp_retire_order he] at horder
    rw [retiresOf_cons_retire he, ← map_holdsDrop_cons]
    exact horder

theorem GivenUp.cons_status {e : PendingAck} {l : List PendingAck} (hm : MemWf v.mem) (h : GivenUp l (giveUp e v) w) :
    ∀ i ∈ subscribersOf (e :: l), subStatus w i = { subStatus v i with link := .held } := by
  intro i hi
  have hstep : subStatus (giveUp e v) i = subStatus v i ∨
      subStatus (giveUp e v) i = { subStatus v i with link := .held } := by
    by_cases hself : i ∈ subscribersOf [e]
    · cases he : e.kind with
      | subscriber =>
        rw [subscribersOf_cons_subscriber he] at hself
        obtain rfl : i = e.subscriber := by simpa [subscribersOf] using hself
        exact .inr (subStatus_giveUp hm he)
      | retire => simp [subscribersOf, he] at hself
    · exact .inl (subStatus_giveUp_other hself v)
  by_cases hl : i ∈ subscribersOf l
  · rw [h.status i hl]
    rcases hstep with hs | hs <;> rw [hs]
  · have hsame : subStatus w i = subStatus (giveUp e v) i := subStatus_congr (h.kept _ fun hmem => hl (by
      obtain ⟨m, hm, he⟩ := List.mem_map.1 hmem
      rwa [← ((subscriberWord_inj (by decide) (by decide)).1 he).1]))
    cases he : e.kind with
    | subscriber =>
      rw [subscribersOf_cons_subscriber he] at hi
      obtain rfl := (List.mem_cons.1 hi).resolve_right hl
      exact hsame.trans (subStatus_giveUp hm he)
    | retire =>
      rw [subscribersOf_cons_retire he] at hi
      exact absurd hi hl

theorem GivenUp.cons_counts {e : PendingAck} {l : List PendingAck} (h : GivenUp l (giveUp e v) w)
    (hnodup : (subscribersOf (e :: l)).Nodup) :
    w.order.held = v.order.held + ((subscribersOf (e :: l)).filter fun i =>
      !(subStatus v i).conflict && decide ((subStatus v i).link ≠ .held)).length ∧
    w.order.unreached = v.order.unreached - ((subscribersOf (e :: l)).filter fun i =>
      !(subStatus v i).conflict && decide ((subStatus v i).link = .unreached)).length := by
  cases he : e.kind with
  | subscriber =>
    rw [subscribersOf_cons_subscriber he] at hnodup ⊢
    obtain ⟨hnot, hl⟩ := List.nodup_cons.1 hnodup
    obtain ⟨hheld, hunreached⟩ := h.counts hl
    obtain ⟨hh, hu⟩ := giveUp_counts he v
    have hsame (i : Nat) (hi : i ∈ subscribersOf l) : subStatus (giveUp e v) i = subStatus v i :=
      subStatus_giveUp_other (fun hmem => hnot (by
        rw [subscribersOf_cons_subscriber he] at hmem
        obtain rfl : i = e.subscriber := by simpa [subscribersOf] using hmem
        exact hi)) v
    rw [List.filter_congr fun i hi => by rw [hsame i hi]] at hheld hunreached
    rw [List.filter_cons, List.filter_cons]
    constructor
    · rw [hheld, hh]
      split
      · rw [List.length_cons]; omega
      · omega
    · rw [hunreached, hu]
      split
      · rw [List.length_cons]; omega
      · omega
  | retire =>
    rw [subscribersOf_cons_retire he] at hnodup ⊢
    obtain ⟨hheld, hunreached⟩ := h.counts hnodup
    have hsame (i : Nat) : subStatus (giveUp e v) i = subStatus v i :=
      subStatus_giveUp_other (by simp [subscribersOf, he]) v
    have horder := giveUp_retire_order he v
    simp only [hsame] at hheld hunreached
    rw [horder] at hheld hunreached
    exact ⟨hheld, hunreached⟩

theorem GivenUp.cons {e : PendingAck} {l : List PendingAck} (hm : MemWf v.mem) (h : GivenUp l (giveUp e v) w) :
    GivenUp (e :: l) v w where
  wf := h.wf
  frame := by rw [h.frame, giveUp_frame]
  tracker := h.cons_table
  order := h.cons_order
  status := h.cons_status hm
  kept := by
    intro a ha
    refine (h.kept a fun hmem => ha ?_).trans (giveUp_kept e v a fun hmem => ha ?_)
    · refine List.map_subset _ ?_ hmem
      exact List.map_subset _ ((List.sublist_cons_self e l).filter _).subset
    · refine List.map_subset _ ?_ hmem
      exact List.map_subset _ ((List.singleton_sublist.2 List.mem_cons_self).filter _).subset
  counts := h.cons_counts

/-- R102: entries given up one after another. -/
theorem givenUp_foldl (l : List PendingAck) : ∀ {v : State}, MemWf v.mem → GivenUp l v (l.foldl (fun t e => giveUp e t) v) := by
  induction l with
  | nil => exact fun hm => GivenUp.nil hm
  | cons e l ih => exact fun hm => (ih (giveUp_wf e hm)).cons hm

/-- The entries given up at the entry to QUIESCING. -/
def candidates (s : State) : List PendingAck := s.tracker.table.filter fun e => decide (e.phase = .candidate)

theorem givenUp_candidates (hm : MemWf s.mem) : GivenUp (candidates s) s (giveUpCandidates s) := givenUp_foldl _ hm

theorem givenUp_eq (s : State) (tap port : Nat) : givenUp s tap port = holdsDrop (candidates s) tap port := by
  simp only [givenUp, holdsDrop, candidates, List.any_filter, Bool.and_assoc]

theorem retireGivenUp_eq (s : State) (tap port : Nat) :
    retireGivenUp s tap port = holdsDrop (retiresOf (candidates s)) tap port := by
  simp only [retireGivenUp, holdsDrop, retiresOf, candidates, List.any_filter, Bool.and_assoc]
  congr 1
  funext e
  simp only [← Bool.and_assoc, Bool.and_comm (decide (e.kind = .retire))]

theorem subscribersOf_candidates (s : State) : subscribersOf (candidates s) =
    (s.tracker.table.filter fun e => decide (e.kind = .subscriber) && decide (e.phase = .candidate)).map fun e => e.subscriber := by
  rw [subscribersOf, candidates, List.filter_filter]

end Sys2Proof.Machine


/-! ## QUIESCE and RESUME (R32, R33) -/

namespace Sys2Proof.Machine

variable {s t u v w g : State} {n i k j : Nat} {rest : List Nat}

/-! The slots of requests that wait or are in progress. -/

theorem SlotShows.of_code {status error : Nat} (h : SlotShows n status error s t) (hc : requestCode s n = requestCode v n) :
    SlotShows n status error v t := ⟨h.1.trans hc, h.2⟩

theorem requestCode_handedOver_any (n m : Nat) (hm : MemWf s.mem) : requestCode (handedOver n s) m = requestCode s m := by
  by_cases h : m = n
  · rw [h]
    exact requestCode_handedOver n hm
  · exact congrArg (field · 0 8) (wordsKept_handedOver n s _ fun hmem => h (by
      have := List.mem_singleton.1 hmem
      unfold requestWord at this
      omega))

theorem inProgress_unique (h : SlotLaw s) {m : Nat} {a b : LongRequest} (ha : (m, a) ∈ s.part.inProgress)
    (hb : (m, b) ∈ s.part.inProgress) : a = b :=
  (Prod.ext_iff.1 (List.inj_on_of_nodup_map (List.Nodup.of_append_right h.1) ha hb rfl)).2

theorem not_inProgress_of_queued (h : SlotLaw s) (hq : s.part.queue = n :: rest) (r : LongRequest) :
    (n, r) ∉ s.part.inProgress := fun hmem =>
  List.disjoint_of_nodup_append h.1 (hq ▸ List.mem_cons_self) (List.mem_map_of_mem (f := Prod.fst) hmem)

/-- R32, R33: what is left in progress when every QUIESCE has ended is the CLOSE_NOW of a slot. -/
theorem filter_quiesces (h : SlotLaw s) (hq : s.part.queue = n :: rest) {l : List Nat}
    (hl : ∀ m, m ∈ l ↔ m = n ∨ (m, .quiesce) ∈ s.part.inProgress) :
    (s.part.inProgress.filter fun p => decide (p.1 ∉ l)) = s.part.inProgress.filter fun p => decide (p.2 = .closeNow) := by
  refine List.filter_congr fun p hp => decide_eq_decide.2 ?_
  obtain ⟨m, r⟩ := p
  rw [hl]
  cases r with
  | quiesce => simp [hp]
  | closeNow =>
    simp only [iff_true, not_or]
    exact ⟨fun hmn => not_inProgress_of_queued h hq .closeNow (hmn ▸ hp), fun hquiesce => by
      cases inProgress_unique h hp hquiesce⟩

/-! QUIESCE. -/

theorem exec_quiesce (h : AtHead .quiesce n rest s) (hp : s.part.state ≠ .unplanned) :
    exec .quiesce s = .next (concluded s (quiesce n (handedOver n s))) :=
  exec_request (r := .quiesce) h (allowed_of_planned (by decide) h.1 hp)

/-- R32: QUIESCE in SERVING, before the candidates are given up. -/
def quiescing (n : Nat) (s : State) : State :=
  { handedOver n s with part := { s.part with
      state := .quiescing, queue := s.part.queue.drop 1, inProgress := s.part.inProgress ++ [(n, .quiesce)] } }

theorem quiesce_serving (hst : s.part.state = .serving) :
    quiesce n (handedOver n s) = quietTest (giveUpCandidates (quiescing n s)) := by
  have hst' : (handedOver n s).part.state = .serving := hst
  unfold quiesce
  rw [hst']
  rfl

theorem quiesce_quiescing (hst : s.part.state = .quiescing) :
    quiesce n (handedOver n s) = stayInProgress n .quiesce (handedOver n s) := by
  have hst' : (handedOver n s).part.state = .quiescing := hst
  unfold quiesce
  rw [hst']

theorem quiesce_quiesced (hst : s.part.state = .quiesced) :
    quiesce n (handedOver n s) = endDone n s.order.held (handedOver n s) := by
  have hst' : (handedOver n s).part.state = .quiesced := hst
  unfold quiesce
  rw [hst']
  rfl

/-- The state in which the candidates are given up. -/
def quieted (n : Nat) (s : State) : State := giveUpCandidates (quiescing n s)

theorem concluded_quiesce (hst : s.part.state = .serving) :
    concluded s (quiesce n (handedOver n s)) = latchArisen s (settle (quieted n s)) := by
  rw [concluded, quiesce_serving hst, settle_quietTest, quieted]

theorem givenUp_quieted (hm : MemWf s.mem) (n : Nat) : GivenUp (candidates s) (quiescing n s) (quieted n s) :=
  givenUp_candidates (s := quiescing n s) (handedOver_wf n hm)

theorem quieted_frame (hm : MemWf s.mem) (n : Nat) : quieted n s = { s with
    mem := (quieted n s).mem, port := (quieted n s).port, order := (quieted n s).order, tracker := (quieted n s).tracker
    part := { s.part with
      state := .quiescing, queue := s.part.queue.drop 1, inProgress := s.part.inProgress ++ [(n, .quiesce)] } } :=
  (givenUp_quieted hm n).frame

theorem quiesceSlots_quieted (hm : MemWf s.mem) (n : Nat) : quiesceSlots (quieted n s) = quiesceSlots s ++ [n] := by
  rw [quiesceSlots, quieted_frame hm]
  simp [quiesceSlots]

theorem isQuiet_quieted (hm : MemWf s.mem) (n : Nat) (ht : t.tracker = (quieted n s).tracker) :
    isQuiet (quieted n s) = isQuiet { s with tracker := t.tracker } := by
  rw [quieted_frame hm, ht]
  rfl

/-- R32: the part comes to rest at once exactly when the quiet condition holds. -/
theorem comesToRest_quieted (hm : MemWf s.mem) (n : Nat) (hs : started s = true) :
    comesToRest (quieted n s) ↔ isQuiet (quieted n s) = true := by
  have hframe := quieted_frame hm n
  have hrun : running (quieted n s) = true := by rw [hframe]; exact ((started_iff s).1 hs).1
  have hstate : (quieted n s).part.state = .quiescing := by rw [hframe]
  simp only [comesToRest, hrun, hstate, true_and]

/-- What QUIESCE in SERVING leaves, before the flags: rested, or as the candidates were given up. -/
theorem settle_quieted (hm : MemWf s.mem) (n : Nat) (hs : started s = true) : settle (quieted n s) =
    if isQuiet (quieted n s) then rested (quieted n s) else quieted n s := by
  have hrest := comesToRest_quieted hm n hs
  split
  · next h => exact settle_eq_rested (hrest.2 h)
  · next h =>
    refine settle_unserved (mt hrest.1 h) ?_
    rw [quieted_frame hm]
    exact PartState.noConfusion

theorem settle_quieted_frame (hm : MemWf s.mem) (n : Nat) (hs : started s = true) : settle (quieted n s) = { s with
    mem := (settle (quieted n s)).mem, port := (settle (quieted n s)).port, part := (settle (quieted n s)).part
    order := (quieted n s).order, tracker := (quieted n s).tracker } := by
  have hframe := quieted_frame hm n
  rw [settle_quieted hm n hs]
  split
  · rw [rested_frame, hframe]
  · rw [hframe]

theorem subscriberWord_not_flatMap {l : List Nat} (hl : ∀ m ∈ l, m < 8) (i w : Nat) : subscriberWord i w ∉ l.flatMap slotWords :=
  fun h => by
    obtain ⟨m, hm, hmem⟩ := List.mem_flatMap.1 h
    exact subscriberWord_not_slotWords (hl m hm) hmem

theorem settle_quieted_subRd (hm : MemWf s.mem) (hn : n < 8) (hs : started s = true) (hslot : SlotLaw s) (i w : Nat) :
    subRd (settle (quieted n s)) i w = subRd (quieted n s) i w := by
  rw [settle_quieted hm n hs]
  split
  · refine rested_kept _ _ (subscriberWord_not_flatMap (fun m hmem => ?_) i w)
    rw [quiesceSlots_quieted hm, List.mem_append, List.mem_singleton, mem_quiesceSlots] at hmem
    rcases hmem with hmem | rfl
    · exact hslot.2.2.1 _ hmem
    · exact hn
  · rfl

theorem subStatus_quiescing (hn : n < 8) (s : State) (i : Nat) : subStatus (quiescing n s) i = subStatus s i :=
  (SeesAs.handedOver hn s).subStatus i

theorem givenUpWords_eq (s : State) : givenUpWords s = (subscribersOf (candidates s)).map fun i => subscriberWord i 8 := by
  rw [subscribersOf_candidates, List.map_map]
  rfl

theorem requestWord_not_givenUp (hn : n < 8) (s : State) (w : Nat) (hw : w < 4) : requestWord n w ∉ givenUpWords s := fun h => by
  rw [givenUpWords_eq] at h
  obtain ⟨m, -, hm⟩ := List.mem_map.1 h
  unfold requestWord subscriberWord at hm
  omega

theorem quieted_kept (hm : MemWf s.mem) (n : Nat) : WordsKept (requestWord n 0 :: givenUpWords s) s (quieted n s) := by
  intro a ha
  rw [List.mem_cons, not_or] at ha
  refine ((givenUp_quieted hm n).kept a ?_).trans (wordsKept_handedOver n s a (by simpa using ha.1))
  rw [← givenUpWords_eq]
  exact ha.2

theorem requestCode_quieted (hm : MemWf s.mem) (n : Nat) {m : Nat} (h8 : m < 8) :
    requestCode (quieted n s) m = requestCode s m := by
  refine (congrArg (field · 0 8) ((givenUp_quieted hm n).kept _ ?_)).trans (requestCode_handedOver_any n m hm)
  rw [← givenUpWords_eq]
  exact requestWord_not_givenUp h8 s 0 (by decide)

theorem quiesce_in_serving (hm : MemWf s.mem) (h : AtHead .quiesce n rest s) (hst : s.part.state = .serving) (hslot : SlotLaw s) :
    ∃ t, exec .quiesce s = .next t ∧
         t.tracker = { s.tracker with table := s.tracker.table.filter fun x => !givenUp s x.tap x.port } ∧
         t.order = { s.order with
           unreached := t.order.unreached, held := t.order.held
           retires := s.order.retires.map fun x => if retireGivenUp s x.tap x.port then { x with sent := false } else x } ∧
         (∀ e ∈ s.tracker.table, e.phase = .candidate → e.kind = .subscriber →
           subStatus t e.subscriber = { subStatus s e.subscriber with link := .held }) ∧
         (∀ given : List Nat,
           given = (s.tracker.table.filter fun e =>
             decide (e.kind = .subscriber) && decide (e.phase = .candidate)).map (fun e => e.subscriber) → given.Nodup →
           t.order.held = s.order.held + (given.filter fun i =>
             !(subStatus s i).conflict && decide ((subStatus s i).link ≠ .held)).length ∧
           t.order.unreached = s.order.unreached - (given.filter fun i =>
             !(subStatus s i).conflict && decide ((subStatus s i).link = .unreached)).length) ∧
         (isQuiet { s with tracker := t.tracker } = false →
           SlotShows n 2 0 s t ∧
           t.part = { s.part with
             state := .quiescing, queue := rest, inProgress := s.part.inProgress ++ [(n, .quiesce)] } ∧
           WordsKept (requestWord n 0 :: givenUpWords s) s t) ∧
         (isQuiet { s with tracker := t.tracker } = true →
           (∀ m, m = n ∨ (m, .quiesce) ∈ s.part.inProgress →
             SlotShows m 3 0 s t ∧ rd t (requestWord m 3) = wordOf t.order.held) ∧
           t.part = { s.part with
             state := .quiesced, queue := rest
             inProgress := s.part.inProgress.filter fun q => decide (q.2 = .closeNow) } ∧
           WordsKept (slotWords n ++ (quiesceSlots s).flatMap slotWords ++ givenUpWords s) s t) ∧
         FlagsFollow s t ∧
         t = { s with
           mem := t.mem, port := t.port, part := t.part, order := t.order, tracker := t.tracker, flags := t.flags } := by
  have ⟨hs, hq, hn, _⟩ := h
  have hexec := exec_quiesce h (by rw [hst]; decide)
  rw [concluded_quiesce hst] at hexec
  have hgiven := givenUp_quieted hm n
  have hsettle := settle_quieted hm n hs
  have hsframe := settle_quieted_frame hm n hs
  have hsub := settle_quieted_subRd hm hn hs hslot
  have hkept := quieted_kept hm n
  have hcode {m : Nat} (h8 : m < 8) := requestCode_quieted hm n h8
  have hframe := quieted_frame hm n
  have hslots := quiesceSlots_quieted hm n
  have hquiet (t : State) := isQuiet_quieted (t := t) hm n
  generalize quieted n s = g at *
  refine ⟨_, hexec, ?_⟩
  have htracker : (latchArisen s (settle g)).tracker = g.tracker := by rw [latchArisen_tracker, hsframe]
  have horder : (latchArisen s (settle g)).order = g.order := by rw [latchArisen_order, hsframe]
  refine ⟨?_, ?_, fun e he hphase hkind => ?_, fun given hg hnodup => ?_, fun hnot => ?_, fun hyes => ?_, ?_, ?_⟩
  · rw [htracker, hgiven.tracker]
    simp only [givenUp_eq]
    rfl
  · rw [horder]
    simp only [retireGivenUp_eq]
    exact hgiven.order
  · have hmem : e.subscriber ∈ subscribersOf (candidates s) := by
      rw [subscribersOf_candidates]
      exact List.mem_map_of_mem (List.mem_filter.2 ⟨he, by simp [hphase, hkind]⟩)
    have hstatus := hgiven.status _ hmem
    rw [subStatus_quiescing hn] at hstatus
    exact (subStatus_congr ((rd_latchArisen s _ _).trans (hsub _ _))).trans hstatus
  · rw [horder]
    rw [← subscribersOf_candidates] at hg
    subst hg
    have hcounts := hgiven.counts hnodup
    simp only [subStatus_quiescing hn] at hcounts
    exact hcounts
  · rw [← hquiet _ htracker] at hnot
    rw [if_neg (by simp [hnot])] at hsettle
    rw [hsettle]
    refine ⟨?_, ?_, (wordsKept_latchArisen _ _).2 hkept⟩
    · refine (slotShows_handedOver (n := n) hm).of_word ((rd_latchArisen s g _).trans (hgiven.kept _ ?_))
      rw [← givenUpWords_eq]
      exact requestWord_not_givenUp hn s 0 (by decide)
    · rw [latchArisen_part, hframe, hq]
      rfl
  · rw [← hquiet _ htracker] at hyes
    rw [if_pos hyes] at hsettle
    rw [horder]
    rw [hsettle]
    have hprog (m : Nat) : (m, LongRequest.quiesce) ∈ g.part.inProgress ↔ m = n ∨ (m, .quiesce) ∈ s.part.inProgress := by
      rw [hframe]
      simp [or_comm]
    refine ⟨fun m hmem => ?_, ?_, ?_⟩
    · have h8 : m < 8 := hmem.elim (fun h => h ▸ hn) fun h => hslot.2.2.1 _ h
      obtain ⟨hshows, hresult⟩ := rested_shows hgiven.wf ((hprog m).2 hmem)
      exact ⟨(hshows.of_code (hcode h8)).of_word (rd_latchArisen s _ _), (rd_latchArisen s _ _).trans hresult⟩
    · have hleft : ((s.part.inProgress ++ [(n, LongRequest.quiesce)]).filter fun p => decide (p.1 ∉ quiesceSlots s ++ [n])) =
          s.part.inProgress.filter fun p => decide (p.2 = .closeNow) := by
        rw [List.filter_append, filter_quiesces hslot hq (l := quiesceSlots s ++ [n]) (by simp [mem_quiesceSlots, or_comm])]
        simp
      have hpart : g.part = { s.part with
          state := .quiescing, queue := s.part.queue.drop 1, inProgress := s.part.inProgress ++ [(n, .quiesce)] } := by
        rw [hframe]
      rw [latchArisen_part, rested_frame, hslots, hpart, ← hleft, hq]
      rfl
    · refine (wordsKept_latchArisen _ _).2 fun a ha => ?_
      rw [List.mem_append, List.mem_append, not_or, not_or] at ha
      refine (rested_kept g a fun hmem => ?_).trans (hkept a fun hmem => ?_)
      · rw [hslots, List.flatMap_append, List.mem_append] at hmem
        rcases hmem with hmem | hmem
        · exact ha.1.2 hmem
        · exact ha.1.1 (by simpa using hmem)
      · rcases List.mem_cons.1 hmem with rfl | hmem
        · exact ha.1.1 List.mem_cons_self
        · exact ha.2 hmem
  · exact flagsFollow_latchArisen (by rw [hsframe])
  · rw [latchArisen_frame, hsframe]

/-! RESUME. -/

theorem endFailed_kept (n : Nat) (e : RequestError) (s : State) {m w : Nat} (hw : w < 4) (h : m ≠ n ∨ w ≠ 0) :
    rd (endFailed n e s) (requestWord m w) = rd s (requestWord m w) :=
  wordsKept_endFailed n e s _ fun hmem => by
    have := List.mem_singleton.1 hmem
    unfold requestWord at this
    omega

/-- R33: each of the slots that end FAILED shows it. -/
theorem endFaileds_shows (hm : MemWf s.mem) (e : RequestError) (l : List Nat) :
    (∀ m, m ∈ l → SlotShows m 4 e.code s (l.foldl (fun t n => endFailed n e t) s)) ∧
      ∀ m, m ∉ l → rd (l.foldl (fun t n => endFailed n e t) s) (requestWord m 0) = rd s (requestWord m 0) := by
  have h := foldl_shows (f := fun t n => endFailed n e t) (status := 4) (error := e.code) (p := fun _ _ => True)
    (fun v m hv => endFailed_wf m e v hv) (fun v m hv => ⟨slotShows_endFailed m e hv, trivial⟩)
    (fun v m m' _ hne => ⟨endFailed_kept m e v (by decide) (.inl hne), fun _ => trivial⟩) (l := l) hm
  exact ⟨fun m hl => (h.1 m hl).1, fun m hl => (h.2 m hl).1⟩

theorem endFaileds_kept (e : RequestError) (l : List Nat) :
    ∀ s, WordsKept (l.map fun m => requestWord m 0) s (l.foldl (fun t n => endFailed n e t) s) := by
  induction l with
  | nil => exact fun s => WordsKept.refl s
  | cons n l ih =>
    intro s a ha
    rw [List.map_cons, List.mem_cons, not_or] at ha
    exact (ih _ a ha.2).trans (wordsKept_endFailed n e s a (by simpa using ha.1))

theorem endFaileds_frame (e : RequestError) (l : List Nat) : ∀ s,
    l.foldl (fun t n => endFailed n e t) s = { s with
      mem := (l.foldl (fun t n => endFailed n e t) s).mem, port := (l.foldl (fun t n => endFailed n e t) s).port
      part := { s.part with inProgress := s.part.inProgress.filter fun p => decide (p.1 ∉ l) } } := by
  induction l with
  | nil =>
    intro s
    have hall : s.part.inProgress.filter (fun p => decide (p.1 ∉ ([] : List Nat))) = s.part.inProgress :=
      List.filter_eq_self.2 (by simp)
    rw [hall]
    rfl
  | cons n l ih =>
    intro s
    have hfilter : (endFailed n e s).part.inProgress.filter (fun p => decide (p.1 ∉ l)) =
        s.part.inProgress.filter fun p => decide (p.1 ∉ n :: l) := by
      show (s.part.inProgress.filter fun p => p.1 != n).filter _ = _
      rw [List.filter_filter]
      refine List.filter_congr fun p _ => ?_
      by_cases hn : p.1 = n <;> simp [hn]
    rw [List.foldl_cons, ih, hfilter, endFailed_frame]

/-- The state in which every QUIESCE has been superseded. -/
def superseded (s : State) : State := (quiesceSlots s).foldl (fun t m => endFailed m .superseded t) (enterServing s)

theorem resume_eq (n : Nat) (s : State) : resume n s = endDone n 0 (superseded s) := by
  have hslots : quiesceSlots (enterServing s) = quiesceSlots s := by
    unfold quiesceSlots
    rw [enterServing_frame]
  unfold resume superseded
  dsimp only
  rw [hslots]

theorem enterServing_wf (hm : MemWf s.mem) : MemWf (enterServing s).mem := by
  unfold enterServing
  exact openSweep_wf _ _ (by rw [wakeRefresh_mem]; exact hm)

theorem superseded_frame (s : State) : superseded s = { s with
    mem := (superseded s).mem, port := (superseded s).port, writer := (enterServing s).writer, flags := (enterServing s).flags
    part := { s.part with
      state := .serving, inProgress := s.part.inProgress.filter fun p => decide (p.1 ∉ quiesceSlots s) }
    sched := (enterServing s).sched } := by
  rw [superseded, endFaileds_frame, enterServing_frame]

theorem superseded_wf (hm : MemWf s.mem) : MemWf (superseded s).mem :=
  foldl_wf (fun v m hv => endFailed_wf m .superseded v hv) _ _ (enterServing_wf hm)

theorem superseded_kept (s : State) :
    WordsKept ((quiesceSlots s).map fun m => requestWord m 0) (enterServing s) (superseded s) := endFaileds_kept _ _ _

/-- R81: a RESYNC sweep stands at its beginning when the part enters SERVING. -/
theorem enterServing_resync (s : State) : newSweep .resync ∈ (enterServing s).sched.sweeps := by
  rw [enterServing_sweeps]
  exact (openSweep_mandatory (k := .resync) rfl s).elim id id

theorem resume_serves (hm : MemWf s.mem) (hring : RingLaw s) (h : AtHead .resume n rest s) (hslot : SlotLaw s)
    (hst : s.part.state = .quiescing ∨ s.part.state = .quiesced) :
     ∃ u, exec .resume s = .next (concluded s u) ∧ u.part.state = .serving ∧ u.part.queue = rest ∧
       (∃ w ∈ u.sched.sweeps, w.kind = .resync ∧ w.cursor = 0) ∧ u.sched.refresh.resting = false ∧
       (∀ m, (m, .quiesce) ∈ s.part.inProgress → SlotShows m 4 22 s u ∧ ∀ r, (m, r) ∉ u.part.inProgress) ∧
       SlotShows n 3 0 s u ∧ rd u (requestWord n 3) = 0 ∧
       u.part = { s.part with
         state := .serving, queue := rest
         inProgress := s.part.inProgress.filter fun q => decide (q.2 = .closeNow) } ∧
       KeptOutside (withRings (slotWords n ++ (quiesceSlots s).map fun m => requestWord m 0)) s u ∧
       (s.sched.sweeps.length < 4 →
         WordsKept (slotWords n ++ (quiesceSlots s).map fun m => requestWord m 0) s u ∧ u.writer = s.writer) ∧
       u = { s with
         mem := u.mem, port := u.port, part := u.part, sched := u.sched, writer := u.writer, flags := u.flags } := by
  have ⟨_, hq, hn, _⟩ := h
  have hexec : exec .resume s = .next (concluded s (resume n (handedOver n s))) :=
    exec_request (r := .resume) h (by rcases hst with hst | hst <;> rw [hst] <;> rfl)
  rw [resume_eq] at hexec
  refine ⟨_, hexec, ?_⟩
  have hmb := handedOver_wf n hm
  have hringb : RingLaw (handedOver n s) := ringLaw_of_writer hring (handedOver_writer n s)
  have hframe := superseded_frame (handedOver n s)
  have hwf := superseded_wf hmb
  have hslots : quiesceSlots (handedOver n s) = quiesceSlots s := rfl
  have hsuper := superseded_kept (handedOver n s)
  have hserving := enterServing_kept hringb
  have hresync := enterServing_resync (handedOver n s)
  have hwoken : (enterServing (handedOver n s)).sched.refresh.resting = false := by
    rw [enterServing_frame, wakeRefresh_sched]
    exact woken_resting _
  obtain ⟨hshows, hothers⟩ := endFaileds_shows (enterServing_wf hmb) .superseded (quiesceSlots (handedOver n s))
  have hsupereq : superseded (handedOver n s) =
    (quiesceSlots (handedOver n s)).foldl (fun t m => endFailed m .superseded t) (enterServing (handedOver n s)) := rfl
  rw [← hsupereq] at hshows hothers
  have hroom := enterServing_room (s := handedOver n s)
  rw [hslots] at hframe hsuper hshows hothers
  generalize superseded (handedOver n s) = v at *
  generalize enterServing (handedOver n s) = e at *
  have hnq : n ∉ quiesceSlots s := fun hmem => not_inProgress_of_queued hslot hq .quiesce ((mem_quiesceSlots s n).1 hmem)
  have hcode : rd v (requestWord n 0) = rd (handedOver n s) (requestWord n 0) :=
    (hothers n hnq).trans (hserving _ (ringPlace_requestWord hn (by decide)))
  have hleft : ((s.part.inProgress.filter fun p => decide (p.1 ∉ quiesceSlots s)).filter fun p => p.1 != n) =
      s.part.inProgress.filter fun p => decide (p.2 = .closeNow) := by
    rw [List.filter_filter, ← filter_quiesces hslot hq (l := n :: quiesceSlots s) (by simp [mem_quiesceSlots])]
    refine List.filter_congr fun p _ => ?_
    by_cases hp : p.1 = n <;> simp [hp]
  have hpart : (endDone n 0 v).part = { s.part with
      state := .serving, queue := rest
      inProgress := s.part.inProgress.filter fun q => decide (q.2 = .closeNow) } := by
    rw [endDone_frame, hframe, ← hleft, handedOver_frame, hq]
    rfl
  have hkept : KeptOutside (slotAnd n (withRings ((quiesceSlots s).map fun m => requestWord m 0))) s (endDone n 0 v) :=
    keptOutside_done (hserving.withRings.trans (hsuper.withRings (List.Subset.refl _))) 0
  refine ⟨by rw [hpart], by rw [hpart], ⟨newSweep .resync, ?_, rfl, rfl⟩, ?_, fun m hmem => ⟨?_, fun r hmr => ?_⟩,
    slotShows_done hm hwf hcode 0, (rd_endDone_result n 0 hwf), hpart, withRings_slotAnd hkept, fun hlen => ⟨?_, ?_⟩, ?_⟩
  · rw [endDone_sched, hframe]
    exact hresync
  · rw [endDone_sched, hframe]
    exact hwoken
  · have hmn : m ≠ n := fun hmn => not_inProgress_of_queued hslot hq .quiesce (hmn ▸ hmem)
    have h8 : m < 8 := hslot.2.2.1 _ hmem
    refine ((hshows m ((mem_quiesceSlots s m).2 hmem)).of_code ?_).of_word (rd_done (requestWord_not_slotWords (by decide) hmn) 0)
    exact (congrArg (field · 0 8) (hserving _ (ringPlace_requestWord h8 (by decide)))).trans
      (requestCode_handedOver_any n m hm)
  · rw [hpart] at hmr
    obtain ⟨hmr, hclose⟩ := List.mem_filter.1 hmr
    obtain rfl := inProgress_unique hslot hmem hmr
    cases of_decide_eq_true hclose
  · intro a ha
    rw [List.mem_append, not_or] at ha
    refine (rd_done ha.1 0).trans ((hsuper a ha.2).trans ((rd_congr (hroom hlen).1 a).trans
      (wordsKept_handedOver n s a fun hmem => ha.1 ?_)))
    rw [List.mem_singleton.1 hmem]
    exact List.mem_cons_self
  · rw [endDone_writer, hframe]
    exact (hroom hlen).2.1
  · rw [endDone_frame, hframe]
    rfl

/-- Settles O32: QUIESCE by the part state it finds, and RESUME by its steps in turn. -/
theorem quiesceAndResume : Obligations.QuiesceAndResume := by
  unfold Obligations.QuiesceAndResume
  refine ⟨fun n rest s hm h => ⟨fun hst => ?_, fun hst hquiet => ?_, fun hst hslot => quiesce_in_serving hm h hst hslot⟩,
    fun n rest s hm hring h hslot hst => resume_serves hm hring h hslot hst⟩
  · obtain ⟨hshows, hresult, hkept, hpart, hframe⟩ := done_at_once hm h.2.1 s.order.held
    have hexec := exec_quiesce h (by rw [hst]; decide)
    rw [quiesce_quiesced hst] at hexec
    generalize endDone n s.order.held (handedOver n s) = u at *
    have hstate : u.part.state = .quiesced := by rw [hpart]; exact hst
    have hself : settle u = u := settle_unserved (not_rest_of_state (by rw [hstate]; decide)) (by rw [hstate]; decide)
    refine ⟨u, hexec.trans (next_latchArisen hself ?_), hpart, hshows, hresult, hkept, hframe⟩
    rw [hframe]
    rfl
  · have hexec := exec_quiesce h (by rw [hst]; decide)
    rw [quiesce_quiescing hst] at hexec
    have hrest : ¬comesToRest (stayInProgress n .quiesce (handedOver n s)) := fun c =>
      Bool.false_ne_true (hquiet.symm.trans c.2.2)
    have hstate : (stayInProgress n .quiesce (handedOver n s)).part.state ≠ .serving := fun h =>
      PartState.noConfusion (hst.symm.trans h)
    refine ⟨stayInProgress n .quiesce (handedOver n s), hexec.trans (next_latchArisen (settle_unserved hrest hstate) rfl),
      slotShows_handedOver hm, wordsKept_handedOver n s, ?_, rfl⟩
    show ({ s.part with queue := s.part.queue.drop 1, inProgress := _ } : Part) = _
    rw [h.2.1]
    rfl

end Sys2Proof.Machine


/-! ## The end of a frame, and the arbiter (R70, R71, R99, R113) -/

namespace Sys2Proof.Machine

variable {s t u v : State} {c : FrameClass}

/-! The arbiter (R71). -/

theorem classOrder_pairwise : classOrder.Pairwise fun c d => classPlace c < classPlace d := by decide

theorem mem_classOrder (c : FrameClass) : c ∈ classOrder := by cases c <;> decide

/-- The first element of a rising list that satisfies a test is the lowest one that does. -/
theorem find?_eq_some_of_rising {α : Type} {f : α → Nat} {p : α → Bool} : ∀ {l : List α}, l.Pairwise (fun a b => f a < f b) →
    ∀ c, l.find? p = some c ↔ c ∈ l ∧ p c = true ∧ ∀ d ∈ l, f d < f c → p d = false
  | [], _, c => by simp
  | a :: l, hl, c => by
    obtain ⟨ha, htail⟩ := List.pairwise_cons.1 hl
    cases hp : p a with
    | true =>
      rw [List.find?_cons_of_pos hp, Option.some_inj]
      refine ⟨fun h => h ▸ ⟨List.mem_cons_self, hp, fun d hd hlt => ?_⟩, fun ⟨hc, hpc, hall⟩ => ?_⟩
      · rcases List.mem_cons.1 hd with rfl | hd
        · exact absurd hlt (lt_irrefl _)
        · exact absurd (ha d hd) (lt_asymm hlt)
      · rcases List.mem_cons.1 hc with rfl | hc
        · rfl
        · exact Bool.noConfusion (hp.symm.trans (hall a List.mem_cons_self (ha c hc)))
    | false =>
      rw [List.find?_cons_of_neg (by rw [hp]; decide), find?_eq_some_of_rising htail c]
      refine ⟨fun ⟨hc, hpc, hall⟩ => ⟨List.mem_cons_of_mem a hc, hpc, fun d hd hlt => ?_⟩, fun ⟨hc, hpc, hall⟩ =>
        ⟨(List.mem_cons.1 hc).resolve_left fun h => ?_, hpc, fun d hd => hall d (List.mem_cons_of_mem a hd)⟩⟩
      · rcases List.mem_cons.1 hd with rfl | hd
        · exact hp
        · exact hall d hd hlt
      · rw [h, hp] at hpc
        cases hpc

theorem isEntryOf_iff (i : Nat) (e : PendingAck) : isEntryOf i e = true ↔ e.kind = .subscriber ∧ e.subscriber = i := by
  rw [isEntryOf, Bool.and_eq_true, decide_eq_true_eq, decide_eq_true_eq]

theorem sweepHolds_iff (w : Sweep) : sweepHolds w = true ↔ (w.kind = .lineup ∧ w.maps < 8) ∨ w.held ≠ none := by
  rw [sweepHolds, Bool.or_eq_true, Bool.and_eq_true, decide_eq_true_eq, decide_eq_true_eq, Option.isSome_iff_ne_none]

theorem refreshHolds_iff (r : Refresh) : refreshHolds r = true ↔ r.maps < 8 ∨ r.held ≠ none := by
  rw [refreshHolds, Bool.or_eq_true, decide_eq_true_eq, Option.isSome_iff_ne_none]

/-- R112: an element that may be polled. -/
theorem pollEligible_iff (t : Tree) (i : Nat) :
    pollEligible t i = true ↔ ∃ e, tableGet t i = some e ∧ e.state ≠ .latchedOut ∧ isShadowed t i = false := by
  unfold pollEligible
  cases tableGet t i with
  | none => simp
  | some e => simp

theorem someEligible_iff (t : Tree) :
    someEligible t = true ↔ ∃ i e, tableGet t i = some e ∧ e.state ≠ .latchedOut ∧ isShadowed t i = false := by
  rw [someEligible, List.any_eq_true]
  refine ⟨fun ⟨p, _, hp⟩ => ⟨p.1, (pollEligible_iff t p.1).1 hp⟩, fun ⟨i, e, hget, hrest⟩ => ?_⟩
  exact ⟨(i, e), mem_of_tableGet hget, (pollEligible_iff t i).2 ⟨e, hget, hrest⟩⟩

/-- R71: the conditions of the classes are those of its table. -/
theorem classEligible_iff (s : State) (c : FrameClass) : classEligible s c = true ↔ Eligible s c := by
  cases c with
  | reply => simp [classEligible, Eligible]
  | retry => simp [classEligible, Eligible]
  | poll =>
    simp only [classEligible, Eligible, pollIsDue, Bool.and_eq_true, decide_eq_true_eq, Option.isNone_iff_eq_none,
      someEligible_iff, and_assoc]
  | retire =>
    simp only [classEligible, Eligible, List.any_eq_true, Bool.and_eq_true, decide_eq_true_eq, Bool.not_eq_true']
    exact Iff.rfl
  | immediate =>
    cases hq : s.sched.queue with
    | nil => simp [classEligible, Eligible, hq]
    | cons i rest =>
      simp only [classEligible, Eligible, hq, Bool.or_eq_true, decide_eq_true_eq, List.any_eq_true, isEntryOf_iff]
      exact ⟨fun h => ⟨i, rest, rfl, h⟩, fun ⟨j, tail, he, h⟩ => (List.cons.inj he).1 ▸ h⟩
  | sweep => simp only [classEligible, Eligible, List.any_eq_true, sweepHolds_iff]
  | refresh => exact refreshHolds_iff s.sched.refresh

/-- R71: the class chosen is the first that is eligible. -/
theorem firstEligible_iff (s : State) (c : FrameClass) : firstEligible s = some c ↔ FirstEligible s c := by
  rw [firstEligible, find?_eq_some_of_rising classOrder_pairwise, FirstEligible, classEligible_iff]
  simp only [mem_classOrder, true_and, forall_true_left, ← classEligible_iff, Bool.not_eq_true]

theorem arbiterDecide_idle (hr : running u = true) (hst : u.part.state = .serving) (hl : u.sched.link = .idle) :
    (∀ c, (arbiterDecide u).sched.link = .granted c ↔ FirstEligible u c) ∧
      ((∀ c, ¬Eligible u c) → (arbiterDecide u).sched.link = .idle) := by
  rw [arbiterDecide, if_pos ⟨hr, hst, hl⟩]
  cases hf : firstEligible u with
  | none =>
    refine ⟨fun c => ?_, fun _ => hl⟩
    rw [← firstEligible_iff, hf, hl]
    exact ⟨fun h => (by cases h), fun h => (by cases h)⟩
  | some d =>
    refine ⟨fun c => ?_, fun h => absurd ((firstEligible_iff u d).1 hf).1 (h d)⟩
    rw [← firstEligible_iff, hf, Option.some_inj]
    exact Link.granted.injEq d c ▸ Iff.rfl

theorem arbiterDecide_busy (h : running u = false ∨ u.part.state ≠ .serving ∨ u.sched.link ≠ .idle) :
    arbiterDecide u = u := by
  refine if_neg fun ⟨hr, hst, hl⟩ => ?_
  rcases h with h | h | h
  · rw [hr] at h
    cases h
  · exact h hst
  · exact h hl

/-! The conclusion of a command. -/

theorem comesToRest_iff (u : State) : comesToRest u ↔ running u = true ∧ u.part.state = .quiescing ∧
    u.sched.link = .idle ∧ u.tracker.table = [] ∧ u.plant.poll = none := by
  simp only [comesToRest, isQuiet, Bool.and_eq_true, decide_eq_true_eq, List.isEmpty_iff, Option.isNone_iff_eq_none, and_assoc]

/-- R177: the flags that a command leaves are those of the state it made, and those of the conditions that arose. -/
theorem concluded_flags (s u : State) : (concluded s u).flags = if (concluded s u).part.state = .starting then u.flags else
    u.flags ||| (conditions (concluded s u) &&& ~~~(conditions s)) := by
  have hflags : (settle u).flags = u.flags := by rw [settle_frame]
  have hfollow := flagsFollow_latchArisen (s := { s with flags := u.flags }) (u := settle u) hflags
  exact hfollow

theorem concluded_frame (s u : State) : concluded s u = { u with
    mem := (concluded s u).mem, port := (concluded s u).port, part := (concluded s u).part
    sched := (concluded s u).sched, flags := (concluded s u).flags } := by
  rw [concluded, latchArisen_frame, settle_frame]

/-- R71: what a command that prompts the arbiter does with the scheduler. -/
theorem settle_serving (hst : u.part.state = .serving) : settle u = arbiterDecide u :=
  settle_of_not_rest fun h => PartState.noConfusion (hst.symm.trans h.2.1)

theorem settle_sched (u : State) : (settle u).sched = { u.sched with link := (settle u).sched.link } := by
  by_cases h : comesToRest u
  · rw [settle_eq_rested h, rested_frame]
  · rw [settle_link_of_not_rest h]

theorem settle_sched_busy (h : running u = false ∨ u.part.state ≠ .serving ∨ u.sched.link ≠ .idle) :
    (settle u).sched = u.sched := by
  by_cases hrest : comesToRest u
  · rw [settle_eq_rested hrest, rested_frame]
  · rw [settle_of_not_rest hrest, arbiterDecide_busy h]

theorem rested_port (h : PortIdle u) : (rested u).port = if quiesceSlots u = [] then u.port else { u.port with last := some .part } :=
  endQuiesces_port (s := { u with part := { u.part with state := .quiesced } }) u.order.held (quiesceSlots u) h

theorem rested_mem_of_none (h : quiesceSlots u = []) : (rested u).mem = u.mem := by
  rw [rested, h]
  rfl

theorem rested_inProgress (u : State) : (rested u).part = { u.part with
    state := .quiesced, inProgress := u.part.inProgress.filter fun p => decide ((p.1, .quiesce) ∉ u.part.inProgress) } := by
  rw [rested_frame]
  simp only [mem_quiesceSlots]

/-! The completion of a frame (R70). -/

/-- R70: the link after the last bit of a frame. -/
def sentOff (ends : Nat) (s : State) : State :=
  { s with time := max s.time ends, sched := { s.sched with link := .idle, framesSent := s.sched.framesSent + 1 } }

theorem handOn_frame (h : HandOff) (s : State) :
    handOn h s = { s with tracker := (handOn h s).tracker, plant := (handOn h s).plant } := by
  cases h with
  | nobody => rfl
  | ack => rfl
  | poll =>
    rw [handOn, startPollTimeout]
    cases s.plant.poll <;> rfl

theorem timeoutBits_eq (n : Nat) : timeoutBits n = 640 * n := by
  rw [timeoutBits, bitsPerMs]
  omega

theorem entryAt_iff (tap port : Nat) (e : PendingAck) : entryAt tap port e = true ↔ e.tap = tap ∧ e.port = port := by
  rw [entryAt, Bool.and_eq_true, decide_eq_true_eq, decide_eq_true_eq]

/-- R99: the entry whose frame has been sent awaits its ack. -/
theorem startAckTimeout_tracker (tap port q : Nat) (s : State) : (startAckTimeout tap port q s).tracker =
    { s.tracker with table := s.tracker.table.map fun e =>
      if e.tap = tap ∧ e.port = port ∧ e.sequence = q ∧ e.phase = .sending then
        { e with phase := .awaiting, deadline := s.time + 640 * (planOf s).ackTimeout, completed := s.time }
      else e } := by
  simp only [startAckTimeout, updateEntry, timeoutBits_eq, entryAt_iff]
  congr 2
  funext e
  by_cases h : e.tap = tap ∧ e.port = port
  · simp [h]
  · rw [if_neg h, if_neg fun c => h ⟨c.1, c.2.1⟩]

/-- R113: the poll whose frame has been sent awaits its answer. -/
theorem startPollTimeout_plant (s : State) : (startPollTimeout s).plant =
    { s.plant with poll := s.plant.poll.map fun p =>
      { p with phase := .awaiting, completed := s.time, deadline := s.time + 640 * (planOf s).pollTimeout } } := by
  rw [← timeoutBits_eq]
  cases h : s.plant.poll with
  | none =>
    simp only [startPollTimeout, h, Option.map_none]
    rw [← h]
  | some p => simp only [startPollTimeout, h, Option.map_some]

/-- Settles O38: the frame's end is handed to its block; the rest of the statement is the case split of `settle`. -/
theorem frameCompletionHandsOn : Obligations.FrameCompletionHandsOn := by
  unfold Obligations.FrameCompletionHandsOn
  refine ⟨fun frame h ends s hvcc hlink => ?_, fun s u t ht => ?_⟩
  · have hexec : exec .frameCompletion s = .next (concluded s (handOn h (sentOff ends s))) := by
      show execFrameCompletion s = _
      simp only [execFrameCompletion, hlink, hvcc, if_true]
      rfl
    refine ⟨_, hexec, ?_⟩
    have hframe := handOn_frame h (sentOff ends s)
    refine ⟨by rw [hframe, sentOff], by rw [hframe, sentOff], ?_, ?_, ?_, ?_⟩
    · rintro rfl
      exact ⟨rfl, rfl⟩
    · rintro tap port q rfl
      exact ⟨rfl, startAckTimeout_tracker tap port q (sentOff ends s)⟩
    · rintro rfl
      exact ⟨by rw [handOn, startPollTimeout]; cases (sentOff ends s).plant.poll <;> rfl,
        startPollTimeout_plant (sentOff ends s)⟩
    · rw [hframe, sentOff]
  · have hsched : t.sched = (settle u).sched := by rw [ht, concluded, latchArisen_sched]
    have hpart : t.part = (settle u).part := by rw [ht, concluded, latchArisen_part]
    have hport : t.port = (settle u).port := by rw [ht, concluded, latchArisen_port]
    have hmem : t.mem = (settle u).mem := by rw [ht, concluded, latchArisen_mem]
    rw [← comesToRest_iff]
    refine ⟨fun hr hst hl => ?_, fun h => hsched.trans (settle_sched_busy h), ?_, fun hrest => ?_, fun hrest => ?_, ?_, ?_⟩
    · rw [hsched, settle_serving hst]
      exact arbiterDecide_idle hr hst hl
    · rw [hsched]
      exact settle_sched u
    · rw [settle_eq_rested hrest] at hpart hport hmem
      refine ⟨hpart.trans (rested_inProgress u), fun hm => ⟨fun n hn => ?_, fun a ha => ?_⟩, fun hp => hport.trans (rested_port hp),
        fun hnone => hmem.trans (rested_mem_of_none hnone)⟩
      · obtain ⟨hshows, hresult⟩ := rested_shows hm hn
        exact ⟨hshows.of_word (rd_congr hmem _), (rd_congr hmem _).trans hresult⟩
      · exact (rd_congr hmem a).trans (rested_kept u a ha)
    · rw [ht, concluded, latchArisen_frame, settle_link_of_not_rest hrest]
    · rw [ht]
      exact concluded_flags s u
    · rw [ht]
      exact concluded_frame s u

end Sys2Proof.Machine


/-! ## What the scheduler's grants send, and the bytes of the frames (R45, R48, R74, R84, R87, 12.10) -/

namespace Sys2Proof.Machine

variable {s t u v : State} {c : FrameClass}

/-! Grants and the frames they send. -/

/-- R72: the build of a class that has been granted. -/
theorem grantStep_granted (hvcc : s.power.vcc = true) (hl : s.sched.link = .granted c) (build : State → State) :
    grantStep c build s = build s := if_pos ⟨hvcc, hl⟩

theorem sendFrame_eq (hr : s.power.resetting = false) (f : List Byte) (h : HandOff) : sendFrame f h s =
    { s with sched := { s.sched with link := .sending f h (s.time + frameBits f) } } := by
  rw [sendFrame, hr, if_neg Bool.false_ne_true]

theorem frameBits_withCrc (b : List Byte) : frameBits (withCrc b) = 8 * b.length + 16 := by
  rw [frameBits, withCrc, List.length_append, List.length_cons, List.length_singleton]
  omega

theorem vectorBytes_length (v : BitVec 96) : (vectorBytes v).length = 12 := by
  rw [vectorBytes, List.length_map, List.length_range]

theorem frameBits_authFrame (tap port q c : Nat) (v : BitVec 96) : frameBits (authFrame tap port q c v) = 160 := by
  rw [authFrame, frameBits_withCrc, List.length_append, vectorBytes_length]
  rfl

theorem frameBits_authFor (s : State) (i q : Nat) : frameBits (authFor s i q) = 160 := frameBits_authFrame _ _ _ _ _

/-! The sweep that is changed. -/

/-- The first of its kind is changed in its place. -/
theorem updateFirstSweep_append {p : Sweep → Bool} {f : Sweep → Sweep} {w : Sweep} {newer : List Sweep} (hw : p w = true) :
    ∀ {older : List Sweep}, (∀ x ∈ older, p x = false) →
      updateFirstSweep p f (older ++ w :: newer) = older ++ f w :: newer
  | [], _ => by rw [List.nil_append, updateFirstSweep, if_pos hw, List.nil_append]
  | x :: older, h => by
    rw [List.cons_append, updateFirstSweep, h x List.mem_cons_self, if_neg Bool.false_ne_true,
      updateFirstSweep_append hw fun y hy => h y (List.mem_cons_of_mem x hy), List.cons_append]

theorem updateFirstSweep_mem {p : Sweep → Bool} {l : List Sweep} {w : Sweep} (h : l.find? p = some w) (f : Sweep → Sweep) :
    f w ∈ updateFirstSweep p f l := by
  obtain ⟨hw, older, newer, rfl, holder⟩ := List.find?_eq_some_iff_append.1 h
  rw [updateFirstSweep_append hw fun x hx => by simpa using holder x hx]
  exact List.mem_append_right _ List.mem_cons_self

/-- R84, R85: a sweep that has ended. -/
theorem sweepEnded_iff (w : Sweep) :
    sweepEnded w = true ↔ 4096 ≤ w.cursor ∧ w.held = none ∧ (w.kind ≠ .lineup ∨ 8 ≤ w.maps) := by
  rw [sweepEnded, Bool.and_eq_true, decide_eq_true_eq, Bool.not_eq_true', ← Bool.not_eq_true, sweepHolds_iff, subscriberCount]
  refine and_congr_right fun _ => ?_
  rw [not_or, not_and, not_not, Nat.not_lt, and_comm, imp_iff_not_or]

theorem mem_removeEndedSweeps (s : State) (w : Sweep) :
    w ∈ (removeEndedSweeps s).sched.sweeps ↔ w ∈ s.sched.sweeps ∧ sweepEnded w = false := by
  simp [removeEndedSweeps]

theorem not_ended_of_mem {w : Sweep} (h : w ∈ (removeEndedSweeps s).sched.sweeps) :
    ¬(4096 ≤ w.cursor ∧ w.held = none ∧ (w.kind ≠ .lineup ∨ 8 ≤ w.maps)) := by
  rw [← sweepEnded_iff, ((mem_removeEndedSweeps s w).1 h).2]
  exact Bool.false_ne_true

/-! Records read under a changed scheduler (R72). -/

theorem servable_sched (s : State) (x : Scheduler) (p : Port) (i : Nat) :
    servable { s with sched := x, port := p } i = servable s i := rfl

theorem authFor_sched (s : State) (x : Scheduler) (p : Port) (i q : Nat) :
    authFor { s with sched := x, port := p } i q = authFor s i q := rfl

/-- R84: the frame for a held subscriber. -/
theorem sendUnacked_served {i : Nat} (hr : s.power.resetting = false) (h : servable s i = true) : sendUnacked i s = { s with
    port := (partRead s).port, sched := { s.sched with link := .sending (authFor s i 0) .nobody (s.time + 160) } } := by
  rw [sendUnacked, if_pos h, sendFrame_eq (s := partRead s) hr, frameBits_authFor]
  rfl

theorem sendUnacked_lapsed {i : Nat} (h : servable s i = false) : sendUnacked i s =
    settle { s with port := (partRead s).port, sched := { s.sched with link := .idle } } := by
  rw [sendUnacked, if_neg (by rw [h]; decide)]
  rfl

theorem sendMap_eq {im : List LineupEntry} (hr : s.power.resetting = false) (h : s.lineup.image = some im) (n : Nat) :
    sendMap n s = { s with sched := { s.sched with
      link := .sending (mapFor im n) .nobody (s.time + frameBits (mapFor im n)) } } := by
  simp only [sendMap, h, sendFrame_eq hr]

theorem partRead_port (h : PortIdle s) : (partRead s).port = { s.port with last := some .part } :=
  congrArg State.port (partRead_eq h)

/-- R84: the sweeps left when the oldest that holds a subscriber has given it up. -/
def gaveUp (s : State) : State :=
  removeEndedSweeps { s with sched := { s.sched with
    sweeps := updateFirstSweep sweepHolds (fun v => { v with held := none }) s.sched.sweeps } }

theorem gaveUp_frame (s : State) :
    gaveUp s = { s with sched := { s.sched with sweeps := (gaveUp s).sched.sweeps } } := rfl

theorem gaveUp_mem {w : Sweep} (h : s.sched.sweeps.find? sweepHolds = some w) (hc : w.cursor < 4096) :
    ({ w with held := none } : Sweep) ∈ (gaveUp s).sched.sweeps := by
  rw [gaveUp, mem_removeEndedSweeps]
  refine ⟨updateFirstSweep_mem h _, ?_⟩
  rw [← Bool.not_eq_true, sweepEnded_iff]
  exact fun hended => absurd hended.1 (Nat.not_le.2 hc)

/-- R48, R84: the oldest sweep that holds a frame gives up a MAP frame of its batch. -/
def mapTaken (s : State) : State :=
  { s with sched := { s.sched with
      sweeps := updateFirstSweep sweepHolds (fun v => { v with maps := v.maps + 1 }) s.sched.sweeps } }

theorem buildSweep_map {w : Sweep} (h : s.sched.sweeps.find? sweepHolds = some w) (hk : w.kind = .lineup) (hm : w.maps < 8) :
    buildSweep s = sendMap w.maps (mapTaken s) := by
  simp only [buildSweep, h]
  rw [if_pos ⟨hk, hm⟩, mapTaken]

theorem buildSweep_held {w : Sweep} {i : Nat} (h : s.sched.sweeps.find? sweepHolds = some w) (hi : w.held = some i)
    (hk : w.kind ≠ .lineup ∨ 8 ≤ w.maps) : buildSweep s = sendUnacked i (gaveUp s) := by
  simp only [buildSweep, h]
  rw [if_neg fun c => hk.elim (fun k => k c.1) fun k => absurd c.2 (Nat.not_lt.2 k), hi]
  rfl

theorem buildRefresh_map (h : s.sched.refresh.maps < 8) : buildRefresh s =
    sendMap s.sched.refresh.maps (setRefresh { s.sched.refresh with maps := s.sched.refresh.maps + 1 } s) := by
  rw [buildRefresh, if_pos h]

theorem buildRefresh_held {i : Nat} (h : 8 ≤ s.sched.refresh.maps) (hi : s.sched.refresh.held = some i) :
    buildRefresh s = sendUnacked i (setRefresh { s.sched.refresh with held := none } s) := by
  rw [buildRefresh, if_neg (Nat.not_lt.2 h), hi]

/-! The bytes of the frames (12.10). -/

theorem wordHi_eq (w : Word) : wordHi w = BitVec.ofNat 8 (w.toNat / 256) := by
  apply BitVec.eq_of_toNat_eq
  simp [wordHi, Nat.shiftRight_eq_div_pow]

theorem wordLo_eq (w : Word) : wordLo w = BitVec.ofNat 8 w.toNat := by
  apply BitVec.eq_of_toNat_eq
  simp [wordLo]

theorem withCrc_eq (b : List Byte) :
    withCrc b = b ++ [byteOf ((crc16 b).toNat / 256), byteOf (crc16 b).toNat] := by
  rw [withCrc, wordHi_eq, wordLo_eq]
  rfl

/-- 12.10: position `p` of the vector is bit `p` mod 8 of byte `p` / 8. -/
theorem vectorBytes_getLsbD {v : BitVec 96} {p : Nat} {b : Byte} (h : (vectorBytes v)[p / 8]? = some b) :
    b.getLsbD (p % 8) = v.getLsbD p := by
  rw [vectorBytes, List.getElem?_map, Option.map_eq_some_iff] at h
  obtain ⟨k, hk, rfl⟩ := h
  obtain rfl : p / 8 = k := by
    have := List.getElem?_eq_some_iff.1 hk
    obtain ⟨hlt, he⟩ := this
    rwa [List.getElem_range] at he
  have hlt : p % 8 < 8 := Nat.mod_lt p (by decide)
  rw [BitVec.getLsbD_extractLsb', decide_eq_true hlt, Bool.true_and, Nat.div_add_mod]

/-- Blocks of one length: the block at a position. -/
theorem drop_take_flatMap {α β : Type} {f : α → List β} {k : Nat} (hf : ∀ a, (f a).length = k) {a : α} :
    ∀ {l : List α} {j : Nat}, l[j]? = some a → ((l.flatMap f).drop (k * j)).take k = f a
  | [], _, h => by simp at h
  | x :: l, 0, h => by
    obtain rfl : x = a := by simpa using h
    rw [Nat.mul_zero, List.drop_zero, List.flatMap_cons, ← hf x, List.take_left]
  | x :: l, j + 1, h => by
    rw [List.flatMap_cons, Nat.mul_succ, Nat.add_comm, ← List.drop_drop, ← hf x, List.drop_left, hf x]
    exact drop_take_flatMap hf (by simpa using h)

theorem length_flatMap_const {α β : Type} {f : α → List β} {k : Nat} (hf : ∀ a, (f a).length = k) (l : List α) :
    (l.flatMap f).length = l.length * k := by
  rw [List.length_flatMap, List.map_congr_left fun a _ => hf a, List.map_const', List.sum_replicate, smul_eq_mul]

/-- The five bytes of a position of a MAP frame. -/
def entryBytes (e : LineupEntry) : List Byte := mapEntryBytes e.channel e.frequency e.kind.code e.enabled

theorem entryBytes_length (e : LineupEntry) : (entryBytes e).length = 5 := rfl

/-- The bytes of the twelve positions of MAP frame `n`. -/
def mapFields (im : List LineupEntry) (n : Nat) : List Byte := ((im.drop (12 * n)).take 12).flatMap entryBytes

theorem mapFields_length {im : List LineupEntry} {n : Nat} (him : im.length = 96) (hn : n < 8) :
    (mapFields im n).length = 60 := by
  rw [mapFields, length_flatMap_const entryBytes_length, List.length_take, List.length_drop]
  omega

theorem mapFields_entry {im : List LineupEntry} {n j : Nat} {e : LineupEntry} (hj : j < 12) (h : im[12 * n + j]? = some e) :
    ((mapFields im n).drop (5 * j)).take 5 = entryBytes e :=
  drop_take_flatMap entryBytes_length (by rw [List.getElem?_take_of_lt hj, List.getElem?_drop, h])

theorem entryBytes_eq (e : LineupEntry) : entryBytes e =
    [byteOf (e.channel / 256), byteOf e.channel, byteOf (e.frequency / 256), byteOf e.frequency,
      byteOf ((if e.enabled then 128 else 0) + e.kind.code)] := rfl

/-- Settles O39: each build sends what it holds; the bytes of a frame are those of its definition, read field by field. -/
theorem schedulerGrantsSendWhatTheyHold : Obligations.SchedulerGrantsSendWhatTheyHold := by
  unfold Obligations.SchedulerGrantsSendWhatTheyHold
  refine ⟨fun r rest s hvcc hr hl hrep => ?_, fun w s hvcc hr hl hfind => ⟨fun im hk hm him => ?_, fun i hi hk hserve => ?_,
    fun i hi hk hserve => ?_⟩, fun s hvcc hr hl => ⟨fun im hm him => ?_, fun i hm hi hserve => ?_, fun i hm hi hserve => ?_⟩,
    fun byte checked hbyte hchecked => ?_⟩
  · refine next_latchArisen ((grantStep_granted hvcc hl buildReply).trans ?_) rfl
    simp only [buildReply, hrep]
    exact sendFrame_eq (s := { s with sched := { s.sched with replies := rest } }) hr _ _
  · refine ⟨_, next_latchArisen ((grantStep_granted hvcc hl buildSweep).trans ((buildSweep_map hfind hk hm).trans
      (sendMap_eq (s := mapTaken s) hr him w.maps))) rfl, rfl, updateFirstSweep_mem hfind _, updateFirstSweep_length _ _ _, rfl⟩
  · refine ⟨_, next_latchArisen ((grantStep_granted hvcc hl buildSweep).trans ((buildSweep_held hfind hi hk).trans
      (sendUnacked_served (s := gaveUp s) hr hserve))) rfl, rfl, fun hc => gaveUp_mem hfind hc, fun v hv => not_ended_of_mem hv,
      fun hp => partRead_port (s := gaveUp s) hp, rfl⟩
  · refine ⟨_, congrArg (fun v => Host.Outcome.next (latchArisen s v)) ((grantStep_granted hvcc hl buildSweep).trans
      ((buildSweep_held hfind hi hk).trans (sendUnacked_lapsed (s := gaveUp s) hserve))), rfl, fun hc => gaveUp_mem hfind hc,
      fun hp => partRead_port (s := gaveUp s) hp, rfl⟩
  · exact next_latchArisen ((grantStep_granted hvcc hl buildRefresh).trans ((buildRefresh_map hm).trans
      (sendMap_eq (s := setRefresh { s.sched.refresh with maps := s.sched.refresh.maps + 1 } s) hr him s.sched.refresh.maps))) rfl
  · exact ⟨_, next_latchArisen ((grantStep_granted hvcc hl buildRefresh).trans ((buildRefresh_held hm hi).trans
      (sendUnacked_served (s := setRefresh { s.sched.refresh with held := none } s) hr hserve))) rfl,
      fun hp => partRead_port (s := setRefresh { s.sched.refresh with held := none } s) hp, rfl⟩
  · exact ⟨_, congrArg (fun v => Host.Outcome.next (latchArisen s v)) ((grantStep_granted hvcc hl buildRefresh).trans
      ((buildRefresh_held hm hi).trans (sendUnacked_lapsed (s := setRefresh { s.sched.refresh with held := none } s) hserve))),
      fun hp => partRead_port (s := setRefresh { s.sched.refresh with held := none } s) hp, rfl⟩
  · obtain rfl : byte = byteOf := funext hbyte
    obtain rfl : checked = withCrc := funext fun b => (hchecked b).trans (withCrc_eq b).symm
    refine ⟨fun tap port q c v => ⟨vectorBytes v, rfl, vectorBytes_length v, fun p b _ h => vectorBytes_getLsbD h⟩,
      fun s i q c hc => ?_, fun im n him hn => ⟨mapFields im n, rfl, mapFields_length him hn, fun j e hj h => ?_⟩, fun _ _ => rfl⟩
    · have hcode : (subCommand s i).code = c := by
        rw [hc]
        cases subCommand s i <;> rfl
      rw [← hcode]
      rfl
    · rw [mapFields_entry hj h, entryBytes_eq]
      cases e.kind <;> rfl

end Sys2Proof.Machine


/-! ## The grants of the pending frames: RETRY, POLL and RETIRE (R75, R77, R101, R104, R112, R113) -/

namespace Sys2Proof.Machine

variable {s t u v : State} {c : FrameClass}

/-! An entry freed with its subscriber's link status (R98, R100, R102). -/

theorem freeWithLink_frame (e : PendingAck) (l : LinkStatus) (s : State) : freeWithLink e l s = { s with
    mem := (freeWithLink e l s).mem, port := (freeWithLink e l s).port
    tracker := { s.tracker with table := s.tracker.table.filter fun x => !entryAt e.tap e.port x }
    order := { s.order with
      unreached := (freeWithLink e l s).order.unreached, held := (freeWithLink e l s).order.held } } := rfl

theorem subStatus_freeWithLink (hm : MemWf s.mem) (e : PendingAck) (l : LinkStatus) :
    subStatus (freeWithLink e l s) e.subscriber = { subStatus s e.subscriber with link := l } :=
  subStatus_writeStatus (s := freeEntry e.tap e.port s) hm (subStatus_attempts_lt s e.subscriber)

theorem freeWithLink_kept (e : PendingAck) (l : LinkStatus) (s : State) :
    WordsKept [subscriberWord e.subscriber 8] s (freeWithLink e l s) :=
  writeStatus_wordsKept e.subscriber _ _ (freeEntry e.tap e.port s)

theorem freeWithLink_counts (e : PendingAck) (l : LinkStatus) (s : State) :
    CountsMoved (subStatus s e.subscriber) { subStatus s e.subscriber with link := l } s (freeWithLink e l s) := ⟨rfl, rfl⟩

theorem freeWithLink_wf (e : PendingAck) (l : LinkStatus) (hm : MemWf s.mem) : MemWf (freeWithLink e l s).mem :=
  wr_wf _ _ _ hm

theorem not_entryAt_of_mem {tap port : Nat} {l : List PendingAck} {x : PendingAck}
    (h : x ∈ l.filter fun x => !entryAt tap port x) : ¬(x.tap = tap ∧ x.port = port) := by
  rw [← entryAt_iff]
  simpa using (List.mem_filter.1 h).2

/-! RETRY (R75, R101). -/

theorem buildRetry_eq {e : PendingAck} (h : firstCandidate s.tracker.table = some e) :
    (e.kind = .subscriber → buildRetry s = retrySubscriber e s) ∧ (e.kind = .retire → buildRetry s = retryRetire e s) := by
  constructor <;> intro hk <;> simp only [buildRetry, h, hk]

theorem updateEntry_eq (tap port : Nat) (f : PendingAck → PendingAck) (s : State) : updateEntry tap port f s =
    { s with tracker := { s.tracker with
      table := s.tracker.table.map fun x => if x.tap = tap ∧ x.port = port then f x else x } } := by
  simp only [updateEntry, entryAt_iff]

/-- R75: a status whose attempts alone change is in the counts as it was. -/
theorem writeStatus_attempts (i n : Nat) (s : State) :
    (writeStatus i (subStatus s i) { subStatus s i with attempts := n } s).order = s.order := by
  have hu : ∀ a b : Nat, a + b - b = a := Nat.add_sub_cancel
  show { s.order with
    unreached := s.order.unreached + countsUnreached (subStatus s i) - countsUnreached (subStatus s i)
    held := s.order.held + countsHeld (subStatus s i) - countsHeld (subStatus s i) } = s.order
  rw [hu, hu]

/-- R75, R101: the record and the entry of a subscriber's frame that is sent again. -/
def retried (e : PendingAck) (s : State) : State :=
  writeStatus e.subscriber (subStatus s e.subscriber) { subStatus s e.subscriber with attempts := e.attempts + 1 }
    (updateEntry e.tap e.port
      (fun x => { x with attempts := x.attempts + 1, command := subCommand s e.subscriber, phase := .sending }) s)

theorem retried_order (e : PendingAck) (s : State) : (retried e s).order = s.order :=
  writeStatus_attempts e.subscriber (e.attempts + 1) (updateEntry e.tap e.port
    (fun x => { x with attempts := x.attempts + 1, command := subCommand s e.subscriber, phase := .sending }) s)

theorem retried_frame (e : PendingAck) (s : State) : retried e s = { s with
    mem := (retried e s).mem, port := (retried e s).port
    tracker := { s.tracker with table := s.tracker.table.map fun x =>
      if x.tap = e.tap ∧ x.port = e.port then
        { x with attempts := x.attempts + 1, command := subCommand s e.subscriber, phase := .sending }
      else x } } := by
  have horder := retried_order e s
  have hentry := updateEntry_eq e.tap e.port
    (fun x => { x with attempts := x.attempts + 1, command := subCommand s e.subscriber, phase := .sending }) s
  have htracker : (retried e s).tracker = (updateEntry e.tap e.port
    (fun x => { x with attempts := x.attempts + 1, command := subCommand s e.subscriber, phase := .sending }) s).tracker := rfl
  have hrest : retried e s = { s with mem := (retried e s).mem, port := (retried e s).port, order := (retried e s).order
                                      tracker := (retried e s).tracker } := rfl
  rw [horder, htracker, hentry] at hrest
  exact hrest

theorem retried_wf (e : PendingAck) (hm : MemWf s.mem) : MemWf (retried e s).mem := wr_wf _ _ _ hm

theorem retried_kept (e : PendingAck) (s : State) : WordsKept [subscriberWord e.subscriber 8] s (retried e s) :=
  writeStatus_wordsKept e.subscriber _ _ (updateEntry e.tap e.port _ s)

theorem subStatus_retried {e : PendingAck} (hm : MemWf s.mem) (h : e.attempts < 7) :
    subStatus (retried e s) e.subscriber = { subStatus s e.subscriber with attempts := e.attempts + 1 } :=
  subStatus_writeStatus (s := updateEntry e.tap e.port _ s) hm (Nat.succ_lt_succ h)

theorem retrySubscriber_served {e : PendingAck} (hr : s.power.resetting = false) (h : servable s e.subscriber = true) :
    retrySubscriber e s = { retried e s with sched := { s.sched with
      link := .sending (authFor s e.subscriber e.sequence) (.ack e.tap e.port e.sequence) (s.time + 160) } } := by
  have hsend := sendFrame_eq (s := retried e s) hr (authFor s e.subscriber e.sequence) (.ack e.tap e.port e.sequence)
  rw [frameBits_authFor] at hsend
  exact (if_pos h).trans hsend

theorem retrySubscriber_lapsed {e : PendingAck} (h : servable s e.subscriber = false) : retrySubscriber e s =
    settle { freeWithLink e .settled s with sched := { s.sched with link := .idle } } :=
  if_neg (by rw [h]; decide)

theorem retryRetire_eq (hr : s.power.resetting = false) (e : PendingAck) : retryRetire e s = { s with
    sched := { s.sched with link :=
      (.sending (authFrame e.tap e.port e.sequence 0 0) (.ack e.tap e.port e.sequence) (s.time + 160)) }
    tracker := { s.tracker with table := s.tracker.table.map fun x =>
      if x.tap = e.tap ∧ x.port = e.port then { x with attempts := x.attempts + 1, phase := .sending } else x } } := by
  have hlen : frameBits (offFrame e.tap e.port e.sequence) = 160 := frameBits_authFrame _ _ _ _ _
  have hsend := sendFrame_eq
    (s := updateEntry e.tap e.port (fun x => { x with attempts := x.attempts + 1, phase := .sending }) s) hr
    (offFrame e.tap e.port e.sequence) (.ack e.tap e.port e.sequence)
  rw [hlen, updateEntry_eq] at hsend
  rw [retryRetire, updateEntry_eq]
  exact hsend

/-- Settles O40: the build reads the record once, and its end is that of the entry's kind. -/
theorem retryGrantSendsAgain : Obligations.RetryGrantSendsAgain := by
  unfold Obligations.RetryGrantSendsAgain
  refine ⟨fun e s hvcc hr hl he hk => ?_, fun e i s hm hvcc hr hl he hk hi => ?_⟩
  · exact next_latchArisen ((grantStep_granted hvcc hl buildRetry).trans (((buildRetry_eq he).2 hk).trans
      (retryRetire_eq hr e))) rfl
  · subst hi
    have hbuild := (grantStep_granted hvcc hl buildRetry).trans ((buildRetry_eq he).1 hk)
    refine ⟨fun hserve hatt => ?_, fun hserve => ?_⟩
    · refine ⟨_, congrArg (fun v => Host.Outcome.next (latchArisen s v)) (hbuild.trans (retrySubscriber_served hr hserve)), ?_⟩
      generalize hv : ({ retried e s with sched := { s.sched with
        link := .sending (authFor s e.subscriber e.sequence) (.ack e.tap e.port e.sequence) (s.time + 160) } } : State) = v
      have hframe := retried_frame e s
      have hmem : v.mem = (retried e s).mem := by rw [← hv]
      have hsub : subRd (latchArisen s v) e.subscriber 8 = subRd (retried e s) e.subscriber 8 :=
        (rd_latchArisen s v _).trans (rd_congr hmem _)
      refine ⟨by rw [latchArisen_sched, ← hv], by rw [latchArisen_tracker, ← hv, hframe],
        (subStatus_congr hsub).trans (subStatus_retried hm hatt), ?_, flagsFollow_latchArisen (by rw [← hv, hframe]), ?_⟩
      · exact (wordsKept_latchArisen _ _).2 fun a ha => (rd_congr hmem a).trans (retried_kept e s a ha)
      · rw [latchArisen_frame, ← hv, hframe]
    · refine ⟨_, congrArg (fun v => Host.Outcome.next (latchArisen s v)) (hbuild.trans (retrySubscriber_lapsed hserve)), rfl,
        fun x hx => not_entryAt_of_mem hx, ?_⟩
      have hstatus : subStatus { freeWithLink e .settled s with sched := { s.sched with link := .idle } } e.subscriber =
        { subStatus s e.subscriber with link := .settled } := subStatus_freeWithLink hm e .settled
      rw [hstatus]
      exact ⟨rfl, rfl, rfl, freeWithLink_counts e .settled s, freeWithLink_kept e .settled s, rfl⟩

/-! POLL and RETIRE (R77, R104, R112, R113). -/

theorem buildPoll_eq {i : Nat} (hp : s.plant.poll = none) (h : choosePoll s.plant.tree s.plant.pollPointer = some i) :
    buildPoll s = pollElement i s := by
  simp only [buildPoll, hp, h]

theorem pollEligible_of_choosePoll {t : Tree} {p i : Nat} (h : choosePoll t p = some i) : pollEligible t i = true :=
  List.find?_some h

theorem frameBits_pollFrame (address q : Nat) : frameBits (pollFrame address q) = 48 := frameBits_withCrc _

theorem addressOf_eq {i : Nat} {e : Element} (h : tableGet s.plant.tree i = some e) : addressOf s i = e.address := by
  simp only [addressOf, h]

theorem nextIndex_eq {i : Nat} (h : i ≤ 255) : nextIndex i = if i = 255 then 1 else i + 1 := by
  unfold nextIndex
  split <;> split <;> omega

/-- R113: the poll that is begun. -/
def pollBegun (i : Nat) (s : State) : State :=
  { wr s (elementWord i 6) 0 with plant := { s.plant with
      pollPointer := nextIndex i, pollSequence := sequenceAfter s.plant.pollSequence
      poll := some { index := i, address := addressOf s i, sequence := s.plant.pollSequence, phase := .sending
                     completed := 0, deadline := 0 } } }

theorem pollElement_eq (hr : s.power.resetting = false) (i : Nat) : pollElement i s = { pollBegun i s with
    sched := { s.sched with link :=
      (.sending (pollFrame (addressOf s i) s.plant.pollSequence) .poll (s.time + 48)) } } := by
  have hsend := sendFrame_eq (s := pollBegun i s) hr (pollFrame (addressOf s i) s.plant.pollSequence) .poll
  rw [frameBits_pollFrame] at hsend
  exact hsend

/-- R77, R104: the retire that is sent. -/
def retireSent (r : RetireEntry) (q : Nat) (s : State) : State :=
  { s with
    tracker := { s.tracker with
      table := s.tracker.table ++ [{ kind := .retire, subscriber := r.subscriber, tap := r.tap, port := r.port, sequence := q
                                     command := .off, attempts := 1, phase := .sending, deadline := 0, completed := 0 }]
      retireSequence := sequenceAfter q }
    order := { s.order with retires := markSent r.tap r.port q s.order.retires } }

theorem buildRetire_eq {r : RetireEntry} {q : Nat} (hr : s.power.resetting = false)
    (h : s.order.retires.find? (fun x => !x.sent) = some r)
    (hq : q = retireSequenceFor s.tracker.retireSequence r.avoided) : buildRetire s = { retireSent r q s with
      sched := { s.sched with link :=
        (.sending (authFrame r.tap r.port q 0 0) (.ack r.tap r.port q) (s.time + 160)) } } := by
  have hsend := sendFrame_eq (s := retireSent r q s) hr (offFrame r.tap r.port q) (.ack r.tap r.port q)
  have hlen : frameBits (offFrame r.tap r.port q) = 160 := frameBits_authFrame _ _ _ _ _
  rw [hlen] at hsend
  simp only [buildRetire, h, ← hq]
  exact hsend

theorem mem_markSent {tap port q : Nat} {rs : List RetireEntry} {x : RetireEntry} (h : x ∈ markSent tap port q rs)
    (ht : x.tap = tap) (hp : x.port = port) : x.sent = true ∧ x.lastSequence = some q := by
  obtain ⟨y, _, rfl⟩ := List.mem_map.1 h
  by_cases hy : y.tap = tap ∧ y.port = port
  · rw [if_pos hy]
    exact ⟨rfl, rfl⟩
  · rw [if_neg hy] at ht hp
    exact absurd ⟨ht, hp⟩ hy

/-- Settles O41: the poll chosen is the first that the search meets, and the retire sent the oldest that was not. -/
theorem pollAndRetireGrants : Obligations.PollAndRetireGrants := by
  unfold Obligations.PollAndRetireGrants
  refine ⟨fun i e s hm hvcc hr hl hpoll hi he => ⟨pollEligible_of_choosePoll hi, ?_⟩, fun r q s hvcc hr hl hfind hq => ?_⟩
  · have hindex := (choosePoll_index hi).2
    rw [← nextIndex_eq hindex, ← addressOf_eq he]
    exact ⟨_, next_latchArisen ((grantStep_granted hvcc hl buildPoll).trans ((buildPoll_eq hpoll hi).trans
      (pollElement_eq hr i))) rfl, rd_wr_same s _ _ hm, wordsKept_wr s _ _, rfl, rfl, rfl⟩
  · have hnext : q = retireSequenceFor s.tracker.retireSequence r.avoided := by
      rw [hq, retireSequenceFor, ite_not]
      rfl
    exact ⟨_, next_latchArisen ((grantStep_granted hvcc hl buildRetire).trans (buildRetire_eq hr hfind hnext)) rfl, rfl,
      fun x hx => mem_markSent hx, List.length_map _, rfl, rfl⟩

end Sys2Proof.Machine


/-! ## The grant of the head of the queue, and refill (R79, R80, R103) -/

namespace Sys2Proof.Machine

variable {s t u v : State} {c : FrameClass} {i q : Nat} {rest : List Nat}

/-! Refill (R80). -/

/-- R80: the order in which refill meets the marks: upward from the pointer, wrapping. -/
def meetsBefore (p x y : Nat) : Prop := (p ≤ x ∧ y < p) ∨ (x < y ∧ (y < p ∨ p ≤ x))

theorem refillOrder_pairwise {d : List Nat} (hd : d.Pairwise (· < ·)) (p : Nat) :
    (refillOrder d p).Pairwise (meetsBefore p) := by
  have hpart : ∀ f : Nat → Bool, (∀ x y, f x = true → f y = true → y < p ∨ p ≤ x) → (d.filter f).Pairwise (meetsBefore p) :=
    fun f hf => (hd.filter f).imp_of_mem fun hx hy hlt =>
      .inr ⟨hlt, hf _ _ (List.mem_filter.1 hx).2 (List.mem_filter.1 hy).2⟩
  refine List.pairwise_append.2 ⟨hpart _ fun x y hx _ => .inr (of_decide_eq_true hx),
    hpart _ fun x y _ hy => .inl (of_decide_eq_true hy), fun x hx y hy => .inl ?_⟩
  exact ⟨of_decide_eq_true (List.mem_filter.1 hx).2, of_decide_eq_true (List.mem_filter.1 hy).2⟩

theorem refill_queue (s : State) : (refill s).sched.queue = s.sched.queue ++ refillMoved s := by
  cases h : (refillMoved s).getLast? with
  | none =>
    rw [List.getLast?_eq_none_iff] at h
    rw [refill_of_nil h, h, List.append_nil]
  | some x => rw [refill_of_last h]

theorem refill_deferred (s : State) :
    (refill s).sched.deferred = s.sched.deferred.filter fun x => decide (x ∉ refillMoved s) := by
  cases h : (refillMoved s).getLast? with
  | none =>
    rw [List.getLast?_eq_none_iff] at h
    rw [refill_of_nil h, h]
    exact (List.filter_eq_self.2 fun x _ => decide_eq_true List.not_mem_nil).symm
  | some x => rw [refill_of_last h]

theorem mem_refill_deferred (s : State) (x : Nat) :
    x ∈ (refill s).sched.deferred ↔ x ∈ s.sched.deferred ∧ x ∉ refillMoved s := by
  rw [refill_deferred, List.mem_filter, decide_eq_true_eq]

theorem refill_keeps (s : State) : refill s = { s with sched := { s.sched with
    queue := (refill s).sched.queue, deferred := (refill s).sched.deferred
    refillPointer := (refill s).sched.refillPointer } } := by
  cases h : (refillMoved s).getLast? with
  | none => rw [refill_of_nil (List.getLast?_eq_none_iff.1 h)]
  | some x => rw [refill_of_last h]

/-- R80: refill ends with a full queue or no mark left. -/
theorem refill_fills (hlen : s.sched.queue.length ≤ 64) :
    (refill s).sched.queue.length = 64 ∨ (refill s).sched.deferred = [] := by
  by_cases h : 64 - s.sched.queue.length ≤ (refillOrder s.sched.deferred s.sched.refillPointer).length
  · left
    rw [refill_queue, List.length_append, refillMoved, List.length_take, queueCapacity, Nat.min_eq_left h]
    omega
  · right
    have hall : refillMoved s = refillOrder s.sched.deferred s.sched.refillPointer :=
      List.take_of_length_le (Nat.le_of_not_le h)
    rw [refill_deferred, hall, List.filter_eq_nil_iff]
    intro x hx
    rw [decide_eq_true_eq, not_not]
    exact (refillOrder_perm _ _).mem_iff.2 hx

/-- R80: the marks moved, the marks left, and the pointer. -/
theorem refill_moves_in_order (h : CapacityLaw s) :
    ∃ moved, (refill s).sched.queue = s.sched.queue ++ moved ∧ moved.Pairwise (meetsBefore s.sched.refillPointer) ∧
      (∀ x, x ∈ s.sched.deferred ↔ x ∈ moved ∨ x ∈ (refill s).sched.deferred) ∧
      (∀ x ∈ moved, ∀ y ∈ (refill s).sched.deferred, meetsBefore s.sched.refillPointer x y) ∧
      ((refill s).sched.queue.length = 64 ∨ (refill s).sched.deferred = []) ∧
      (moved = [] → refill s = s) ∧
      (∀ x, moved.getLast? = some x → (refill s).sched.refillPointer = (x + 1) % 4096) ∧
      refill s = { s with sched := { s.sched with
        queue := (refill s).sched.queue, deferred := (refill s).sched.deferred
        refillPointer := (refill s).sched.refillPointer } } := by
  obtain ⟨hqueue, -, -, -, hrising, -⟩ := h
  have horder := refillOrder_pairwise hrising s.sched.refillPointer
  refine ⟨refillMoved s, refill_queue s, horder.sublist (List.take_sublist _ _), fun x => ?_, fun x hx y hy => ?_,
    refill_fills hqueue, refill_of_nil, fun x hx => by rw [refill_of_last hx], refill_keeps s⟩
  · rw [mem_refill_deferred]
    by_cases hx : x ∈ refillMoved s
    · exact ⟨fun _ => .inl hx, fun _ => refillMoved_subset hx⟩
    · exact ⟨fun h => .inr ⟨h, hx⟩, fun h => h.elim (absurd · hx) And.left⟩
  · obtain ⟨hmem, hleft⟩ := (mem_refill_deferred s y).1 hy
    rw [← List.take_append_drop (queueCapacity - s.sched.queue.length)
      (refillOrder s.sched.deferred s.sched.refillPointer), List.pairwise_append] at horder
    have hy' := (refillOrder_perm s.sched.deferred s.sched.refillPointer).mem_iff.2 hmem
    rw [← List.take_append_drop (queueCapacity - s.sched.queue.length)
      (refillOrder s.sched.deferred s.sched.refillPointer), List.mem_append] at hy'
    exact horder.2.2 x hx y (hy'.resolve_left hleft)

/-! The head of the queue (R79). -/

theorem refill_sched_congr (h : t.sched = s.sched) : (refill t).sched = (refill s).sched := by
  have hmoved : refillMoved t = refillMoved s := by rw [refillMoved, h, refillMoved]
  cases hl : (refillMoved s).getLast? with
  | none =>
    rw [List.getLast?_eq_none_iff] at hl
    rw [refill_of_nil (hmoved.trans hl), refill_of_nil hl, h]
  | some x =>
    rw [refill_of_last hl, refill_of_last (hmoved ▸ hl), hmoved, h]

theorem afterPop_congr (h : t.sched = s.sched) (rest : List Nat) : afterPop rest t = afterPop rest s := by
  have hrefill : (refill { t with sched := { t.sched with queue := rest } }).sched =
    (refill { s with sched := { s.sched with queue := rest } }).sched := refill_sched_congr (by simp only [h])
  simp only [h] at hrefill
  simp only [afterPop, h, hrefill]

theorem unstopSweeps_sched (s : State) : (unstopSweeps s).sched = { s.sched with
    sweeps := if s.sched.queue.length < 64 then s.sched.sweeps.map (fun w => { w with stopped := false })
      else s.sched.sweeps } := by
  by_cases h : s.sched.queue.length < 64
  · rw [if_pos h]
    exact congrArg State.sched (if_pos h)
  · rw [if_neg h]
    exact congrArg State.sched (if_neg h)

theorem popQueue_sched (rest : List Nat) (s : State) : (popQueue rest s).sched = afterPop rest s := by
  rw [popQueue, unstopSweeps_sched, afterPop]
  split <;> rfl

/-- R72, R79: the state in which the build has read its record and the head has left the queue. -/
def popped (rest : List Nat) (s : State) : State := { s with sched := afterPop rest s, port := (partRead s).port }

theorem popQueue_partRead (rest : List Nat) (s : State) : popQueue rest (partRead s) = popped rest s := by
  rw [popQueue_frame, popQueue_sched, afterPop_congr (t := partRead s) (s := s) rfl]
  rfl

theorem afterPop_queue_long (h : 32 < rest.length) (s : State) : (afterPop rest s).queue = rest := by
  rw [afterPop, if_neg (Nat.not_le.2 h)]

theorem afterPop_queue_short (h : rest.length ≤ 32) (s : State) : (afterPop rest s).queue =
    (refill { s with sched := { s.sched with queue := rest } }).sched.queue := by
  rw [afterPop, if_pos h]

/-- R79 step 4: the new pending entry of a subscriber. -/
def newEntry (i q : Nat) (s : State) : PendingAck :=
  { kind := .subscriber, subscriber := i, tap := subTap s i, port := subPort s i, sequence := q
    command := subCommand s i, attempts := 1, phase := .sending, deadline := 0, completed := 0 }

/-- R79 steps 2 to 4: the record and the pending entry of a subscriber that is served. -/
def served (i q : Nat) (s : State) : State :=
  let v := supersede i (wr s (subscriberWord i 9) (wordOf q))
  writeStatus i (subStatus s i) { subStatus s i with link := .awaiting, attempts := 1 }
    { v with tracker := { v.tracker with table := v.tracker.table ++ [newEntry i q s] } }

theorem serveSubscriber_eq (hr : s.power.resetting = false) (hq : q = serviceSequence (subRd s i 9).toNat) :
    serveSubscriber i s = { served i q s with sched := { s.sched with
      link := .sending (authFor s i q) (.ack (subTap s i) (subPort s i) q) (s.time + 160) } } := by
  have hsend := sendFrame_eq (s := served i q s) hr (authFor s i q) (.ack (subTap s i) (subPort s i) q)
  rw [frameBits_authFor] at hsend
  rw [serveSubscriber, ← hq]
  exact hsend

theorem served_frame (i q : Nat) (s : State) : served i q s = { s with
    mem := (served i q s).mem, port := (served i q s).port
    tracker := { s.tracker with table := (s.tracker.table.filter fun e => !isEntryOf i e) ++ [newEntry i q s] }
    order := { s.order with unreached := (served i q s).order.unreached, held := (served i q s).order.held } } := rfl

theorem served_wf (i q : Nat) (hm : MemWf s.mem) : MemWf (served i q s).mem := wr_wf _ _ _ (wr_wf _ _ _ hm)

theorem subStatus_served (hm : MemWf s.mem) (i q : Nat) :
    subStatus (served i q s) i = { subStatus s i with link := .awaiting, attempts := 1 } := by
  have hwf := wr_wf s (subscriberWord i 9) (wordOf q) hm
  exact subStatus_writeStatus (s := { supersede i (wr s (subscriberWord i 9) (wordOf q)) with tracker := _ }) hwf (show 1 < 8 by decide)

theorem subRd_served_sequence (hm : MemWf s.mem) (i q : Nat) : subRd (served i q s) i 9 = wordOf q := by
  have hkept : subRd (served i q s) i 9 = subRd (wr s (subscriberWord i 9) (wordOf q)) i 9 :=
    subRd_writeStatus_other (by decide) (.inr (by decide))
  rw [hkept]
  exact rd_wr_same s _ _ hm

theorem served_kept (i q : Nat) (s : State) : WordsKept [subscriberWord i 8, subscriberWord i 9] s (served i q s) := by
  intro a ha
  rw [List.mem_cons, List.mem_singleton, not_or] at ha
  exact (wordsKept_wr (wr s (subscriberWord i 9) (wordOf q)) _ _ a (by rw [List.mem_singleton]; exact ha.1)).trans
    (wordsKept_wr s _ _ a (by rw [List.mem_singleton]; exact ha.2))

theorem served_counts (i q : Nat) (s : State) :
    CountsMoved (subStatus s i) { subStatus s i with link := .awaiting, attempts := 1 } s (served i q s) := ⟨rfl, rfl⟩

theorem buildImmediate_eq (hq : s.sched.queue = i :: rest) : buildImmediate s =
    if servable s i then serveSubscriber i (popped rest s) else lapse (popped rest s) := by
  simp only [buildImmediate, hq, popQueue_partRead]
  rfl

/-- Settles O42: the head is served or lapses on the state after its removal; refill by the order in which it meets the
marks. -/
theorem immediateGrantAndRefill : Obligations.ImmediateGrantAndRefill := by
  unfold Obligations.ImmediateGrantAndRefill
  refine ⟨fun i q rest s hm hvcc hr hl hqueue _ hq => ?_, fun p before s hcap hp hbefore => ?_⟩
  · have hbuild := (grantStep_granted hvcc hl buildImmediate).trans (buildImmediate_eq hqueue)
    refine ⟨fun hserve => ?_, fun hserve => ?_⟩
    · rw [if_pos hserve] at hbuild
      refine ⟨_, congrArg (fun v => Host.Outcome.next (latchArisen s v))
        (hbuild.trans (serveSubscriber_eq (s := popped rest s) hr hq)), ?_⟩
      generalize hv : ({ served i q (popped rest s) with sched := { (popped rest s).sched with
        link := .sending (authFor (popped rest s) i q)
          (.ack (subTap (popped rest s) i) (subPort (popped rest s) i) q) ((popped rest s).time + 160) } } : State) = v
      have hmem : v.mem = (served i q (popped rest s)).mem := by rw [← hv]
      have hword : ∀ w, subRd (latchArisen s v) i w = subRd (served i q (popped rest s)) i w := fun w =>
        (rd_latchArisen s v _).trans (rd_congr hmem _)
      have hstatus := (subStatus_congr (hword 8)).trans (subStatus_served (s := popped rest s) hm i q)
      have hsched : (latchArisen s v).sched = { afterPop rest s with
          link := .sending (authFor s i q) (.ack (subTap s i) (subPort s i) q) (s.time + 160) } := by
        rw [latchArisen_sched, ← hv]
        rfl
      refine ⟨(hword 9).trans (subRd_served_sequence (s := popped rest s) hm i q), hstatus, ?_, by rw [hsched], fun h => ?_,
        fun h => ?_, by rw [hsched], ?_, ?_, flagsFollow_latchArisen (by rw [← hv]; rfl), ?_⟩
      · rw [latchArisen_tracker, ← hv]
        rfl
      · rw [hsched]
        exact afterPop_queue_long h s
      · rw [hsched]
        exact afterPop_queue_short h s
      · rw [hstatus, CountsMoved, latchArisen_order, ← hv]
        exact served_counts i q (popped rest s)
      · exact (wordsKept_latchArisen _ _).2 fun a ha => (rd_congr hmem a).trans (served_kept i q (popped rest s) a ha)
      · rw [latchArisen_frame, ← hv]
        rfl
    · rw [if_neg (by rw [hserve]; decide)] at hbuild
      exact ⟨_, congrArg (fun v => Host.Outcome.next (latchArisen s v)) hbuild, rfl, fun h => afterPop_queue_long h s, rfl,
        partRead_port, rfl⟩
  · obtain rfl : before = meetsBefore p := funext fun x => funext fun y => propext (hbefore x y)
    subst hp
    exact refill_moves_in_order hcap

end Sys2Proof.Machine


/-! ## The visit engine (R83 to R88) -/

namespace Sys2Proof.Machine

variable {s t u v : State} {c i : Nat} {w : Sweep}

/-! Sweep visits (R84, R85). -/

theorem sweepsLeft_eq (ws : List Sweep) : ws.filter (fun w => !sweepEnded w) = sweepsLeft ws := by
  refine List.filter_congr fun w _ => ?_
  rw [sweepEnded, sweepHolds, subscriberCount, Bool.not_or, Bool.and_assoc, Option.not_isSome,
    Bool.and_comm w.held.isNone]

theorem mem_sweepsLeft_of_cursor {ws : List Sweep} (h : w ∈ ws) (hc : w.cursor < 4096) : w ∈ sweepsLeft ws := by
  rw [← sweepsLeft_eq, List.mem_filter]
  refine ⟨h, ?_⟩
  rw [Bool.not_eq_true', ← Bool.not_eq_true, sweepEnded_iff]
  exact fun hended => absurd hended.1 (Nat.not_le.2 hc)

theorem mem_sweepsLeft_of_held {ws : List Sweep} (h : w ∈ ws) (hh : w.held ≠ none) : w ∈ sweepsLeft ws := by
  rw [← sweepsLeft_eq, List.mem_filter]
  refine ⟨h, ?_⟩
  rw [Bool.not_eq_true', ← Bool.not_eq_true, sweepEnded_iff]
  exact fun hended => hh hended.2.1

/-- R84, R85: the scheduler when the first sweep of a kind has been changed and the ended ones have left. -/
def sweepChanged (p : Sweep → Bool) (f : Sweep → Sweep) (s : State) : Scheduler :=
  { s.sched with sweeps := sweepsLeft (updateFirstSweep p f s.sched.sweeps) }

theorem removeEndedSweeps_changeSweep (p : Sweep → Bool) (f : Sweep → Sweep) (s : State) :
    removeEndedSweeps (changeSweep p f s) = { s with sched := sweepChanged p f s } := by
  rw [removeEndedSweeps, sweepsLeft_eq]
  rfl

theorem sweepChanged_mem {p : Sweep → Bool} {f : Sweep → Sweep} (h : s.sched.sweeps.find? p = some w)
    (hc : (f w).cursor < 4096 ∨ (f w).held ≠ none) : f w ∈ (sweepChanged p f s).sweeps :=
  hc.elim (mem_sweepsLeft_of_cursor (updateFirstSweep_mem h f)) (mem_sweepsLeft_of_held (updateFirstSweep_mem h f))

theorem sweepChanged_append {p : Sweep → Bool} {f : Sweep → Sweep} {older newer : List Sweep} (hw : p w = true)
    (hs : s.sched.sweeps = older ++ w :: newer) (holder : ∀ x ∈ older, p x = false) :
    sweepChanged p f s = { s.sched with sweeps := sweepsLeft (older ++ f w :: newer) } := by
  rw [sweepChanged, hs, updateFirstSweep_append hw holder]

/-- R85: a requeue sweep that goes on to its next record. -/
def Sweep.passedOn (w : Sweep) : Sweep := { w with cursor := w.cursor + 1 }

theorem visitRequeue_passes (h : requeueMatches w.kind s w.cursor = false ∨ isWaiting s w.cursor = true) :
    visitRequeue w s = changeSweep wantsRequeue Sweep.passedOn s := if_pos h

theorem visitRequeue_submits (hm : requeueMatches w.kind s w.cursor = true) (hw : isWaiting s w.cursor = false)
    (hroom : s.sched.queue.length < 64) :
    visitRequeue w s = submit w.cursor (changeSweep wantsRequeue Sweep.passedOn s) := by
  rw [visitRequeue, if_neg (by rw [hm, hw]; decide)]
  exact if_pos hroom

theorem visitRequeue_stops (hm : requeueMatches w.kind s w.cursor = true) (hw : isWaiting s w.cursor = false)
    (hfull : 64 ≤ s.sched.queue.length) :
    visitRequeue w s = changeSweep wantsRequeue (fun v => { v with stopped := true }) s := by
  rw [visitRequeue, if_neg (by rw [hm, hw]; decide)]
  exact if_neg (Nat.not_lt.2 hfull)

/-- The sweeps are no part of what a submission changes. -/
theorem removeEndedSweeps_submit (hw : isWaiting s i = false) (hroom : s.sched.queue.length < 64)
    (p : Sweep → Bool) (f : Sweep → Sweep) : removeEndedSweeps (submit i (changeSweep p f s)) = { s with
      sched := { sweepChanged p f s with queue := s.sched.queue ++ [i], refresh := s.sched.refresh.woken } } := by
  have hsched : (submit i (changeSweep p f s)).sched = { (changeSweep p f s).sched with
    queue := s.sched.queue ++ [i], refresh := s.sched.refresh.woken } := submit_room (s := changeSweep p f s) hw hroom
  rw [submit_frame, hsched, removeEndedSweeps, sweepsLeft_eq]
  rfl

/-- R83, R85: the visit of a requeue sweep, by what it does. -/
theorem exec_sweepVisit_requeue (hv : visitsRun s = true) (hw : s.sched.sweeps.find? wantsRequeue = some w) :
    exec .sweepVisit s = .next (concluded s (removeEndedSweeps (visitRequeue w (partRead s)))) := by
  show Host.Outcome.next (latchArisen s (if visitsRun s then visitSweep s else s)) = _
  simp only [hv, visitSweep, hw, if_true]
  rfl

theorem exec_sweepVisit_broadcast (hv : visitsRun s = true) (hn : s.sched.sweeps.find? wantsRequeue = none)
    (hw : s.sched.sweeps.find? wantsBroadcast = some w) : exec .sweepVisit s =
      .next (concluded s (removeEndedSweeps (changeSweep wantsBroadcast (visitBroadcast s) (partRead s)))) := by
  show Host.Outcome.next (latchArisen s (if visitsRun s then visitSweep s else s)) = _
  simp only [hv, visitSweep, hn, hw, if_true]
  rfl

theorem wantsRequeue_iff (w : Sweep) : wantsRequeue w = true ↔
    ((∃ e, w.kind = .restore e) ∨ w.kind = .resync) ∧ w.stopped = false ∧ w.cursor < 4096 := by
  rw [wantsRequeue, Bool.and_eq_true, Bool.and_eq_true, Bool.not_eq_true', decide_eq_true_eq, and_assoc]
  refine and_congr_left' ?_
  cases w.kind <;> simp [SweepKind.requeue]

theorem wantsBroadcast_iff (w : Sweep) : wantsBroadcast w = true ↔
    (w.kind = .lineup ∨ ∃ j n, w.kind = .eventStart j n ∨ w.kind = .eventEnd j n) ∧ w.held = none ∧
      (w.kind = .lineup → 8 ≤ w.maps) ∧ w.cursor < 4096 := by
  have hholds : sweepHolds w = false ↔ w.held = none ∧ (w.kind = .lineup → 8 ≤ w.maps) := by
    rw [← Bool.not_eq_true, sweepHolds_iff, not_or, not_and, not_not, and_comm]
    simp only [Nat.not_lt]
  rw [wantsBroadcast, Bool.and_eq_true, Bool.and_eq_true, Bool.not_eq_true', Bool.not_eq_true', hholds, decide_eq_true_eq,
    and_assoc, and_assoc]
  refine and_congr_left' ?_
  cases w.kind <;> simp [SweepKind.requeue]

/-- R88: what a visit does with the refresh state and with the queue. -/
def refreshVisited (s : State) : Scheduler :=
  let o := refreshOutcome s s.sched.refresh.cursor
  let after := refreshAfter s.lineup.image.isSome o s.sched.refresh
  { s.sched with
    queue := if o = .submitted then s.sched.queue ++ [s.sched.refresh.cursor] else s.sched.queue
    refresh := if o = .submitted then after.woken else after }

/-- R87: the records that a refresh visit passes. -/
theorem refreshOutcome_passed (h : servable s i = false ∨ isWaiting s i = true ∨ (subStatus s i).link = .awaiting ∨
    ((subStatus s i).link = .held ∧ isDark s.plant.tree (subFeed s i) = true)) : refreshOutcome s i = .passed := by
  unfold refreshOutcome
  dsimp only
  by_cases hs : servable s i = false
  · rw [if_pos hs]
  · by_cases hw : isWaiting s i = true
    · rw [if_neg hs, if_pos hw]
    · rw [if_neg hs, if_neg hw]
      rcases (h.resolve_left hs).resolve_left hw with ha | ⟨hh, hd⟩
      · rw [ha]
      · rw [hh, hd]
        rfl

theorem refreshOutcome_settled (hs : servable s i = true) (hw : isWaiting s i = false) (h : (subStatus s i).link = .settled) :
    refreshOutcome s i = .held := by
  simp only [refreshOutcome, hs, hw, h, if_false, Bool.true_eq_false, Bool.false_eq_true]

/-- R87: a record to be sent again is submitted with room in the queue, and held without. -/
theorem refreshOutcome_resent (hs : servable s i = true) (hw : isWaiting s i = false) (h : (subStatus s i).link = .unreached ∨
    ((subStatus s i).link = .held ∧ isDark s.plant.tree (subFeed s i) = false)) :
    refreshOutcome s i = if s.sched.queue.length < 64 then .submitted else .held := by
  rcases h with h | ⟨h, hd⟩
  · simp only [refreshOutcome, hs, hw, h, if_false, Bool.true_eq_false, Bool.false_eq_true]
    rfl
  · simp only [refreshOutcome, hs, hw, h, hd, if_false, Bool.true_eq_false, Bool.false_eq_true]
    rfl

/-- R87: the four cases of a visited record. -/
theorem refreshOutcome_cases (s : State) (i : Nat) :
    (servable s i = false ∨ isWaiting s i = true ∨ (subStatus s i).link = .awaiting ∨
      ((subStatus s i).link = .held ∧ isDark s.plant.tree (subFeed s i) = true)) ∨
    (servable s i = true ∧ isWaiting s i = false ∧ ((subStatus s i).link = .settled ∨ ((subStatus s i).link = .unreached ∨
      ((subStatus s i).link = .held ∧ isDark s.plant.tree (subFeed s i) = false)))) := by
  cases servable s i <;> cases isWaiting s i <;> cases (subStatus s i).link <;> cases isDark s.plant.tree (subFeed s i) <;> simp

theorem refreshOutcome_submitted (h : refreshOutcome s i = .submitted) :
    isWaiting s i = false ∧ s.sched.queue.length < 64 := by
  rcases refreshOutcome_cases s i with hp | ⟨hs, hw, hl | hl⟩
  · rw [refreshOutcome_passed hp] at h
    cases h
  · rw [refreshOutcome_settled hs hw hl] at h
    cases h
  · rw [refreshOutcome_resent hs hw hl] at h
    by_cases hroom : s.sched.queue.length < 64
    · exact ⟨hw, hroom⟩
    · rw [if_neg hroom] at h
      cases h

/-- R88: refresh after its visit, before the submission that may follow. -/
def refreshSeen (s : State) : State :=
  setRefresh (refreshAfter s.lineup.image.isSome (refreshOutcome s s.sched.refresh.cursor) s.sched.refresh) (partRead s)

theorem visitRefresh_eq (s : State) :
    visitRefresh s = settle { s with sched := refreshVisited s, port := (partRead s).port } := by
  show settle (if refreshOutcome s s.sched.refresh.cursor = .submitted then submit s.sched.refresh.cursor (refreshSeen s)
    else refreshSeen s) = _
  by_cases h : refreshOutcome s s.sched.refresh.cursor = .submitted
  · obtain ⟨hw, hroom⟩ := refreshOutcome_submitted h
    rw [if_pos h, submit_frame, submit_room (s := refreshSeen s) hw hroom, refreshVisited]
    simp only [h, if_true, refreshSeen]
    rfl
  · rw [if_neg h, refreshVisited]
    simp only [h, if_false, refreshSeen]
    rfl

theorem exec_refreshVisit (hv : visitsRun s = true) (hs : sweepWants s = false) (hr : refreshVisits s.sched.refresh = true) :
    exec .refreshVisit s = .next (concluded s { s with sched := refreshVisited s, port := (partRead s).port }) := by
  show Host.Outcome.next (latchArisen s
    (if visitsRun s = true ∧ sweepWants s = false ∧ refreshVisits s.sched.refresh = true then visitRefresh s else s)) = _
  rw [if_pos ⟨hv, hs, hr⟩, visitRefresh_eq]
  rfl

/-! Refresh after a visit (R88). -/

section refresh
variable {o : RefreshOutcome} {r : Refresh} {valid : Bool}

@[simp] theorem woken_cursor (r : Refresh) : r.woken.cursor = r.cursor := by
  unfold Refresh.woken
  split <;> rfl

@[simp] theorem woken_held (r : Refresh) : r.woken.held = r.held := by
  unfold Refresh.woken
  split <;> rfl

@[simp] theorem woken_maps (r : Refresh) : r.woken.maps = r.maps := by
  unfold Refresh.woken
  split <;> rfl

theorem wraps_iff (hc : r.cursor < 4096) : subscriberCount ≤ r.cursor + 1 ↔ r.cursor = 4095 := by
  rw [subscriberCount]
  omega

theorem refreshAfter_wrapped (hc : r.cursor = 4095) (o : RefreshOutcome) : refreshAfter true o r =
    { cursor := 0, held := if o = .held then some r.cursor else none, maps := 0, resting := false, visits := 0 } := by
  have hw : subscriberCount ≤ r.cursor + 1 := (wraps_iff (by omega)).2 hc
  simp only [refreshAfter, decide_eq_true hw, if_true, and_self]

theorem refreshAfter_held (hc : r.cursor < 4096) (h : r.cursor ≠ 4095 ∨ valid = false) : refreshAfter valid .held r =
    { r with cursor := if r.cursor = 4095 then 0 else r.cursor + 1, held := some r.cursor, visits := 0 } := by
  have hn : ¬(r.cursor = 4095 ∧ valid = true) :=
    fun hw => h.elim (fun h => h hw.1) fun h => Bool.noConfusion (h.symm.trans hw.2)
  simp only [refreshAfter, if_true, decide_eq_true_eq, wraps_iff hc, if_neg hn]

theorem refreshAfter_other (hc : r.cursor < 4096) (h : r.cursor ≠ 4095 ∨ valid = false) (ho : o ≠ .held) :
    refreshAfter valid o r = { r with
      cursor := if r.cursor = 4095 then 0 else r.cursor + 1, visits := r.visits + 1
      resting := decide (4096 ≤ r.visits + 1) } := by
  have hn : ¬(r.cursor = 4095 ∧ valid = true) :=
    fun hw => h.elim (fun h => h hw.1) fun h => Bool.noConfusion (h.symm.trans hw.2)
  simp only [refreshAfter, if_neg ho, decide_eq_true_eq, wraps_iff hc, if_neg hn]
  rfl

/-- R88: a batch is owed at the wrap. -/
theorem refreshVisited_wrapped (hc : s.sched.refresh.cursor = 4095) (him : s.lineup.image ≠ none) :
    (refreshVisited s).refresh = { cursor := 0, maps := 0, resting := false, visits := 0, held :=
      (if refreshOutcome s s.sched.refresh.cursor = .held then some s.sched.refresh.cursor else none) } := by
  simp only [refreshVisited, Option.isSome_iff_ne_none.2 him, refreshAfter_wrapped hc, Refresh.woken, ite_self,
    Bool.false_eq_true]

variable (hc : s.sched.refresh.cursor < 4096) (h : s.sched.refresh.cursor ≠ 4095 ∨ s.lineup.image = none)
include hc h

theorem refreshVisited_held (ho : refreshOutcome s s.sched.refresh.cursor = .held) :
    (refreshVisited s).refresh = { s.sched.refresh with
      cursor := if s.sched.refresh.cursor = 4095 then 0 else s.sched.refresh.cursor + 1
      held := some s.sched.refresh.cursor, visits := 0 } := by
  have hv : s.sched.refresh.cursor ≠ 4095 ∨ s.lineup.image.isSome = false :=
    h.imp_right fun hn => by rw [hn]; rfl
  simp only [refreshVisited, ho, refreshAfter_held hc hv, if_false, reduceCtorEq]

theorem refreshVisited_passed (ho : refreshOutcome s s.sched.refresh.cursor = .passed) :
    (refreshVisited s).refresh = { s.sched.refresh with
      cursor := if s.sched.refresh.cursor = 4095 then 0 else s.sched.refresh.cursor + 1
      visits := s.sched.refresh.visits + 1, resting := decide (4096 ≤ s.sched.refresh.visits + 1) } := by
  have hv : s.sched.refresh.cursor ≠ 4095 ∨ s.lineup.image.isSome = false :=
    h.imp_right fun hn => by rw [hn]; rfl
  simp only [refreshVisited, ho, refreshAfter_other (o := .passed) hc hv (by decide), if_false, reduceCtorEq]

theorem refreshVisited_submitted (ho : refreshOutcome s s.sched.refresh.cursor = .submitted) :
    (refreshVisited s).refresh = { s.sched.refresh with
      cursor := if s.sched.refresh.cursor = 4095 then 0 else s.sched.refresh.cursor + 1, resting := false
      visits := if 4096 ≤ s.sched.refresh.visits + 1 then 0 else s.sched.refresh.visits + 1 } := by
  have hv : s.sched.refresh.cursor ≠ 4095 ∨ s.lineup.image.isSome = false :=
    h.imp_right fun hn => by rw [hn]; rfl
  simp only [refreshVisited, ho, refreshAfter_other (o := .submitted) hc hv (by decide), if_true, Refresh.woken,
    decide_eq_true_eq]
  by_cases hrest : 4096 ≤ s.sched.refresh.visits + 1
  · rw [if_pos hrest, if_pos hrest]
  · rw [if_neg hrest, if_neg hrest, decide_eq_false hrest]

end refresh

theorem refreshVisited_queue (s : State) : (refreshVisited s).queue =
    if refreshOutcome s s.sched.refresh.cursor = .submitted then s.sched.queue ++ [s.sched.refresh.cursor]
    else s.sched.queue := rfl

/-- R88: refresh holds the record that it could not submit, and no other. -/
theorem refreshVisited_holds (hc : s.sched.refresh.cursor < 4096) (hh : s.sched.refresh.held = none) :
    (refreshVisited s).refresh.held =
      if refreshOutcome s s.sched.refresh.cursor = .held then some s.sched.refresh.cursor else none := by
  by_cases hw : s.sched.refresh.cursor = 4095 ∧ s.lineup.image ≠ none
  · rw [refreshVisited_wrapped hw.1 hw.2]
  · have h : s.sched.refresh.cursor ≠ 4095 ∨ s.lineup.image = none := by tauto
    cases ho : refreshOutcome s s.sched.refresh.cursor with
    | passed => rw [refreshVisited_passed hc h ho]; exact hh
    | submitted => rw [refreshVisited_submitted hc h ho]; exact hh
    | held => rw [refreshVisited_held hc h ho]; rfl

theorem refreshVisited_cursor (hc : s.sched.refresh.cursor < 4096) : (refreshVisited s).refresh.cursor =
    if s.sched.refresh.cursor = 4095 then 0 else s.sched.refresh.cursor + 1 := by
  by_cases hw : s.sched.refresh.cursor = 4095 ∧ s.lineup.image ≠ none
  · rw [refreshVisited_wrapped hw.1 hw.2, if_pos hw.1]
  · have h : s.sched.refresh.cursor ≠ 4095 ∨ s.lineup.image = none := by tauto
    cases ho : refreshOutcome s s.sched.refresh.cursor with
    | passed => rw [refreshVisited_passed hc h ho]
    | submitted => rw [refreshVisited_submitted hc h ho]
    | held => rw [refreshVisited_held hc h ho]

theorem refreshVisited_maps (hc : s.sched.refresh.cursor < 4096)
    (h : s.sched.refresh.cursor ≠ 4095 ∨ s.lineup.image = none) :
    (refreshVisited s).refresh.maps = s.sched.refresh.maps := by
  cases ho : refreshOutcome s s.sched.refresh.cursor with
  | passed => rw [refreshVisited_passed hc h ho]
  | submitted => rw [refreshVisited_submitted hc h ho]
  | held => rw [refreshVisited_held hc h ho]

/-- R88: the count of visits, and the rest. -/
theorem refreshVisited_counts (hc : s.sched.refresh.cursor < 4096)
    (h : s.sched.refresh.cursor ≠ 4095 ∨ s.lineup.image = none) (hh : s.sched.refresh.held = none)
    (hr : s.sched.refresh.resting = false) :
    ((refreshVisited s).refresh.held ≠ none →
      (refreshVisited s).refresh.visits = 0 ∧ (refreshVisited s).refresh.resting = false) ∧
    ((refreshVisited s).refresh.held = none → (refreshVisited s).queue = s.sched.queue →
      (refreshVisited s).refresh.visits = s.sched.refresh.visits + 1 ∧
        (refreshVisited s).refresh.resting = decide (4096 ≤ s.sched.refresh.visits + 1)) ∧
    ((refreshVisited s).queue ≠ s.sched.queue → (refreshVisited s).refresh.resting = false ∧
      (refreshVisited s).refresh.visits =
        if 4096 ≤ s.sched.refresh.visits + 1 then 0 else s.sched.refresh.visits + 1) := by
  cases ho : refreshOutcome s s.sched.refresh.cursor with
  | passed =>
    have hq : (refreshVisited s).queue = s.sched.queue := by rw [refreshVisited_queue, ho]; rfl
    rw [refreshVisited_passed hc h ho, hq]
    exact ⟨fun hne => absurd hh hne, fun _ _ => ⟨rfl, rfl⟩, fun hne => absurd rfl hne⟩
  | submitted =>
    have hq : (refreshVisited s).queue = s.sched.queue ++ [s.sched.refresh.cursor] := by rw [refreshVisited_queue, ho]; rfl
    rw [refreshVisited_submitted hc h ho, hq]
    exact ⟨fun hne => absurd hh hne, fun _ heq => absurd heq (by simp), fun _ => ⟨rfl, rfl⟩⟩
  | held =>
    have hq : (refreshVisited s).queue = s.sched.queue := by rw [refreshVisited_queue, ho]; rfl
    rw [refreshVisited_held hc h ho, hq]
    exact ⟨fun _ => ⟨rfl, hr⟩, fun hn => (by cases hn), fun hne => absurd rfl hne⟩

/-! The visits. -/

theorem visitsRun_of (hr : running s = true) (hst : s.part.state = .serving) : visitsRun s = true := by
  rw [visitsRun, hr, hst]
  rfl

theorem removeEnded_passes (h : requeueMatches w.kind s w.cursor = false ∨ isWaiting s w.cursor = true) :
    removeEndedSweeps (visitRequeue w (partRead s)) = { s with
      port := (partRead s).port, sched := sweepChanged wantsRequeue Sweep.passedOn s } := by
  rw [visitRequeue_passes (s := partRead s) h, removeEndedSweeps_changeSweep]
  rfl

theorem removeEnded_submits (hm : requeueMatches w.kind s w.cursor = true) (hw : isWaiting s w.cursor = false)
    (hroom : s.sched.queue.length < 64) : removeEndedSweeps (visitRequeue w (partRead s)) = { s with
      port := (partRead s).port
      sched := { sweepChanged wantsRequeue Sweep.passedOn s with
        queue := s.sched.queue ++ [w.cursor], refresh := s.sched.refresh.woken } } := by
  rw [visitRequeue_submits (s := partRead s) hm hw hroom, removeEndedSweeps_submit (s := partRead s) hw hroom]
  rfl

theorem removeEnded_stops (hm : requeueMatches w.kind s w.cursor = true) (hw : isWaiting s w.cursor = false)
    (hfull : 64 ≤ s.sched.queue.length) : removeEndedSweeps (visitRequeue w (partRead s)) = { s with
      port := (partRead s).port, sched := sweepChanged wantsRequeue (fun v => { v with stopped := true }) s } := by
  rw [visitRequeue_stops (s := partRead s) hm hw hfull, removeEndedSweeps_changeSweep]
  rfl

/-! The predicates of the sweeps. -/

theorem servable_iff (s : State) (i : Nat) : servable s i = true ↔
    subTap s i ≠ 0 ∧ s.order.outstanding ≠ some (i, .activation) ∧ (subStatus s i).conflict = false := by
  simp only [servable, inUse, Bool.and_eq_true, decide_eq_true_eq, Bool.not_eq_true', and_assoc]

theorem requeueMatches_restore (s : State) (i e : Nat) : requeueMatches (.restore e) s i = true ↔
    servable s i = true ∧ (subStatus s i).link = .held ∧ inSubtree s.plant.tree e (subFeed s i) = true ∧
      isDark s.plant.tree (subFeed s i) = false := by
  simp only [requeueMatches, Bool.and_eq_true, decide_eq_true_eq, Bool.not_eq_true', and_assoc]

theorem requeueMatches_resync (s : State) (i : Nat) : requeueMatches .resync s i = true ↔
    servable s i = true ∧ ((subStatus s i).link = .unreached ∨
      ((subStatus s i).link = .held ∧ isDark s.plant.tree (subFeed s i) = false)) := by
  simp only [requeueMatches, Bool.and_eq_true, Bool.or_eq_true, decide_eq_true_eq, Bool.not_eq_true']

theorem broadcastMatches_lineup (s : State) (i : Nat) : broadcastMatches .lineup s i = true ↔ servable s i = true := by
  rw [broadcastMatches, Bool.and_true]

theorem purchase_eq_iff (p : Purchase) (k n : Nat) :
    p = { valid := true, slot := k, event := n } ↔ p.valid = true ∧ p.slot = k ∧ p.event = n := by
  obtain ⟨valid, slot, event⟩ := p
  exact Iff.of_eq (Purchase.mk.injEq _ _ _ _ _ _)

theorem holdsEvent_iff_entry (s : State) (i k n : Nat) : holdsEvent s i k n = true ↔
    ∃ j, j < 4 ∧ purchaseAt s i j = { valid := true, slot := k, event := n } := by
  simp only [holdsEvent_iff, purchase_eq_iff]

/-- Settles O43: a visit judges the record at its cursor; the sweep visited is the first of its kind, changed in its place. -/
theorem visitsJudgeTheRecord : Obligations.VisitsJudgeTheRecord := by
  unfold Obligations.VisitsJudgeTheRecord
  refine ⟨fun s hr hst => ⟨fun w hw => ?_, fun w hn hw => ?_⟩, fun c s hr hst hn hn' hmaps hheld hrest hc hlt => ?_,
    fun w => ⟨wantsRequeue_iff w, wantsBroadcast_iff w⟩, fun i s lit holds hlit hholds => ?_⟩
  · refine ⟨_, exec_sweepVisit_requeue (visitsRun_of hr hst) hw, ?_⟩
    have hwant := List.find?_some hw
    have hcursor := ((wantsRequeue_iff w).1 hwant).2.2
    by_cases hpass : requeueMatches w.kind s w.cursor = false ∨ isWaiting s w.cursor = true
    · have hnot : requeueMatches w.kind s w.cursor = true → isWaiting s w.cursor = false → False := fun hm hwait =>
        hpass.elim (fun h => Bool.noConfusion (h.symm.trans hm)) fun h => Bool.noConfusion (hwait.symm.trans h)
      rw [removeEnded_passes hpass]
      refine ⟨fun hm hwait => (hnot hm hwait).elim, fun hm hwait => (hnot hm hwait).elim,
        fun _ => ⟨rfl, fun h => sweepChanged_mem hw (.inl h)⟩, fun submits full older newer v hs hf hsw holder hfull hgo => ?_,
        partRead_port, rfl⟩
      have hns : ¬submits := fun h => hnot (hs.1 h).1 (hs.1 h).2.1
      have hnf : ¬full := fun h => hnot (hf.1 h).1 (hf.1 h).2.1
      rw [sweepChanged_append hwant hsw holder, hgo hnf]
      exact ⟨fun h => absurd h hns, fun _ => rfl, rfl⟩
    · obtain ⟨hm, hwait⟩ : requeueMatches w.kind s w.cursor = true ∧ isWaiting s w.cursor = false := by
        simpa only [not_or, Bool.not_eq_false, Bool.not_eq_true] using hpass
      rcases Nat.lt_or_ge s.sched.queue.length 64 with hroom | hfull
      · rw [removeEnded_submits hm hwait hroom]
        refine ⟨fun _ _ _ => ⟨rfl, fun h => sweepChanged_mem hw (.inl h)⟩, fun _ _ h => absurd hroom (Nat.not_lt.2 h),
          fun h => absurd h hpass, fun submits full older newer v hs hf hsw holder _ hgo => ?_, partRead_port, rfl⟩
        have hnf : ¬full := fun h => absurd hroom (Nat.not_lt.2 (hf.1 h).2.2)
        rw [sweepChanged_append hwant hsw holder, hgo hnf]
        exact ⟨fun _ => rfl, fun h => absurd (hs.2 ⟨hm, hwait, hroom⟩) h, rfl⟩
      · rw [removeEnded_stops hm hwait hfull]
        refine ⟨fun _ _ h => absurd h (Nat.not_lt.2 hfull), fun _ _ _ => ⟨rfl, rfl, sweepChanged_mem hw (.inl hcursor)⟩,
          fun h => absurd h hpass, fun submits full older newer v hs hf hsw holder hstop _ => ?_, partRead_port, rfl⟩
        have hns : ¬submits := fun h => absurd (hs.1 h).2.2 (Nat.not_lt.2 hfull)
        rw [sweepChanged_append hwant hsw holder, hstop (hf.2 ⟨hm, hwait, hfull⟩)]
        exact ⟨fun h => absurd h hns, fun _ => rfl, rfl⟩
  · refine ⟨_, exec_sweepVisit_broadcast (visitsRun_of hr hst) hn hw, ?_⟩
    rw [removeEndedSweeps_changeSweep]
    have hvisit (v : Sweep) (hv : v = { w with
        cursor := w.cursor + 1
        held := if broadcastMatches w.kind s w.cursor = true then some w.cursor else none }) : visitBroadcast s w = v :=
      hv.symm
    refine ⟨rfl, fun hm => ?_, fun hm hcur => ?_, fun older newer v hsw holder hv => ?_, partRead_port, rfl⟩
    · have hheld := hvisit { w with cursor := w.cursor + 1, held := some w.cursor } (by rw [if_pos hm])
      have hmem := sweepChanged_mem (s := partRead s) (f := visitBroadcast s) hw (.inr (by rw [hheld]; exact Option.some_ne_none _))
      rwa [hheld] at hmem
    · have hpast := hvisit { w with cursor := w.cursor + 1, held := none } (by rw [hm]; rfl)
      have hmem := sweepChanged_mem (s := partRead s) (f := visitBroadcast s) hw (.inl hcur)
      rwa [hpast] at hmem
    · rw [← hvisit v hv]
      exact sweepChanged_append (s := partRead s) (List.find?_some hw) hsw holder
  · subst hc
    have hwants : sweepWants s = false := by
      rw [sweepWants, Bool.or_eq_false_iff]
      exact ⟨by simpa using hn, by simpa using hn'⟩
    have hvisits : refreshVisits s.sched.refresh = true := by
      simp [refreshVisits, refreshHolds, hmaps, hheld, hrest]
    refine ⟨_, exec_refreshVisit (visitsRun_of hr hst) hwants hvisits, refreshVisited_cursor hlt, fun hc him => ?_,
      fun h => (refreshVisited_maps hlt h).trans hmaps, fun h => ?_, fun hs hw => ⟨fun h => ?_, fun h => ⟨fun hroom => ?_,
      fun hfull => ?_⟩⟩, fun hc him => ?_, fun h => refreshVisited_counts hlt h hheld hrest, rfl, partRead_port, rfl⟩
    · rw [refreshVisited_wrapped hc him]
      exact ⟨rfl, rfl⟩
    · rw [refreshVisited_holds hlt hheld, refreshVisited_queue, refreshOutcome_passed h]
      exact ⟨rfl, rfl⟩
    · rw [refreshVisited_holds hlt hheld, refreshVisited_queue, refreshOutcome_settled hs hw h]
      exact ⟨rfl, rfl⟩
    · rw [refreshVisited_holds hlt hheld, refreshVisited_queue, refreshOutcome_resent hs hw h, if_pos hroom]
      exact ⟨rfl, rfl⟩
    · rw [refreshVisited_holds hlt hheld, refreshVisited_queue, refreshOutcome_resent hs hw h, if_neg (Nat.not_lt.2 hfull)]
      exact ⟨rfl, rfl⟩
    · rw [refreshVisited_wrapped hc him]
  · refine ⟨servable_iff s i, fun e => ?_, ?_, broadcastMatches_lineup s i, fun slot event => ?_⟩
    · rw [requeueMatches_restore, hlit]
    · rw [requeueMatches_resync, hlit]
    · simp only [broadcastMatches, Bool.and_eq_true, holdsEvent_iff_entry, hholds, and_self]

end Sys2Proof.Machine


/-! ## Frames on the return link (R91 to R95) -/

namespace Sys2Proof.Machine

variable {s t u v : State} {f : UpFrame}

/-! Judging a frame (R92, 12.10). -/

theorem frameField2_withCrc (b : List Byte) : frameField2 (withCrc b) b.length = (crc16 b).toNat := by
  have hhi : (withCrc b).getD b.length 0 = wordHi (crc16 b) := by
    rw [withCrc, List.getD_eq_getElem?_getD, List.getElem?_append_right (le_refl _), Nat.sub_self]
    rfl
  have hlo : (withCrc b).getD (b.length + 1) 0 = wordLo (crc16 b) := by
    rw [withCrc, List.getD_eq_getElem?_getD, List.getElem?_append_right (Nat.le_add_right _ 1), Nat.add_sub_cancel_left]
    rfl
  rw [frameField2, frameByte, frameByte, hhi, hlo, wordHi_eq, wordLo_eq, BitVec.toNat_ofNat, BitVec.toNat_ofNat]
  have := (crc16 b).isLt
  omega

theorem take_withCrc (b : List Byte) : (withCrc b).take ((withCrc b).length - 2) = b := by
  rw [withCrc, List.length_append]
  exact List.take_left

theorem crcMatches_withCrc (b : List Byte) : crcMatches (withCrc b) = true := by
  have hlen : (withCrc b).length - 2 = b.length := by rw [withCrc, List.length_append]; rfl
  rw [crcMatches, decide_eq_true_eq, take_withCrc, hlen, frameField2_withCrc]

theorem byteOf_toNat (n : Nat) : (byteOf n).toNat = n % 256 := BitVec.toNat_ofNat _ _

/-- R92 test 4: the check code of a frame is that of its bytes before. -/
theorem withCrc_of_crcMatches {b : List Byte} (hlen : 2 ≤ b.length) (h : crcMatches b = true) :
    withCrc (b.take (b.length - 2)) = b := by
  obtain ⟨x, y, hxy⟩ : ∃ x y, b.drop (b.length - 2) = [x, y] :=
    List.length_eq_two.1 (by rw [List.length_drop]; omega)
  have hx : b.getD (b.length - 2) 0 = x := by
    rw [List.getD_eq_getElem?_getD, ← Nat.add_zero (b.length - 2), ← List.getElem?_drop, hxy]
    rfl
  have hy : b.getD (b.length - 2 + 1) 0 = y := by
    rw [List.getD_eq_getElem?_getD, ← List.getElem?_drop, hxy]
    rfl
  rw [crcMatches, decide_eq_true_eq, frameField2, frameByte, frameByte, hx, hy] at h
  have hxlt := x.isLt
  have hylt := y.isLt
  have hhi : wordHi (crc16 (b.take (b.length - 2))) = x := by
    rw [wordHi_eq, h]
    apply BitVec.eq_of_toNat_eq
    rw [BitVec.toNat_ofNat]
    omega
  have hlo : wordLo (crc16 (b.take (b.length - 2))) = y := by
    rw [wordLo_eq, h]
    apply BitVec.eq_of_toNat_eq
    rw [BitVec.toNat_ofNat]
    omega
  rw [withCrc, hhi, hlo, ← hxy, List.take_append_drop]

theorem field2_bytes2 {n : Nat} (h : n < 65536) : (byteOf (n / 256)).toNat * 256 + (byteOf n).toNat = n := by
  rw [byteOf_toNat, byteOf_toNat]
  omega

theorem byteOf_toNat_of_lt {n : Nat} (h : n < 256) : (byteOf n).toNat = n :=
  (byteOf_toNat n).trans (Nat.mod_eq_of_lt h)

theorem judge_ackFrame {tap port q result : Nat} (ht : tap < 65536) (hp : port < 256) (hq : q < 256) (hr : result < 256)
    (idle : Nat) : judgeFrame { ackFrame tap port q result with idle := idle } = .ack tap port q result := by
  have hjudge : judgeFrame { ackFrame tap port q result with idle := idle } =
      if 8 = 8 ∧ crcMatches (ackFrame tap port q result).bytes = true then
        .ack ((byteOf (tap / 256)).toNat * 256 + (byteOf tap).toNat) (byteOf port).toNat (byteOf q).toNat (byteOf result).toNat
      else .bad := rfl
  rw [hjudge, if_pos ⟨rfl, crcMatches_withCrc _⟩, field2_bytes2 ht, byteOf_toNat_of_lt hp, byteOf_toNat_of_lt hq,
    byteOf_toNat_of_lt hr]

theorem judge_statusFrame {address q status : Nat} (ha : address < 65536) (hq : q < 256) (hs : status < 256) (idle : Nat) :
    judgeFrame { statusFrame address q status with idle := idle } = .status address q status := by
  have hjudge : judgeFrame { statusFrame address q status with idle := idle } =
      if 7 = 7 ∧ crcMatches (statusFrame address q status).bytes = true then
        .status ((byteOf (address / 256)).toNat * 256 + (byteOf address).toNat) (byteOf q).toNat (byteOf status).toNat
      else .bad := rfl
  rw [hjudge, if_pos ⟨rfl, crcMatches_withCrc _⟩, field2_bytes2 ha, byteOf_toNat_of_lt hq, byteOf_toNat_of_lt hs]

theorem judge_buyFrame {tap port k token : Nat} (ht : tap < 65536) (hp : port < 256) (hk : k < 256) (hr : token < 256)
    (idle : Nat) : judgeFrame { buyFrame tap port k token with idle := idle } = .buy tap port k token := by
  have hjudge : judgeFrame { buyFrame tap port k token with idle := idle } =
      if 8 = 8 ∧ crcMatches (buyFrame tap port k token).bytes = true then
        .buy ((byteOf (tap / 256)).toNat * 256 + (byteOf tap).toNat) (byteOf port).toNat (byteOf k).toNat (byteOf token).toNat
      else .bad := rfl
  rw [hjudge, if_pos ⟨rfl, crcMatches_withCrc _⟩, field2_bytes2 ht, byteOf_toNat_of_lt hp, byteOf_toNat_of_lt hk,
    byteOf_toNat_of_lt hr]

/-- The kinds of upstream frames, by their first byte and their length. -/
def frameKinds : List (Option Byte × Nat) := [(some 0x21, 8), (some 0x22, 7), (some 0x23, 8)]

theorem head?_of_frameByte {b : List Byte} {k : Byte} (hk : k ≠ 0) (h : frameByte b 0 = k.toNat) : b.head? = some k := by
  cases b with
  | nil => exact absurd (BitVec.eq_of_toNat_eq h.symm : k = 0) hk
  | cons x t => exact congrArg some (BitVec.eq_of_toNat_eq h)

/-- R92: a frame that passes the four tests. -/
theorem tests_of_not_bad (h : judgeFrame f ≠ .bad) : f.framingError = false ∧ f.overrun = false ∧
    (f.bytes.head?, f.bytes.length) ∈ frameKinds ∧ withCrc (f.bytes.take (f.bytes.length - 2)) = f.bytes := by
  unfold judgeFrame at h
  dsimp only at h
  by_cases h₁ : (f.framingError || f.overrun || decide (16 < f.bytes.length)) = true
  · rw [if_pos h₁] at h
    exact absurd rfl h
  rw [if_neg h₁] at h
  have hgood : ∀ {k : Byte} {n : Nat} {j : Judged}, k ≠ 0 → 2 ≤ n → (k, n) ∈ [((0x21 : Byte), 8), (0x22, 7), (0x23, 8)] →
      frameByte f.bytes 0 = k.toNat → (if f.bytes.length = n ∧ crcMatches f.bytes = true then j else .bad) ≠ .bad →
      (f.bytes.head?, f.bytes.length) ∈ frameKinds ∧ withCrc (f.bytes.take (f.bytes.length - 2)) = f.bytes := by
    intro k n j hk hn hmem hbyte hne
    by_cases hc : f.bytes.length = n ∧ crcMatches f.bytes = true
    · refine ⟨?_, withCrc_of_crcMatches (hc.1 ▸ hn) hc.2⟩
      rw [head?_of_frameByte hk hbyte, hc.1]
      exact List.mem_map_of_mem (f := fun p : Byte × Nat => (some p.1, p.2)) hmem
    · rw [if_neg hc] at hne
      exact absurd rfl hne
  obtain ⟨⟨hframing, hoverrun⟩, -⟩ : (f.framingError = false ∧ f.overrun = false) ∧ _ := by
    simpa only [Bool.or_eq_true, not_or, Bool.not_eq_true] using h₁
  refine ⟨hframing, hoverrun, ?_⟩
  by_cases h₂ : frameByte f.bytes 0 = 0x21
  · rw [if_pos h₂] at h
    exact hgood (k := 0x21) (n := 8) (by decide) (by decide) (by decide) h₂ h
  rw [if_neg h₂] at h
  by_cases h₃ : frameByte f.bytes 0 = 0x22
  · rw [if_pos h₃] at h
    exact hgood (k := 0x22) (n := 7) (by decide) (by decide) (by decide) h₃ h
  rw [if_neg h₃] at h
  by_cases h₄ : frameByte f.bytes 0 = 0x23
  · rw [if_pos h₄] at h
    exact hgood (k := 0x23) (n := 8) (by decide) (by decide) (by decide) h₄ h
  · rw [if_neg h₄] at h
    exact absurd rfl h

/-! The receiver (R91, R94, R95). -/

/-- R94: a step of the noise integrator. -/
def noised (g : Plan → Receiver → Receiver) (s : State) : Receiver := (s.plan.copy.map fun p => g p s.receiver).getD s.receiver

theorem stepNoise_eq (g : Plan → Receiver → Receiver) (s : State) : stepNoise g s = { s with receiver := noised g s } := by
  unfold stepNoise noised
  cases s.plan.copy <;> rfl

/-- R92: the receiver after a good frame. -/
def heard (s : State) : State := { s with receiver := noised noiseGood (lineRests s) }

theorem noiseGood_frame (p : Plan) (r : Receiver) :
    noiseGood p r = { r with noise := (noiseGood p r).noise, noisy := (noiseGood p r).noisy } := by
  simp only [noiseGood]
  split
  · rfl
  · split <;> rfl

/-- R94: the good frame's step. -/
theorem goodStep_of_receiver (h : t.receiver = (heard s).receiver) : GoodStep s t := by
  have hcopy : (lineRests s).plan.copy = s.plan.copy := rfl
  cases hp : s.plan.copy with
  | none =>
    have hr : t.receiver = { s.receiver with rested := true } := by
      rw [h, heard, noised, hcopy, hp]
      rfl
    exact ⟨by rw [hr], by rw [hr], fun _ => hr, fun p c hc => (by rw [hp] at hc; cases hc)⟩
  | some p =>
    have hr : t.receiver = noiseGood p { s.receiver with rested := true } := by
      rw [h, heard, noised, hcopy, hp]
      rfl
    refine ⟨by rw [hr, noiseGood_frame], by rw [hr, noiseGood_frame], fun hc => (by rw [hp] at hc; cases hc), ?_⟩
    rintro p' c hc rfl
    obtain rfl : p = p' := Option.some.inj (hp.symm.trans hc)
    rw [hr]
    refine ⟨fun hn => ?_, fun hn => ?_⟩
    · simp only [noiseGood, hn, if_true]
      exact ⟨rfl, rfl⟩
    · simp only [noiseGood, hn, Bool.false_eq_true, if_false]
      split
      · next hlim => exact ⟨rfl, (if_pos hlim).symm⟩
      · next hlim => exact ⟨rfl, (if_neg hlim).symm⟩

theorem frameSeen_iff (f : UpFrame) (s : State) : frameSeen f s = true ↔ LineRested f s := by
  rw [frameSeen, Bool.or_eq_true, decide_eq_true_eq]
  rfl

variable (hvcc : s.power.vcc = true) (hres : s.power.resetting = false)
include hvcc hres

theorem receiveFrame_unrested (hl : ¬LineRested f s) : receiveFrame f s = lineRests s := by
  rw [receiveFrame, if_pos ⟨hvcc, hres⟩, if_neg fun h => hl ((frameSeen_iff f s).1 h)]

theorem receiveFrame_rested (hl : LineRested f s) : receiveFrame f s = judgeAndHand f (lineRests s) := by
  rw [receiveFrame, if_pos ⟨hvcc, hres⟩, if_pos ((frameSeen_iff f s).2 hl)]

theorem receiveFrame_bad (hl : LineRested f s) (hj : judgeFrame f = .bad) : receiveFrame f s = takeBadFrame (lineRests s) := by
  rw [receiveFrame_rested hvcc hres hl, judgeAndHand, hj]

omit hvcc hres in
theorem takeGoodFrame_eq (owner : State → State) (s : State) :
    takeGoodFrame owner (lineRests s) = if started s = true then owner (heard s) else heard s := by
  rw [takeGoodFrame, stepNoise_eq]
  rfl

theorem receiveFrame_ack {tap port q result : Nat} (hl : LineRested f s) (hj : judgeFrame f = .ack tap port q result) :
    receiveFrame f s = if started s = true then takeAck tap port q result (heard s) else heard s := by
  rw [receiveFrame_rested hvcc hres hl, judgeAndHand, hj]
  exact takeGoodFrame_eq _ s

theorem receiveFrame_status {address q status : Nat} (hl : LineRested f s) (hj : judgeFrame f = .status address q status) :
    receiveFrame f s = if started s = true then takeStatus address q status (heard s) else heard s := by
  rw [receiveFrame_rested hvcc hres hl, judgeAndHand, hj]
  exact takeGoodFrame_eq _ s

theorem receiveFrame_buy {tap port k token : Nat} (hl : LineRested f s) (hj : judgeFrame f = .buy tap port k token) :
    receiveFrame f s = if started s = true then takeBuy tap port k token (heard s) else heard s := by
  rw [receiveFrame_rested hvcc hres hl, judgeAndHand, hj]
  exact takeGoodFrame_eq _ s

omit hvcc hres

theorem conditions_lineRests (s : State) : conditions (lineRests s) = conditions s := rfl

/-- R93: the receiver that has counted a bad frame. -/
def countedBad (s : State) : Receiver := { s.receiver with badFrames := s.receiver.badFrames + 1, rested := true }

/-- R94: the receiver after a bad frame. -/
def misheard (s : State) : Receiver := noised noiseBad { s with receiver := countedBad s }

theorem takeBadFrame_eq (s : State) : takeBadFrame (lineRests s) = { s with receiver := misheard s } :=
  stepNoise_eq noiseBad { s with receiver := countedBad s }

theorem noiseBad_tops {p : Plan} {r : Receiver} (hn : r.noisy = false)
    (h : 2 * p.noiseLimit ≤ min (min r.noise (noiseMax p) + 2) (noiseMax p)) :
    noiseBad p r = { r with noise := noiseMax p, noisy := true } := if_pos ⟨hn, h⟩

theorem noiseBad_rises {p : Plan} {r : Receiver}
    (h : r.noisy = true ∨ min (min r.noise (noiseMax p) + 2) (noiseMax p) < 2 * p.noiseLimit) :
    noiseBad p r = { r with noise := min (min r.noise (noiseMax p) + 2) (noiseMax p) } :=
  if_neg fun hc => h.elim (fun hn => Bool.noConfusion (hc.1.symm.trans hn)) fun hlt => absurd hc.2 (Nat.not_le.2 hlt)

theorem noiseBad_frame (p : Plan) (r : Receiver) :
    noiseBad p r = { r with noise := (noiseBad p r).noise, noisy := (noiseBad p r).noisy } := by
  simp only [noiseBad]
  split <;> rfl

theorem misheard_none (h : s.plan.copy = none) :
    misheard s = countedBad s := by
  rw [misheard, noised, h]
  rfl

theorem misheard_some {p : Plan} (h : s.plan.copy = some p) :
    misheard s = noiseBad p (countedBad s) := by
  rw [misheard, noised, h]
  rfl

theorem misheard_counted (s : State) : (misheard s).badFrames = s.receiver.badFrames + 1 ∧ (misheard s).rested = true := by
  cases h : s.plan.copy with
  | none => rw [misheard_none h]; exact ⟨rfl, rfl⟩
  | some p => rw [misheard_some h, noiseBad_frame]; exact ⟨rfl, rfl⟩

/-- Settles O44: a frame that fails a test is judged bad, and then only counted. -/
theorem badFramesAreCountedOnly : Obligations.BadFramesAreCountedOnly := by
  unfold Obligations.BadFramesAreCountedOnly
  refine ⟨fun dt f c s hvcc hres hl hc => ⟨?_, ?_⟩, fun f s hvcc hres hl hbad => ?_⟩
  · have hexec : exec c s = .next (latchArisen s (receiveFrame f s)) := by
      rcases hc with rfl | rfl | rfl <;> rfl
    rw [hexec]
    exact next_latchArisen (receiveFrame_unrested hvcc hres hl) rfl
  · have htime : reach (s.time + dt) s = { s with time := s.time + dt } := by
      rw [reach, Nat.max_eq_right (Nat.le_add_right _ _)]
    have hexec : exec (.status dt f) s = .next (latchArisen s (receiveFrame f (reach (s.time + dt) s))) := rfl
    rw [hexec, htime]
    exact next_latchArisen (receiveFrame_unrested (s := { s with time := s.time + dt }) hvcc hres hl) rfl
  · have hjudge : judgeFrame f = .bad := by
      by_contra hne
      obtain ⟨h₁, h₂, h₃, h₄⟩ := tests_of_not_bad hne
      rcases hbad with h | h | h | h
      · exact Bool.noConfusion (h₁.symm.trans h)
      · exact Bool.noConfusion (h₂.symm.trans h)
      · exact h h₃
      · exact h h₄
    have htake := (receiveFrame_bad hvcc hres hl hjudge).trans (takeBadFrame_eq s)
    refine ⟨_, congrArg (fun v => Host.Outcome.next (latchArisen s v)) htake, ?_⟩
    rw [latchArisen_receiver]
    refine ⟨(misheard_counted s).1, (misheard_counted s).2, fun hn => ?_, ?_, flagsFollow_latchArisen rfl, ?_⟩
    · show (misheard s).noise = _ ∧ (misheard s).noisy = _
      rw [misheard_none hn]
      exact ⟨rfl, rfl⟩
    · rintro p m c hp rfl rfl
      show ((_ → (misheard s).noise = _ ∧ (misheard s).noisy = _) ∧ (_ → (misheard s).noise = _ ∧ (misheard s).noisy = _))
      rw [misheard_some hp]
      refine ⟨fun hnoisy => ?_, fun hquiet => ?_⟩
      · rw [noiseBad_tops (r := countedBad s) hnoisy.1 hnoisy.2]
        exact ⟨rfl, rfl⟩
      · rw [noiseBad_rises (r := countedBad s) hquiet]
        exact ⟨rfl, rfl⟩
    · rw [latchArisen_frame]

end Sys2Proof.Machine


/-! ## The ends of pending entries, and ACK (R97, R98, R105) -/

namespace Sys2Proof.Machine

variable {s t u v b : State} {f : UpFrame} {e : PendingAck}

/-! Outcomes of an entry. -/

/-- R98, R100: a subscriber left UNREACHED, with the notice and the record. -/
def lostWith (k : LogKind) (bit detail : Nat) (e : PendingAck) (s : State) : State :=
  logAppend k e.subscriber e.tap e.port detail
    (setNotice (subscriberWord e.subscriber 7) bit (freeWithLink e .unreached s))

section lost
variable (k : LogKind) (bit detail : Nat) (e : PendingAck) (b : State)

theorem lostWith_frame : lostWith k bit detail e b = { b with
    mem := (lostWith k bit detail e b).mem, port := (lostWith k bit detail e b).port
    tracker := { b.tracker with table := b.tracker.table.filter fun x => !entryAt e.tap e.port x }
    order := { b.order with unreached := (freeWithLink e .unreached b).order.unreached
                            held := (freeWithLink e .unreached b).order.held }
    writer := (lostWith k bit detail e b).writer, flags := (lostWith k bit detail e b).flags } := by
  have h : lostWith k bit detail e b = _ := logAppend_frame k e.subscriber e.tap e.port detail
    (setNotice (subscriberWord e.subscriber 7) bit (freeWithLink e .unreached b))
  exact h

theorem lostWith_wf (hm : MemWf b.mem) : MemWf (lostWith k bit detail e b).mem :=
  logAppend_wf _ _ _ _ _ _ (wr_wf _ _ _ (freeWithLink_wf e .unreached hm))

theorem lostWith_counts : CountsMoved (subStatus b e.subscriber) { subStatus b e.subscriber with link := .unreached } b
    (lostWith k bit detail e b) := by
  rw [CountsMoved, lostWith_frame]
  exact freeWithLink_counts e .unreached b

variable (hring : RingLaw b)
include hring

theorem lostWith_logKept : KeptOutside ringPlace
    (setNotice (subscriberWord e.subscriber 7) bit (freeWithLink e .unreached b)) (lostWith k bit detail e b) := by
  have hwriter : (setNotice (subscriberWord e.subscriber 7) bit (freeWithLink e .unreached b)).writer = b.writer := rfl
  unfold lostWith
  exact logAppend_kept (ringLaw_of_writer hring hwriter) k _ _ _ _

theorem lostWith_kept : KeptOutside (withRings [subscriberWord e.subscriber 7, subscriberWord e.subscriber 8]) b
    (lostWith k bit detail e b) := by
  refine (lostWith_logKept k bit detail e b hring).withRings.after ?_
  refine ((setNotice_wordsKept _ _ _).withRings (by simp)).after ((freeWithLink_kept e .unreached b).withRings (by simp))

theorem subStatus_lostWith (hm : MemWf b.mem) :
    subStatus (lostWith k bit detail e b) e.subscriber = { subStatus b e.subscriber with link := .unreached } := by
  have hlog := lostWith_logKept k bit detail e b hring _ (ringPlace_subscriberWord e.subscriber 8)
  have hnotice : subRd (setNotice (subscriberWord e.subscriber 7) bit (freeWithLink e .unreached b)) e.subscriber 8 =
    subRd (freeWithLink e .unreached b) e.subscriber 8 := setNotice_wordsKept _ _ _ _ (by
      rw [List.mem_singleton, subscriberWord_inj (by decide) (by decide)]
      exact fun h => absurd h.2 (by decide))
  rw [← subStatus_freeWithLink hm e .unreached]
  exact subStatus_congr (hlog.trans hnotice)

theorem lostWith_notice (hm : MemWf b.mem) :
    subRd (lostWith k bit detail e b) e.subscriber 7 = subRd b e.subscriber 7 ||| wordOf (2 ^ bit) := by
  have hlog := lostWith_logKept k bit detail e b hring _ (ringPlace_subscriberWord e.subscriber 7)
  have hnotice : subRd (setNotice (subscriberWord e.subscriber 7) bit (freeWithLink e .unreached b)) e.subscriber 7 =
    subRd (freeWithLink e .unreached b) e.subscriber 7 ||| wordOf (2 ^ bit) :=
      rd_wr_same _ _ _ (freeWithLink_wf e .unreached hm)
  have hfree : subRd (freeWithLink e .unreached b) e.subscriber 7 = subRd b e.subscriber 7 :=
    freeWithLink_kept e .unreached b _ (by
      rw [List.mem_singleton, subscriberWord_inj (by decide) (by decide)]
      exact fun h => absurd h.2 (by decide))
  rw [← hfree, ← hnotice]
  exact hlog

end lost

theorem lostWith_logged {k : LogKind} {bit detail : Nat} (hm : MemWf b.mem) (hring : RingLaw s) (hw : b.writer = s.writer)
    (hc : b.clock = s.clock) (e : PendingAck) : Logged k e.subscriber e.tap e.port detail s (lostWith k bit detail e b) :=
  logged_logAppend (wr_wf _ _ _ (freeWithLink_wf e .unreached hm)) hring hw hc (fun _ _ => rfl) rfl

theorem portFaulted_eq (e : PendingAck) (s : State) : portFaulted e s = lostWith .portFault 1 e.sequence e s := rfl

theorem exhausted_eq (e : PendingAck) (s : State) : exhausted e s = lostWith .unreached 0 e.attempts e s := rfl

/-! APPLIED (R98). -/

theorem applied_frame (e : PendingAck) (s : State) : applied e s = { s with
    mem := (applied e s).mem, port := (applied e s).port
    tracker := { s.tracker with table := s.tracker.table.filter fun x => !entryAt e.tap e.port x }
    order := { s.order with unreached := (applied e s).order.unreached, held := (applied e s).order.held } } := rfl

theorem subStatus_applied (hm : MemWf s.mem) (e : PendingAck) : subStatus (applied e s) e.subscriber =
    { subStatus s e.subscriber with confirmed := e.command, link := .settled } :=
  subStatus_writeStatus (s := freeEntry e.tap e.port s) hm (subStatus_attempts_lt s e.subscriber)

theorem applied_kept (e : PendingAck) (s : State) : WordsKept [subscriberWord e.subscriber 8] s (applied e s) :=
  writeStatus_wordsKept e.subscriber _ _ (freeEntry e.tap e.port s)

theorem applied_counts (e : PendingAck) (s : State) :
    CountsMoved (subStatus s e.subscriber) { subStatus s e.subscriber with confirmed := e.command, link := .settled } s
      (applied e s) := ⟨rfl, rfl⟩

/-! The end of a retire (R105). -/

theorem endRetire_eq (e : PendingAck) (s : State) : endRetire e s = { s with
    tracker := { s.tracker with table := s.tracker.table.filter fun x => !entryAt e.tap e.port x }
    order := { s.order with
      retires := s.order.retires.filter fun r => !(decide (r.tap = e.tap) && decide (r.port = e.port)) } } := rfl

theorem failRetire_frame (e : PendingAck) (cause : Nat) (s : State) : failRetire e cause s = { s with
    mem := (failRetire e cause s).mem, port := (failRetire e cause s).port
    tracker := { s.tracker with table := s.tracker.table.filter fun x => !entryAt e.tap e.port x }
    order := { s.order with
      retires := s.order.retires.filter fun r => !(decide (r.tap = e.tap) && decide (r.port = e.port)) }
    writer := (failRetire e cause s).writer, flags := (failRetire e cause s).flags } := by
  have h : failRetire e cause s = _ := logAppend_frame .retireFailed e.tap e.port e.subscriber cause (endRetire e s)
  rw [endRetire_eq] at h
  exact h

theorem failRetire_kept (hring : RingLaw s) (e : PendingAck) (cause : Nat) :
    KeptOutside ringPlace s (failRetire e cause s) := by
  have hwriter : (endRetire e s).writer = s.writer := rfl
  have hlog : KeptOutside ringPlace (endRetire e s) (failRetire e cause s) := by
    unfold failRetire
    exact logAppend_kept (ringLaw_of_writer hring hwriter) _ _ _ _ _
  exact fun a ha => hlog a ha

theorem failRetire_logged (hm : MemWf b.mem) (hring : RingLaw s) (hw : b.writer = s.writer) (hc : b.clock = s.clock)
    (e : PendingAck) (cause : Nat) : Logged .retireFailed e.tap e.port e.subscriber cause s (failRetire e cause b) :=
  logged_logAppend (v := endRetire e b) hm hring hw hc (fun _ _ => rfl) rfl

/-! ACK (R97). -/

/-- R97: the state in which a matched ACK ends its entry. -/
def ackMatched (s : State) : State :=
  { heard s with tracker := { s.tracker with matched := s.tracker.matched + 1 } }

theorem matchAck_eq (t : List PendingAck) (tap port q : Nat) :
    matchAck t tap port q = t.find? fun x => decide (x.tap = tap ∧ x.port = port ∧ x.sequence = q) := by
  rw [matchAck]
  congr 1
  funext x
  simp only [entryAt, Bool.decide_and, Bool.and_assoc]

theorem takeAck_unmatched {tap port q result : Nat} (h : (result ≠ 1 ∧ result ≠ 2) ∨
    ∀ e ∈ s.tracker.table, ¬(e.tap = tap ∧ e.port = port ∧ e.sequence = q)) : takeAck tap port q result s = s := by
  unfold takeAck
  by_cases hr : result = 1 ∨ result = 2
  · have hn := h.resolve_left fun hn => hr.elim hn.1 hn.2
    have hnone : matchAck s.tracker.table tap port q = none := by
      rw [matchAck_eq, List.find?_eq_none]
      exact fun x hx => by rw [decide_eq_true_eq]; exact hn x hx
    rw [if_pos hr, hnone]
  · rw [if_neg hr]

theorem takeAck_matched {tap port q result : Nat} (hr : result = 1 ∨ result = 2)
    (h : s.tracker.table.find? (fun x => decide (x.tap = tap ∧ x.port = port ∧ x.sequence = q)) = some e) :
    takeAck tap port q result (heard s) = settle (endByAck e result (ackMatched s)) := by
  have hmatch : matchAck (heard s).tracker.table tap port q = some e := (matchAck_eq _ _ _ _).trans h
  rw [takeAck, if_pos hr, hmatch]
  rfl

theorem endByAck_eq (e : PendingAck) (s : State) :
    (e.kind = .subscriber → endByAck e 1 s = applied e s ∧ endByAck e 2 s = lostWith .portFault 1 e.sequence e s) ∧
    (e.kind = .retire → endByAck e 1 s = endRetire e s ∧ endByAck e 2 s = failRetire e 0 s) := by
  constructor <;> intro hk <;> simp only [endByAck, hk] <;> exact ⟨rfl, rfl⟩

/-- Settles O45: a matched ACK ends its entry on the state that has heard the frame; any other leaves that state. -/
theorem ackEndsItsEntry : Obligations.AckEndsItsEntry := by
  unfold Obligations.AckEndsItsEntry
  intro tap port q result f s hm hring hvcc hres ht hp hq hresult hf hl
  have hjudge : judgeFrame f = .ack tap port q result := (congrArg judgeFrame hf).trans (judge_ackFrame ht hp hq hresult _)
  have hexec : exec (.ack f) s = .next (latchArisen s
    (if started s = true then takeAck tap port q result (heard s) else heard s)) :=
    congrArg (fun v => Host.Outcome.next (latchArisen s v)) (receiveFrame_ack hvcc hres hl hjudge)
  refine ⟨fun hnone => ?_, fun e hst hfind hr => ?_⟩
  · have hheard : (if started s = true then takeAck tap port q result (heard s) else heard s) = heard s := by
      by_cases hst : started s = true
      · rw [if_pos hst]
        exact takeAck_unmatched (hnone.resolve_left fun h => Bool.noConfusion (hst.symm.trans h))
      · rw [if_neg hst]
    rw [hheard] at hexec
    refine ⟨_, hexec, goodStep_of_receiver (latchArisen_receiver _ _), flagsFollow_latchArisen rfl, ?_⟩
    rw [latchArisen_frame]
    rfl
  · rw [if_pos hst, takeAck_matched hr hfind] at hexec
    refine ⟨_, hexec, ?_⟩
    obtain ⟨rfl, rfl, rfl⟩ : e.tap = tap ∧ e.port = port ∧ e.sequence = q := by simpa using List.find?_some hfind
    have hstatus : subStatus (ackMatched s) e.subscriber = subStatus s e.subscriber := rfl
    have hringb : RingLaw (ackMatched s) := ringLaw_of_writer hring rfl
    cases hk : e.kind with
    | subscriber =>
      obtain ⟨h₁, h₂⟩ := (endByAck_eq e (ackMatched s)).1 hk
      rcases hr with rfl | rfl
      · rw [h₁]
        refine ⟨goodStep_of_receiver rfl, rfl, fun _ _ => ⟨subStatus_applied (s := ackMatched s) hm e,
          applied_kept e (ackMatched s), rfl⟩, fun _ h => absurd h (by decide), fun _ => ?_, fun h => (by cases h), rfl⟩
        rw [subStatus_applied (s := ackMatched s) hm e]
        exact applied_counts e (ackMatched s)
      · rw [h₂]
        have hframe := lostWith_frame .portFault 1 e.sequence e (ackMatched s)
        refine ⟨goodStep_of_receiver (by rw [hframe]; rfl), by rw [hframe]; rfl, fun _ h => absurd h (by decide), fun _ _ =>
          ⟨subStatus_lostWith _ _ _ e (ackMatched s) hringb hm, lostWith_notice _ _ _ e (ackMatched s) hringb hm,
            lostWith_logged (b := ackMatched s) hm hring rfl rfl e, lostWith_kept _ _ _ e (ackMatched s) hringb,
            by rw [hframe]; rfl⟩, fun _ => ?_, fun h => (by cases h), ?_⟩
        · rw [subStatus_lostWith _ _ _ e (ackMatched s) hringb hm]
          exact lostWith_counts _ _ _ e (ackMatched s)
        · rw [hframe]
          rfl
    | retire =>
      obtain ⟨h₁, h₂⟩ := (endByAck_eq e (ackMatched s)).2 hk
      rcases hr with rfl | rfl
      · rw [h₁]
        exact ⟨goodStep_of_receiver rfl, rfl, fun h => (by cases h), fun h => (by cases h), fun h => (by cases h),
          fun _ => ⟨rfl, fun _ => rfl, fun h => absurd h (by decide)⟩, rfl⟩
      · rw [h₂]
        have hframe := failRetire_frame e 0 (ackMatched s)
        refine ⟨goodStep_of_receiver (by rw [hframe]; rfl), by rw [hframe]; rfl, fun h => (by cases h), fun h => (by cases h),
          fun h => (by cases h), fun _ => ⟨by rw [hframe]; rfl, fun h => absurd h (by decide), fun _ =>
            ⟨failRetire_logged (b := ackMatched s) hm hring rfl rfl e 0, failRetire_kept hringb e 0⟩⟩, ?_⟩
        rw [hframe]
        rfl

end Sys2Proof.Machine


/-! ## The deadlines of pending entries (R100 to R102, R105) -/

namespace Sys2Proof.Machine

variable {s t u v b : State} {e : PendingAck}

theorem exec_ackTimeout (hst : started s = true) (he : earliest .awaiting s.tracker.table = some e) :
    exec .ackTimeout s = .next (concluded s (entryTimeout e (reach e.deadline s))) := by
  show execAckTimeout s = _
  simp only [execAckTimeout, he, hst, if_true]
  rfl

theorem exec_retryWaitEnd (hst : started s = true) (he : earliest .waiting s.tracker.table = some e) :
    exec .retryWaitEnd s = .next (concluded s (entryWaitEnd e (reach e.deadline s))) := by
  show execRetryWaitEnd s = _
  simp only [execRetryWaitEnd, he, hst, if_true]
  rfl

theorem beginWait_eq (e : PendingAck) (s : State) : beginWait e s = { s with tracker := { s.tracker with
    table := s.tracker.table.map fun x => if x.tap = e.tap ∧ x.port = e.port then
      { x with phase := if (planOf s).retryWait = 0 then .candidate else .waiting
               deadline := s.time + 6400 * (planOf s).retryWait } else x } } := by
  have hbits : retryWaitBits (planOf s).retryWait = 6400 * (planOf s).retryWait := by
    rw [retryWaitBits, bitsPerMs]
    omega
  rw [beginWait, updateEntry_eq, hbits]

theorem subscriberTimeout_given (h : isDark s.plant.tree (subFeed s e.subscriber) = true ∨ s.part.state = .quiescing) :
    subscriberTimeout e s = freeWithLink e .held s := if_pos h

theorem subscriberTimeout_waits (h : ¬(isDark s.plant.tree (subFeed s e.subscriber) = true ∨ s.part.state = .quiescing))
    (ha : e.attempts < (planOf s).maxAttempts) : subscriberTimeout e s = beginWait e (partRead s) :=
  (if_neg h).trans (if_pos ha)

theorem subscriberTimeout_lost (h : ¬(isDark s.plant.tree (subFeed s e.subscriber) = true ∨ s.part.state = .quiescing))
    (ha : (planOf s).maxAttempts ≤ e.attempts) : subscriberTimeout e s = lostWith .unreached 0 e.attempts e s :=
  (if_neg h).trans (if_neg (Nat.not_lt.2 ha))

theorem entryTimeout_kind (e : PendingAck) (s : State) :
    (e.kind = .subscriber → entryTimeout e s = subscriberTimeout e s) ∧
    (e.kind = .retire → entryTimeout e s = retireTimeout e s) := by
  constructor <;> intro hk <;> simp only [entryTimeout, hk]

/-- R102: a retire given up goes back to not yet sent. -/
theorem giveUp_unsent (hk : e.kind = .retire) {r : RetireEntry} (hr : r ∈ (giveUp e s).order.retires) (ht : r.tap = e.tap)
    (hp : r.port = e.port) : r.sent = false := by
  rw [giveUp_retire_order hk] at hr
  obtain ⟨x, _, rfl⟩ := List.mem_map.1 hr
  by_cases hx : x.tap = e.tap ∧ x.port = e.port
  · rw [if_pos hx]
  · rw [if_neg hx] at ht hp
    exact absurd ⟨ht, hp⟩ hx

theorem giveUp_retire_frame (hk : e.kind = .retire) (s : State) : giveUp e s = { s with
    tracker := { s.tracker with table := entriesBut e.tap e.port s.tracker.table }
    order := { s.order with retires := (giveUp e s).order.retires } } := by
  unfold giveUp
  rw [hk]
  rfl

/-- Settles O49: the entry whose time comes first is given up, waits, is lost or becomes a candidate. -/
theorem ackDeadlinesArePassed : Obligations.AckDeadlinesArePassed := by
  unfold Obligations.AckDeadlinesArePassed
  refine ⟨fun e s hm hring hst he => ⟨_, exec_ackTimeout hst he, ?_⟩, fun e s hm hst he => ?_⟩
  · have hringr : RingLaw (reach e.deadline s) := ringLaw_of_writer hring rfl
    cases hk : e.kind with
    | subscriber =>
      rw [(entryTimeout_kind e (reach e.deadline s)).1 hk]
      by_cases hgive : isDark s.plant.tree (subFeed s e.subscriber) = true ∨ s.part.state = .quiescing
      · rw [subscriberTimeout_given (s := reach e.deadline s) hgive]
        have hstatus := subStatus_freeWithLink (s := reach e.deadline s) hm e .held
        refine ⟨rfl, fun _ _ => ⟨hstatus, ?_, freeWithLink_kept e .held (reach e.deadline s), rfl, rfl⟩, fun h hq => ?_,
          fun h => (by cases h), rfl⟩
        · rw [hstatus]
          exact freeWithLink_counts e .held (reach e.deadline s)
        · have hlit := (h.resolve_right fun h => by cases h).2
          exact absurd hgive (not_or.2 ⟨by rw [hlit]; decide, hq⟩)
      · rcases Nat.lt_or_ge e.attempts (planOf s).maxAttempts with ha | ha
        · rw [subscriberTimeout_waits (s := reach e.deadline s) hgive ha, beginWait_eq]
          exact ⟨rfl, fun _ h => absurd h hgive, fun _ _ => ⟨fun _ => ⟨rfl, rfl, rfl⟩, fun h => absurd ha (Nat.not_lt.2 h)⟩,
            fun h => (by cases h), rfl⟩
        · rw [subscriberTimeout_lost (s := reach e.deadline s) hgive ha]
          have hframe := lostWith_frame .unreached 0 e.attempts e (reach e.deadline s)
          have hstatus := subStatus_lostWith .unreached 0 e.attempts e (reach e.deadline s) hringr hm
          refine ⟨by rw [hframe]; rfl, fun _ h => absurd h hgive, fun _ _ => ⟨fun h => absurd h (Nat.not_lt.2 ha), fun _ =>
            ⟨by rw [hframe]; rfl, fun _ => ⟨hstatus, ?_, lostWith_notice _ _ _ e (reach e.deadline s) hringr hm,
              lostWith_logged (b := reach e.deadline s) hm hring rfl rfl e, by rw [hframe]; rfl,
              lostWith_kept _ _ _ e (reach e.deadline s) hringr⟩, fun h => (by cases h)⟩⟩, fun h => (by cases h), ?_⟩
          · rw [hstatus]
            exact lostWith_counts _ _ _ e (reach e.deadline s)
          · rw [hframe]
            rfl
    | retire =>
      rw [(entryTimeout_kind e (reach e.deadline s)).2 hk]
      by_cases hq : s.part.state = .quiescing
      · have hgive : retireTimeout e (reach e.deadline s) = giveUp e (reach e.deadline s) := if_pos hq
        have hframe := giveUp_retire_frame hk (reach e.deadline s)
        rw [hgive]
        refine ⟨by rw [hframe]; rfl, fun h => (by cases h), fun _ h => absurd hq h, fun _ _ => ⟨by rw [hframe]; rfl,
          by rw [hframe]; rfl, by rw [hframe]; rfl, fun r hr ht hp => giveUp_unsent hk hr ht hp⟩, ?_⟩
        rw [hframe]
        rfl
      · rcases Nat.lt_or_ge e.attempts (planOf s).maxAttempts with ha | ha
        · have hwait : retireTimeout e (reach e.deadline s) = beginWait e (reach e.deadline s) := (if_neg hq).trans (if_pos ha)
          rw [hwait, beginWait_eq]
          exact ⟨rfl, fun h => (by cases h), fun _ _ => ⟨fun _ => ⟨rfl, rfl, rfl⟩, fun h => absurd ha (Nat.not_lt.2 h)⟩,
            fun _ h => absurd h hq, rfl⟩
        · have hfail : retireTimeout e (reach e.deadline s) = failRetire e 1 (reach e.deadline s) :=
            (if_neg hq).trans (if_neg (Nat.not_lt.2 ha))
          have hframe := failRetire_frame e 1 (reach e.deadline s)
          rw [hfail]
          refine ⟨by rw [hframe]; rfl, fun h => (by cases h), fun _ _ => ⟨fun h => absurd h (Nat.not_lt.2 ha), fun _ =>
            ⟨by rw [hframe]; rfl, fun h => (by cases h), fun _ => ⟨failRetire_logged (b := reach e.deadline s) hm hring rfl rfl e 1,
              failRetire_kept hringr e 1, by rw [hframe]; rfl⟩⟩⟩, fun _ h => absurd h hq, ?_⟩
          rw [hframe]
          rfl
  · refine ⟨fun hq => ?_, fun hq => ⟨_, exec_retryWaitEnd hst he, ?_⟩⟩
    · have hwait : entryWaitEnd e (reach e.deadline s) =
          updateEntry e.tap e.port (fun x => { x with phase := .candidate }) (reach e.deadline s) := if_neg hq
      rw [exec_retryWaitEnd hst he, hwait, updateEntry_eq]
      rfl
    · have hgive : entryWaitEnd e (reach e.deadline s) = giveUp e (reach e.deadline s) := if_pos hq
      rw [hgive]
      cases hk : e.kind with
      | subscriber =>
        rw [giveUp_subscriber hk]
        have hstatus := subStatus_freeWithLink (s := reach e.deadline s) hm e .held
        refine ⟨rfl, rfl, fun _ => ⟨hstatus, ?_, freeWithLink_kept e .held (reach e.deadline s), rfl⟩, fun h => (by cases h), rfl⟩
        rw [hstatus]
        exact freeWithLink_counts e .held (reach e.deadline s)
      | retire =>
        have hframe := giveUp_retire_frame hk (reach e.deadline s)
        refine ⟨by rw [hframe]; rfl, by rw [hframe]; rfl, fun h => (by cases h), fun _ => ⟨by rw [hframe]; rfl,
          by rw [hframe]; rfl, fun r hr ht hp => giveUp_unsent hk hr ht hp⟩, ?_⟩
        rw [hframe]
        rfl

end Sys2Proof.Machine


/-! ## BUY (R151 to R155) -/

namespace Sys2Proof.Machine

variable {s t u v b : State} {f : UpFrame} {tap port i j k token : Nat}

/-! The answer's code (R155). -/

/-- R155, 12.4: the error code of a refusal that an answer's code stands for. -/
def answeredError (answer : Nat) : Nat := [14, 17, 13, 19, 15, 16, 18].getD answer 0

theorem replyResult_of_code {e : RequestError} {answer : Nat} (h : e.code = answeredError answer) (ha : answer ≤ 6) :
    replyResult (.refused e) = answer := by
  have hall : ∀ a : Fin 7, e.code = answeredError a → replyResult (.refused e) = a := by cases e <;> decide
  exact hall ⟨answer, Nat.lt_succ_of_le ha⟩ h

/-- R153, R155: the first check that fails names the answer. -/
theorem refusal_of_answer {answer : Nat} {r : RingCopy}
    (h : if s.clock.valid = false then answer = 3
       else if servable s i = false ∨ (subStatus s i).confirmed ≠ .full then answer = 1
       else if purchasable s k = false then answer = 2
       else if livePlaceOf s i k ≠ none then answer = 0
       else if freePlace s i = none then answer = 4
       else if (subRd s i 5).toNat < (subRd s i 13).toNat + (armedOf s k).price then answer = 5
       else ringFull .journal r = true ∧ answer = 6) :
    answer ≤ 6 ∧ ((∃ f, purchaseRefusal s i k = some f ∧ f.code = answeredError answer ∧ f ≠ .journalFull) ∨
      (purchaseRefusal s i k = none ∧ ringFull .journal r = true ∧ answeredError answer = 18)) := by
  refine ⟨?_, purchaseRefusal_code (r := r) ?_⟩
  · split_ifs at h <;> omega
  · split_ifs at h ⊢
    · rw [h]; rfl
    · rw [h]; rfl
    · rw [h]; rfl
    · rw [h]; rfl
    · rw [h]; rfl
    · rw [h]; rfl
    · exact ⟨h.1, by rw [h.2]; rfl⟩

theorem answeredError_credit {answer : Nat} (ha : answer ≤ 6) : answeredError answer = 16 ↔ answer = 5 := by
  interval_cases answer <;> decide

theorem answeredError_full {answer : Nat} (ha : answer ≤ 6) : answeredError answer = 18 ↔ answer = 6 := by
  interval_cases answer <;> decide

/-! The frame's ways. -/

theorem buyerOf_none (h : 7 < port ∨ holderOf s tap port = none) : buyerOf s tap port = none := by
  unfold buyerOf
  split
  · exact h.resolve_left (by omega)
  · rfl

theorem buyerOf_some (hp : port ≤ 7) (h : holderOf s tap port = some i) : buyerOf s tap port = some i :=
  (if_pos hp).trans h

theorem answerBuy_unknown (h : buyerOf s tap port = none) (k token : Nat) :
    answerBuy tap port k token s = queueReply tap port token 1 s := by
  simp only [answerBuy, h]
  rfl

theorem answerBuy_noSlot (h : buyerOf s tap port = some i) (hk : 7 < k) (token : Nat) :
    answerBuy tap port k token s = queueReply tap port token 2 s := by
  simp only [answerBuy, h, if_pos hk]
  rfl

theorem answerBuy_decided {o : PurchaseOutcome} (h : buyerOf s tap port = some i) (hk : k ≤ 7)
    (hd : decidePurchase i k sourceConverter token s = (v, o)) :
    answerBuy tap port k token s = queueReply tap port token (replyResult o) v := by
  simp only [answerBuy, h, if_neg (Nat.not_lt.2 hk), hd]

theorem seesAs_heard (s : State) : SeesAs s (heard s) := ⟨rfl, rfl, rfl, fun _ _ => rfl⟩

section buy
variable (hst : started s = true) (hjudge : judgeFrame f = .buy tap port k token) (hl : LineRested f s)
include hst hjudge hl

theorem exec_buy : exec (.buy f) s = .next (latchArisen s (takeBuy tap port k token (heard s))) := by
  obtain ⟨hvcc, hres⟩ : s.power.vcc = true ∧ s.power.resetting = false := by
    have hr := ((started_iff s).1 hst).1
    simp only [running, Bool.and_eq_true, Bool.not_eq_true'] at hr
    exact hr.1
  have hframe := receiveFrame_buy hvcc hres hl hjudge
  rw [if_pos hst] at hframe
  exact congrArg (fun v => Host.Outcome.next (latchArisen s v)) hframe

theorem exec_buy_discarded (h : s.part.state ≠ .serving ∨ 8 ≤ s.sched.replies.length) :
    exec (.buy f) s = .next (latchArisen s (heard s)) := by
  have htake : takeBuy tap port k token (heard s) = heard s :=
    if_neg fun hc => h.elim (fun hn => hn hc.1) fun hn => absurd hc.2 (Nat.not_lt.2 hn)
  rw [exec_buy hst hjudge hl, htake]

theorem exec_buy_answered (hp : s.part.state = .serving) (hroom : s.sched.replies.length < 8) :
    exec (.buy f) s = .next (concluded s (answerBuy tap port k token (heard s))) := by
  have htake : takeBuy tap port k token (heard s) = settle (answerBuy tap port k token (heard s)) := if_pos ⟨hp, hroom⟩
  rw [exec_buy hst hjudge hl, htake]
  rfl

theorem buy_refuses {answer : Nat} {r l : RingCopy} (hm : MemWf s.mem) (hp : s.part.state = .serving)
    (hroom : s.sched.replies.length < 8) (hport : port ≤ 7) (hholder : holderOf s tap port = some i) (hk : k ≤ 7)
    (hl' : s.writer.log = some l) (hj : s.writer.journal = some r) (ha : answer ≤ 6)
    (hf : (∃ f, purchaseRefusal s i k = some f ∧ f.code = answeredError answer ∧ f ≠ .journalFull) ∨
      (purchaseRefusal s i k = none ∧ ringFull .journal r = true ∧ answeredError answer = 18)) :
    ∃ u, exec (.buy f) s = .next (concluded s u) ∧ GoodStep s u ∧
        u.sched = { s.sched with replies := s.sched.replies ++
          [{ tap := tap, port := BitVec.ofNat 8 port, token := BitVec.ofNat 8 token
             result := BitVec.ofNat 8 answer }] } ∧
        (answer ≠ 5 → u.mem = s.mem) ∧
        (answer = 5 → WordsKept [subscriberWord i 7] s u ∧ subRd u i 7 = subRd s i 7 ||| 4) ∧
        (answer ≠ 6 → u.flags = s.flags) ∧ (answer = 6 → u.flags = s.flags ||| 0x1000) ∧
        (PortIdle s → u.port = { s.port with last := some .part }) ∧
        u = { s with
          mem := u.mem, port := u.port, sched := u.sched, receiver := u.receiver, flags := u.flags } := by
  have hsees := seesAs_heard s
  have hstate : (heard s).part.state ≠ .starting := ((started_iff s).1 hst).2
  rw [← hsees.purchaseRefusal] at hf
  obtain ⟨e, v, hdecide, hcode, hrefused⟩ :=
    decidePurchase_refuses (b := heard s) (l := l) (r := r) hstate hl' hj sourceConverter token hf
  have hresult := replyResult_of_code hcode ha
  have hanswer := answerBuy_decided (s := heard s) (buyerOf_some (s := heard s) hport hholder) hk hdecide
  rw [hresult] at hanswer
  have hexec := exec_buy_answered hst hjudge hl hp hroom
  rw [hanswer] at hexec
  have hcredit : e = .credit ↔ answer = 5 := by rw [← e.code_eq_credit, hcode, answeredError_credit ha]
  have hfull : e = .journalFull ↔ answer = 6 := by rw [← e.code_eq_journalFull, hcode, answeredError_full ha]
  have hframe := hrefused.frame
  unfold FlagsAndWords at hframe
  refine ⟨_, hexec, goodStep_of_receiver (by rw [queueReply, hframe]), by rw [queueReply, hframe]; rfl,
    fun h => hrefused.same (mt hcredit.1 h), fun h => ?_, fun h => hrefused.flags (mt hfull.1 h),
    fun h => hrefused.full (hfull.2 h), fun hidle => hrefused.port hidle, ?_⟩
  · obtain ⟨hwords, hnotice⟩ := hrefused.credit (hcredit.2 h)
    exact ⟨hwords, hnotice hm⟩
  · rw [queueReply, hframe]
    rfl

theorem buy_fills {price : Nat} {r l : RingCopy} (hm : MemWf s.mem) (hring : RingLaw s) (hp : s.part.state = .serving)
    (hroom : s.sched.replies.length < 8) (hport : port ≤ 7) (hholder : holderOf s tap port = some i) (hk : k ≤ 7)
    (hnone : purchaseRefusal s i k = none) (hfree : freePlace s i = some j) (hprice : price = (armedOf s k).price)
    (hcredit : (subRd s i 13).toNat + price ≤ (subRd s i 5).toNat) (hl' : s.writer.log = some l)
    (hj : s.writer.journal = some r) (hjroom : ringFull .journal r = false) :
    ∃ u, exec (.buy f) s = .next (concluded s u) ∧ GoodStep s u ∧
        u.sched.replies = s.sched.replies ++
          [{ tap := tap, port := BitVec.ofNat 8 port, token := BitVec.ofNat 8 token, result := 0 }] ∧
        subRd u i (14 + 2 * j) = wordOf (k + 32768) ∧ subRd u i (15 + 2 * j) = wordOf (slotEvent s k) ∧
        (subRd u i 13).toNat = (subRd s i 13).toNat + price ∧
        rd u (slotWord k 8) = wordOf ((rd s (slotWord k 8)).toNat + 1) ∧
        rdPair u (slotWord k 9) = (rdPair s (slotWord k 9) + price) % 4294967296 ∧
        JournalAt r.head r.sequence 1 [i, k, slotEvent s k, price, 0, token, 0, 0, 0, 0, 0, 0] s u ∧
        u.writer.journal =
          some { head := (r.head + 1) % 1024, tail := r.tail, sequence := nextSequence r.sequence } ∧
        (slotState s k = .showing → Submitted i s u ∧ isWaiting u i = true) ∧
        (slotState s k = .open → u.sched = { s.sched with replies := u.sched.replies }) ∧
        u.sched = { s.sched with
          replies := u.sched.replies, queue := u.sched.queue, deferred := u.sched.deferred
          refresh := u.sched.refresh } ∧
        KeptOutside
          (withRings ([13, 14 + 2 * j, 15 + 2 * j].map (subscriberWord i) ++ [8, 9, 10].map (slotWord k))) s u ∧
        u = { s with
          mem := u.mem, port := u.port, sched := u.sched, receiver := u.receiver
          writer := { s.writer with journal := u.writer.journal, taken := false } } := by
  have hsees := seesAs_heard s
  have hringb : RingLaw (heard s) := ringLaw_of_writer hring rfl
  have hmb : MemWf (heard s).mem := hm
  have hdecide : decidePurchase i k sourceConverter token (heard s) =
      (purchased i k j sourceConverter token (heard s), .accepted r.sequence) :=
    decidePurchase_fills sourceConverter token hringb hk hl' hj hjroom ((hsees.purchaseRefusal i k).trans hnone)
      ((hsees.freePlace i).trans hfree)
  have hanswer := answerBuy_decided (s := heard s) (buyerOf_some (s := heard s) hport hholder) hk hdecide
  have hexec := exec_buy_answered hst hjudge hl hp hroom
  rw [hanswer] at hexec
  refine ⟨_, hexec, ?_⟩
  have hfilled {w : Nat} {x : Word} (hx : (subscriberWord i w, x) ∈ filledWords i k j (heard s)) :
      subRd (bought i k j sourceConverter token (heard s)) i w = x :=
    rd_bought_filled hmb hringb hk (freePlace_lt hfree) hx sourceConverter token
  have hjournal := journalAt_bought (i := i) (j := j) hmb (r := r) hj hk sourceConverter token
  obtain ⟨hcount, hrevenue⟩ := bought_totals hmb i k j sourceConverter token
  have hkept := bought_kept hringb i k j sourceConverter token
  have hwriter := journalled_writer (b := heard s) (r := r) hj i k j sourceConverter token
  have hbframe := bought_frame i k j sourceConverter token (heard s)
  have hpframe := purchased_frame i k j sourceConverter token (heard s)
  have hsub := purchased_submitted (b := heard s) (i := i) (k := k) (j := j) (source := sourceConverter) (token := token)
  have honly := purchased_submissionOnly (b := heard s) (k := k) i j sourceConverter token
  have hopen := purchased_sched_open (b := heard s) (i := i) (k := k) (j := j) (source := sourceConverter) (token := token)
  rw [hwriter] at hbframe
  rw [hsees.slotState] at hsub hopen
  rw [hsees.slotEvent, hsees.armedOf, ← hprice] at hjournal
  rw [hsees.slotRd] at hcount
  rw [hsees.slotPair, hsees.armedOf, ← hprice] at hrevenue
  unfold filledWords at hfilled
  rw [hsees.slotEvent, hsees.subRd, hsees.armedOf, ← hprice] at hfilled
  generalize purchased i k j sourceConverter token (heard s) = v at *
  generalize bought i k j sourceConverter token (heard s) = w at *
  have hmem : (queueReply tap port token (replyResult (.accepted r.sequence)) v).mem = w.mem := by rw [queueReply, hpframe]
  generalize hu : queueReply tap port token (replyResult (.accepted r.sequence)) v = u at *
  have hrd (a : Nat) : rd u a = rd w a := rd_congr hmem a
  have husched : u.sched = { v.sched with replies := v.sched.replies ++
      [{ tap := tap, port := BitVec.ofNat 8 port, token := BitVec.ofNat 8 token, result := 0 }] } := by
    rw [← hu]
    rfl
  have hprice13 : (wordOf ((subRd s i 13).toNat + price)).toNat = (subRd s i 13).toNat + price :=
    wordOf_toNat (by have := (subRd s i 5).isLt; omega)
  have hrest : u = { w with sched := u.sched } := by rw [← hu, queueReply, hpframe]
  unfold SubmissionOnly at honly
  refine ⟨goodStep_of_receiver (by rw [hrest, hbframe]), by rw [husched, honly]; rfl,
    (hrd _).trans (hfilled List.mem_cons_self), (hrd _).trans (hfilled (List.mem_cons_of_mem _ List.mem_cons_self)), ?_,
    (hrd _).trans hcount, (rdPair_congr (hrd _) (hrd _)).trans hrevenue, ?_, by rw [hrest, hbframe], fun hshow => ?_,
    fun ho => ?_, ?_, fun a ha => (hrd a).trans (hkept a ha), ?_⟩
  · rw [show subRd u i 13 = subRd w i 13 from hrd _,
      hfilled (w := 13) (List.mem_cons_of_mem _ (List.mem_cons_of_mem _ List.mem_cons_self)), hprice13]
  · exact (hjournal.of_clock (s := s) rfl).congr (fun w _ => hrd _) (Nat.le_refl _)
  · obtain ⟨⟨h₁, h₂, h₃, h₄⟩, hw⟩ := hsub hshow
    unfold Submitted isWaiting
    rw [husched]
    exact ⟨⟨h₁, h₂, h₃, h₄⟩, hw⟩
  · rw [husched, hopen ho]
    rfl
  · rw [husched, honly]
    rfl
  · rw [hrest, hbframe]
    rfl

end buy

/-- Settles O48: a BUY is a purchase on the state that has heard the frame, with its answer queued behind the others. -/
theorem buyIsDecidedAndAnswered : Obligations.BuyIsDecidedAndAnswered := by
  unfold Obligations.BuyIsDecidedAndAnswered
  intro tap port k token f s hm hring hst ht hp hk htoken hf hl
  have hjudge : judgeFrame f = .buy tap port k token := (congrArg judgeFrame hf).trans (judge_buyFrame ht hp hk htoken _)
  refine ⟨fun h => ?_, fun answer hserving hroom ha => ?_, fun i answer r l hserving hroom hport hholder hslot hlog hj ha => ?_,
    fun i j price r l hserving hroom hport hholder hslot hvalid hserve hfull hopen hlive hfree hprice hcredit hlog hj hjroom =>
      buy_fills hst hjudge hl hm hring hserving hroom hport hholder hslot (purchaseRefusal_none hvalid
        ((purchasable_iff s k).2 hopen) (recordRefusal_none hserve hfull hlive hfree (hprice ▸ hcredit))) hfree hprice hcredit
        hlog hj hjroom⟩
  · refine ⟨_, exec_buy_discarded hst hjudge hl h, goodStep_of_receiver (latchArisen_receiver _ _),
      flagsFollow_latchArisen rfl, ?_⟩
    rw [latchArisen_frame]
    rfl
  · have hexec := exec_buy_answered hst hjudge hl hserving hroom
    rcases ha with ⟨hnone, rfl⟩ | ⟨hport, hholder, hslot, rfl⟩
    · rw [answerBuy_unknown (buyerOf_none (s := heard s) hnone)] at hexec
      exact ⟨_, hexec, goodStep_of_receiver rfl, rfl, rfl⟩
    · obtain ⟨i, hi⟩ := Option.ne_none_iff_exists'.1 hholder
      rw [answerBuy_noSlot (buyerOf_some (s := heard s) hport hi) hslot] at hexec
      exact ⟨_, hexec, goodStep_of_receiver rfl, rfl, rfl⟩
  · obtain ⟨hle, hrefusal⟩ := refusal_of_answer ha
    exact buy_refuses hst hjudge hl hm hserving hroom hport hholder hslot hlog hj hle hrefusal

end Sys2Proof.Machine


/-! ## The results of polls (R116, R117, R119, R120) -/

namespace Sys2Proof.Machine

variable {s t u v w b : State} {i : Nat} {e : Element} {ws vs : List (Nat × Word)} {p q : Plant}

/-! Words of one element's record, written in turn. -/

/-- Words of an element's record with what is written in them. -/
def elementCells (i : Nat) (ws : List (Nat × Word)) : List (Nat × Word) := ws.map fun x => (elementWord i x.1, x.2)

/-- The state `v` is `b` with words of an element's record written, and the Plant Monitor as it is given. -/
structure Marks (i : Nat) (ws : List (Nat × Word)) (p : Plant) (b v : State) : Prop where
  mem : v.mem = (wrAll b (elementCells i ws)).mem
  frame : v = { b with mem := v.mem, port := v.port, plant := p }

theorem Marks.step (h : Marks i ws p b v) (k : Marks i vs q v w) : Marks i (ws ++ vs) q b w := by
  refine ⟨?_, ?_⟩
  · rw [elementCells, List.map_append, wrAll_append, k.mem]
    exact wrAll_mem_congr _ h.mem
  · rw [k.frame, h.frame]

theorem Marks.cells_fst (i : Nat) (ws : List (Nat × Word)) :
    (elementCells i ws).map Prod.fst = (ws.map Prod.fst).map (elementWord i) := by
  simp [elementCells, Function.comp_def]

theorem Marks.wf (h : Marks i ws p b v) (hm : MemWf b.mem) : MemWf v.mem := by
  rw [h.mem]
  exact wrAll_wf _ _ hm

theorem Marks.rd_mem (h : Marks i ws p b v) (hm : MemWf b.mem) (hn : (ws.map Prod.fst).Nodup) {k : Nat} {x : Word}
    (hx : (k, x) ∈ ws) : rd v (elementWord i k) = x := by
  rw [rd_congr h.mem]
  refine rd_wrAll_mem hm ?_ (List.mem_map_of_mem (f := fun x : Nat × Word => (elementWord i x.1, x.2)) hx)
  rw [Marks.cells_fst]
  exact elementWords_nodup i hn

theorem Marks.kept (h : Marks i ws p b v) : WordsKept ((ws.map Prod.fst).map (elementWord i)) b v := fun a ha => by
  rw [rd_congr h.mem]
  exact wrAll_wordsKept _ b a (by rwa [Marks.cells_fst])

theorem elementWord_mem_iff {k : Nat} {l : List Nat} : elementWord i k ∈ l.map (elementWord i) ↔ k ∈ l :=
  List.mem_map_of_injective fun _ _ he => Nat.add_left_cancel he

theorem Marks.rd_other (h : Marks i ws p b v) {k : Nat} (hk : k ∉ ws.map Prod.fst) :
    rd v (elementWord i k) = rd b (elementWord i k) := h.kept _ (mt elementWord_mem_iff.1 hk)

theorem setCounter_marks (i c : Nat) (v : State) : Marks i [(5, wordOf c)] v.plant v (setCounter i c v) := ⟨rfl, rfl⟩

theorem setElementState_marks (i : Nat) (st : ElementState) (v : State) : Marks i [(4, wordOf st.code)]
    { v.plant with tree := treeSetState v.plant.tree i st } v (setElementState i st v) := ⟨rfl, rfl⟩

/-- The Plant Monitor is replaced. -/
def planted (p : Plant) (v : State) : State := { v with plant := p }

theorem setPlant_marks (i : Nat) (p : Plant) (v : State) : Marks i [] p v (planted p v) := ⟨rfl, rfl⟩

theorem setNotice_marks (i bit : Nat) (v : State) :
    Marks i [(8, rd v (elementWord i 8) ||| wordOf (2 ^ bit))] v.plant v (setNotice (elementWord i 8) bit v) := ⟨rfl, rfl⟩

/-- R119 step 1: the stamp of an outage that begins now. -/
def outageStamp (s : State) : Nat := if s.clock.valid then currentStamp s else unknownStamp

/-- R119 steps 1 and 2: the words of an outage's start. -/
def stampWords (i : Nat) (s : State) : List (Nat × Word) :=
  [(9, pairLowWord (outageStamp s)), (10, pairHighWord (outageStamp s)),
    (12, wordOf (saturate16 ((rd s (elementWord i 12)).toNat + 1)))]

theorem stampOutage_marks (i : Nat) (v : State) : Marks i (stampWords i v) v.plant v (stampOutage i v) := by
  have hpair : Marks i [(9, pairLowWord (outageStamp v)), (10, pairHighWord (outageStamp v))] v.plant v
      (wrPair v (elementWord i 9) (outageStamp v)) := ⟨wrHeld_mem _ _, rfl⟩
  have hcount : Marks i _ _ v (stampOutage i v) := hpair.step (q := v.plant) (vs := [(12, wordOf (saturate16
      ((rd (wrPair v (elementWord i 9) (outageStamp v)) (elementWord i 12)).toNat + 1)))]) ⟨rfl, rfl⟩
  rw [hpair.rd_other (by simp)] at hcount
  exact hcount

theorem stampWords_congr (hc : t.clock = s.clock) (h : rd t (elementWord i 12) = rd s (elementWord i 12)) :
    stampWords i t = stampWords i s := by
  unfold stampWords outageStamp currentStamp
  rw [hc, h]

/-! The words and the Plant Monitor of each result. -/

/-- R119: what the record shows when an outage begins. -/
def outageWords (i c : Nat) (s : State) : List (Nat × Word) :=
  [(5, wordOf c), (4, wordOf 3)] ++ stampWords i s ++ [(8, rd s (elementWord i 8) ||| wordOf (2 ^ 0))]

/-- R119: the Plant Monitor when an outage begins. -/
def outagePlant (i : Nat) (s : State) : Plant :=
  { s.plant with tree := treeSetState s.plant.tree i .out, outCount := s.plant.outCount + 1 }

theorem addressOf_treeSet {st : ElementState} (h : v.plant.tree = treeSetState b.plant.tree i st)
    (he : tableGet b.plant.tree i = some e) : addressOf v i = e.address := by
  rw [treeSetState_eq he] at h
  unfold addressOf
  rw [h, tableGet_tableSet_same]

/-- R119: the record and the Plant Monitor when an outage has begun, its notice not yet set. -/
def outageBegun (i c : Nat) (b : State) : State :=
  planted (outagePlant i b) (stampOutage i (setElementState i .out (setCounter i c b)))

theorem beginOutage_eq (i m c : Nat) (b : State) : beginOutage i m (setCounter i c b) =
    logAppend .outage i (affectedCount (treeSetState b.plant.tree i .out) b.order.direct i) m (addressOf (outageBegun i c b) i)
      (setNotice (elementWord i 8) 0 (outageBegun i c b)) := rfl

theorem outageBegun_marks (i c : Nat) (b : State) :
    Marks i (outageWords i c b) (outagePlant i b) b (setNotice (elementWord i 8) 0 (outageBegun i c b)) := by
  have h₁ := (setCounter_marks i c b).step (setElementState_marks i .out (setCounter i c b))
  have h₂ := h₁.step (stampOutage_marks i _)
  have hstamp : stampWords i (setElementState i .out (setCounter i c b)) = stampWords i b :=
    stampWords_congr rfl (h₁.rd_other (by simp))
  have h₃ : Marks i _ (outagePlant i b) b (outageBegun i c b) := h₂.step (setPlant_marks i (outagePlant i b) _)
  have h₄ := h₃.step (setNotice_marks i 0 _)
  rw [h₃.rd_other (by simp [stampWords]), hstamp] at h₄
  exact h₄

/-- R120: the Plant Monitor when an outage ends. -/
def endedPlant (i : Nat) (s : State) : Plant :=
  { s.plant with tree := treeSetState s.plant.tree i .inService, outCount := s.plant.outCount - 1 }

/-- R120: what the record shows when an outage ends. -/
def endedWords (i c : Nat) (s : State) : List (Nat × Word) :=
  [(5, wordOf c), (4, wordOf 2), (11, wordOf (outageDuration s i))] ++ [(8, rd s (elementWord i 8) ||| wordOf (2 ^ 1))]

/-- R120: the record and the Plant Monitor when an outage has ended, its notice not yet set. -/
def outageEnded (i c : Nat) (b : State) : State :=
  planted (endedPlant i b) (wr (setElementState i .inService (setCounter i c b)) (elementWord i 11)
    (wordOf (outageDuration b i)))

theorem outageDuration_inService (i c : Nat) (b : State) :
    outageDuration (setElementState i .inService (setCounter i c b)) i = outageDuration b i := by
  have h₁ := (setCounter_marks i c b).step (setElementState_marks i .inService (setCounter i c b))
  exact outageDuration_congr rfl (rdPair_congr (h₁.rd_other (by simp)) (h₁.rd_other (k := 10) (by simp)))

theorem endOutage_eq (i c : Nat) (b : State) : endOutage i c (setCounter i c b) = sweepIfLit i
    (logAppend .restore i (outageDuration b i) (affectedCount (treeSetState b.plant.tree i .inService) b.order.direct i) c
      (setNotice (elementWord i 8) 1 (outageEnded i c b))) := by
  unfold endOutage
  dsimp only
  rw [outageDuration_inService]
  rfl

theorem outageEnded_marks (i c : Nat) (b : State) :
    Marks i (endedWords i c b) (endedPlant i b) b (setNotice (elementWord i 8) 1 (outageEnded i c b)) := by
  have h₁ := (setCounter_marks i c b).step (setElementState_marks i .inService (setCounter i c b))
  have h₂ : Marks i _ _ b (wr (setElementState i .inService (setCounter i c b)) (elementWord i 11)
      (wordOf (outageDuration b i))) :=
    h₁.step (vs := [(11, wordOf (outageDuration b i))]) (q := (setElementState i .inService (setCounter i c b)).plant) ⟨rfl, rfl⟩
  have h₃ : Marks i _ (endedPlant i b) b (outageEnded i c b) := h₂.step (setPlant_marks i (endedPlant i b) _)
  have h₄ := h₃.step (setNotice_marks i 1 _)
  rw [h₃.rd_other (by simp)] at h₄
  exact h₄

/-- R117: the Plant Monitor when an element is latched out that was in state `was`. -/
def latchPlant (i : Nat) (was : ElementState) (s : State) : Plant :=
  { s.plant with
    tree := treeSetState s.plant.tree i .latchedOut, outCount := s.plant.outCount - if was = .out then 1 else 0
    latchedCount := s.plant.latchedCount + if was = .latchedOut then 0 else 1 }

/-- R117: an outage begins with the latch, unless the element was out already. -/
def beginsOutage (was : ElementState) : Bool := decide (was = .unpolled) || decide (was = .inService)

/-- R117: what the record shows of an element latched out. -/
def latchWords (i : Nat) (was : ElementState) (s : State) : List (Nat × Word) :=
  [(5, wordOf (counterMax s i)), (4, wordOf 4)] ++ (if beginsOutage was then stampWords i s else []) ++
    [(8, rd s (elementWord i 8) ||| wordOf (2 ^ 2))]

/-- R117: the record and the Plant Monitor of an element latched out, its notice not yet set. -/
def latchMade (i : Nat) (was : ElementState) (b : State) : State :=
  planted (latchPlant i was b) (if beginsOutage was then stampOutage i (setElementState i .latchedOut (setCounter i (counterMax b i) b))
    else setElementState i .latchedOut (setCounter i (counterMax b i) b))

theorem latchOut_eq (i : Nat) (was : ElementState) (b : State) : latchOut i was b =
    logAppend .latch i (affectedCount (treeSetState b.plant.tree i .latchedOut) b.order.direct i) (counterMax b i)
      (addressOf (latchMade i was b) i) (setNotice (elementWord i 8) 2 (latchMade i was b)) := by
  cases was <;> rfl

theorem latchMade_marks (i : Nat) (was : ElementState) (b : State) :
    Marks i (latchWords i was b) (latchPlant i was b) b (setNotice (elementWord i 8) 2 (latchMade i was b)) := by
  have h₁ := (setCounter_marks i (counterMax b i) b).step
    (setElementState_marks i .latchedOut (setCounter i (counterMax b i) b))
  have hstamp : stampWords i (setElementState i .latchedOut (setCounter i (counterMax b i) b)) = stampWords i b :=
    stampWords_congr rfl (h₁.rd_other (by simp))
  unfold latchWords latchMade
  by_cases hb : beginsOutage was = true
  · rw [if_pos hb, if_pos hb]
    have h₂ := h₁.step (stampOutage_marks i _)
    have h₃ := h₂.step (setPlant_marks i (latchPlant i was b) _)
    have h₄ := h₃.step (setNotice_marks i 2 _)
    rw [h₃.rd_other (by simp [stampWords]), hstamp] at h₄
    exact h₄
  · rw [if_neg hb, if_neg hb]
    have h₃ := h₁.step (setPlant_marks i (latchPlant i was b) _)
    have h₄ := h₃.step (setNotice_marks i 2 _)
    rw [h₃.rd_other (by simp)] at h₄
    exact h₄

end Sys2Proof.Machine


/-! ## What a result leaves (R116, R117, R119, R120) -/

namespace Sys2Proof.Machine

variable {s t u v w b : State} {i : Nat} {e : Element} {ws vs : List (Nat × Word)} {p q : Plant} {r : PollResult}

/-! Words behind a record of the log. -/

theorem Marks.rd_after (h : Marks i ws p b v) (hm : MemWf b.mem) (hn : (ws.map Prod.fst).Nodup) (hi : i < 256)
    (hk : KeptOutside ringPlace v u) {k : Nat} {x : Word} (hx : (k, x) ∈ ws) (hk16 : k < 16) : rd u (elementWord i k) = x :=
  (hk _ (ringPlace_elementWord hi hk16)).trans (h.rd_mem hm hn hx)

theorem Marks.kept_after (h : Marks i ws p b v) (hk : KeptOutside ringPlace v u) {l : List Nat} (hs : ws.map Prod.fst ⊆ l) :
    KeptOutside (withRings (l.map (elementWord i))) b u :=
  (h.kept.withRings (List.map_subset _ hs)).trans hk.withRings

theorem Marks.ring (h : Marks i ws p b v) (hring : RingLaw b) : RingLaw v :=
  ringLaw_of_writer hring (by rw [h.frame])

theorem Marks.logged (h : Marks i ws p b v) (hm : MemWf b.mem) (hring : RingLaw b) (k : LogKind) (x a c d : Nat) :
    Logged k x a c d b (logAppend k x a c d v) :=
  logged_logAppend (h.wf hm) hring (by rw [h.frame]) (by rw [h.frame]) (fun _ _ => rfl) rfl

theorem Marks.logKept (h : Marks i ws p b v) (hring : RingLaw b) (k : LogKind) (x a c d : Nat) :
    KeptOutside ringPlace v (logAppend k x a c d v) := logAppend_kept (h.ring hring) k x a c d

theorem Marks.log_frame (h : Marks i ws p b v) (k : LogKind) (x a c d : Nat) : logAppend k x a c d v = { b with
    mem := (logAppend k x a c d v).mem, port := (logAppend k x a c d v).port, plant := p
    writer := (logAppend k x a c d v).writer, flags := (logAppend k x a c d v).flags } := by
  have hlog := logAppend_frame k x a c d v
  rw [h.frame] at hlog ⊢
  exact hlog

theorem elementWord_outside {k : Nat} {l : List Nat} (hi : i < 256) (hk : k < 16) (h : k ∉ l) :
    withRings (l.map (elementWord i)) (elementWord i k) = false := by
  rw [← Bool.not_eq_true, withRings_iff, not_or, elementWord_mem_iff, ringPlace_elementWord hi hk]
  exact ⟨h, Bool.false_ne_true⟩

/-- A word of the record outside those written. -/
theorem rd_element_of_keptOutside {l : List Nat} (h : KeptOutside (withRings (l.map (elementWord i))) b u) (hi : i < 256) {k : Nat}
    (hk : k < 16) (hl : k ∉ l) : rd u (elementWord i k) = rd b (elementWord i k) := h _ (elementWord_outside hi hk hl)

/-- R82: an element that is lit has a new RESTORE sweep, or the new RESYNC it was folded into. -/
theorem sweepIfLit_opens_new (h : isDark s.plant.tree i = false) :
    ∃ w ∈ (sweepIfLit i s).sched.sweeps, (w.kind = .restore i ∨ w.kind = .resync) ∧ w.cursor = 0 := by
  rw [sweepIfLit_lit h]
  rcases openSweep_mandatory (k := .restore i) rfl s with hw | hw
  · exact ⟨_, hw, .inl rfl, rfl⟩
  · exact ⟨_, hw, .inr rfl, rfl⟩

/-! The result. -/

/-- R116, R117: the state and the counter of an element after a result. -/
def resultOf (r : PollResult) (i : Nat) (e : Element) (b : State) : ElementState × Nat :=
  bandAfter r (elementLimit b i) (counterMax b i) e.state (counterOf b i)

theorem elementLimit_le (s : State) (i : Nat) : elementLimit s i ≤ 127 := by
  unfold elementLimit limitOf
  split <;> omega

theorem counterMax_lt (s : State) (i : Nat) : counterMax s i < 65536 := by
  have hl := elementLimit_le s i
  have hh : elementHold s i ≤ 127 := Nat.min_le_right _ _
  unfold counterMax
  omega

theorem outageStamped_of_words (hm : MemWf b.mem) (h : Marks i ws p b v) (hn : (ws.map Prod.fst).Nodup) (hi : i < 256)
    (hk : KeptOutside ringPlace v u) (hws : stampWords i b ⊆ ws) : OutageStamped i b u := by
  have h9 := h.rd_after hm hn hi hk (hws (List.mem_cons_self)) (by decide)
  have h10 := h.rd_after hm hn hi hk (hws (List.mem_cons_of_mem _ List.mem_cons_self)) (by decide)
  have h12 := h.rd_after hm hn hi hk (hws (List.mem_cons_of_mem _ (List.mem_cons_of_mem _ List.mem_cons_self))) (by decide)
  refine ⟨?_, h12⟩
  have hpair : rdPair u (elementWord i 9) = outageStamp b % 4294967296 := by
    rw [rdPair, elementWord_succ, h9, h10, pairValue_words_mod]
  rw [hpair, outageStamp]
  split <;> rfl

/-- What a result leaves of an element that stood in the tree as `e`. -/
structure ResultApplied (i : Nat) (e : Element) (r : PollResult) (b u : State) : Prop where
  self : tableGet u.plant.tree i = some { e with state := (resultOf r i e b).1 }
  others : ∀ j, j ≠ i → tableGet u.plant.tree j = tableGet b.plant.tree j
  plant : u.plant = { b.plant with
    tree := u.plant.tree, outCount := u.plant.outCount, latchedCount := u.plant.latchedCount }
  counter : counterOf u i = (resultOf r i e b).2
  state : rd u (elementWord i 4) = if (resultOf r i e b).1 = e.state ∧ r ≠ .exhausted then rd b (elementWord i 4)
    else wordOf (resultOf r i e b).1.code
  outage : r = .failed → e.state ≠ .out → (resultOf r i e b).1 = .out →
    u.plant.outCount = b.plant.outCount + 1 ∧ u.plant.latchedCount = b.plant.latchedCount ∧ OutageStamped i b u ∧
    rd u (elementWord i 8) = rd b (elementWord i 8) ||| 1 ∧
    Logged .outage i (affectedCount u.plant.tree b.order.direct i) (counterMax b i) e.address b u ∧ u.sched = b.sched ∧
    KeptOutside (withRings ([4, 5, 8, 9, 10, 12].map (elementWord i))) b u
  latch : r = .exhausted →
    u.plant.outCount = b.plant.outCount - (if e.state = .out then 1 else 0) ∧
    u.plant.latchedCount = b.plant.latchedCount + (if e.state = .latchedOut then 0 else 1) ∧
    (e.state = .unpolled ∨ e.state = .inService → OutageStamped i b u) ∧
    (e.state = .out ∨ e.state = .latchedOut → KeptOutside (withRings ([4, 5, 8].map (elementWord i))) b u) ∧
    rd u (elementWord i 8) = rd b (elementWord i 8) ||| 4 ∧
    Logged .latch i (affectedCount u.plant.tree b.order.direct i) (counterMax b i) e.address b u ∧ u.sched = b.sched ∧
    KeptOutside (withRings ([4, 5, 8, 9, 10, 12].map (elementWord i))) b u
  restore : r = .good → e.state = .out → (resultOf r i e b).1 = .inService →
    u.plant.outCount = b.plant.outCount - 1 ∧ u.plant.latchedCount = b.plant.latchedCount ∧
    rd u (elementWord i 11) = wordOf (outageDuration b i) ∧ rd u (elementWord i 8) = rd b (elementWord i 8) ||| 2 ∧
    LoggedFirst .restore i (outageDuration b i) (affectedCount u.plant.tree b.order.direct i) (resultOf r i e b).2 b u ∧
    (isDark u.plant.tree i = true ∨ b.sched.sweeps.length < 4 →
      Logged .restore i (outageDuration b i) (affectedCount u.plant.tree b.order.direct i) (resultOf r i e b).2 b u) ∧
    (isDark u.plant.tree i = true → u.sched = b.sched) ∧
    (isDark u.plant.tree i = false → ∃ w ∈ u.sched.sweeps, (w.kind = .restore i ∨ w.kind = .resync) ∧ w.cursor = 0) ∧
    (isDark u.plant.tree i = false → b.sched.sweeps.length < 4 → ∃ w ∈ u.sched.sweeps, w.kind = .restore i ∧ w.cursor = 0) ∧
    KeptOutside (withRings ([4, 5, 8, 11].map (elementWord i))) b u
  quiet : r ≠ .exhausted →
    ((resultOf r i e b).1 = e.state → WordsKept ([5].map (elementWord i)) b u) ∧
    ((resultOf r i e b).1 = e.state ∨ e.state = .unpolled ∧ (resultOf r i e b).1 = .inService →
      u.plant.outCount = b.plant.outCount ∧ u.plant.latchedCount = b.plant.latchedCount ∧ u.writer = b.writer ∧
      u.sched = b.sched ∧ WordsKept ([4, 5].map (elementWord i)) b u)
  kept : KeptOutside (withRings ([4, 5, 8, 9, 10, 11, 12].map (elementWord i))) b u
  frame : u = { b with mem := u.mem, port := u.port, plant := u.plant, sched := u.sched, writer := u.writer, flags := u.flags }

theorem wordOf_toNat_lt {n : Nat} (h : n < 65536) : (wordOf n).toNat = n := wordOf_toNat h

section applied
variable (hm : MemWf b.mem) (hi : i < 256) (he : tableGet b.plant.tree i = some e)
include hm hi he

/-- R116: a result that neither begins nor ends an outage. -/
theorem resultApplied_same {c : Nat} (hband : resultOf r i e b = (e.state, c)) (hc : c < 65536) (hne : r ≠ .exhausted) :
    ResultApplied i e r b (setCounter i c b) := by
  have h := setCounter_marks i c b
  have hkeep : KeptOutside ringPlace (setCounter i c b) (setCounter i c b) := KeptOutside.refl _
  have h5 := h.rd_after hm (by simp) hi hkeep List.mem_cons_self (by decide)
  refine ⟨by rw [hband]; exact he, fun _ _ => rfl, rfl, ?_, ?_, fun _ hout hs => ?_, fun hex => absurd hex hne, fun _ hout hs => ?_,
    fun _ => ⟨fun _ => h.kept, fun _ => ⟨rfl, rfl, rfl, rfl, fun a ha => h.kept a (mt (fun hmem => ?_) ha)⟩⟩,
    h.kept_after hkeep (by simp), rfl⟩
  · rw [counterOf, h5, hband, wordOf_toNat hc]
  · rw [hband, if_pos ⟨rfl, hne⟩]
    exact h.rd_other (by simp)
  · rw [hband] at hs
    exact absurd hs hout
  · rw [hband] at hs
    exact ElementState.noConfusion (hout.symm.trans hs)
  · exact List.map_subset _ (by simp) hmem

/-- R116: an UNPOLLED element comes into service. -/
theorem resultApplied_polled {c : Nat} (hst : e.state = .unpolled) (hband : resultOf .good i e b = (.inService, c))
    (hc : c < 65536) : ResultApplied i e .good b (setElementState i .inService (setCounter i c b)) := by
  have h := (setCounter_marks i c b).step (setElementState_marks i .inService (setCounter i c b))
  generalize hu : setElementState i .inService (setCounter i c b) = u at h
  have hkeep : KeptOutside ringPlace u u := KeptOutside.refl _
  have hplant : u.plant = { b.plant with tree := tableSet b.plant.tree i { e with state := .inService } } := by
    rw [h.frame, ← treeSetState_eq he]
    rfl
  have h5 := h.rd_after hm (by simp) hi hkeep List.mem_cons_self (by decide)
  have h4 := h.rd_after hm (by simp) hi hkeep (List.mem_cons_of_mem _ List.mem_cons_self) (by decide)
  refine ⟨?_, fun j hj => ?_, by rw [hplant], ?_, ?_, fun hf => (by cases hf), fun hf => (by cases hf), fun _ hs => ?_,
    fun _ => ⟨fun hs => ?_, fun _ => ⟨by rw [hplant], by rw [hplant], by rw [h.frame], by rw [h.frame], fun a ha =>
      h.kept a (mt (fun hmem => ?_) ha)⟩⟩, h.kept_after hkeep (by simp), ?_⟩
  · rw [hband, hplant]
    exact tableGet_tableSet_same _ _ _
  · rw [hplant]
    exact tableGet_tableSet_other _ _ hj
  · rw [counterOf, h5, hband, wordOf_toNat hc]
  · rw [h4, hband, if_neg fun hn => ?_]
    rw [hst] at hn
    exact ElementState.noConfusion hn.1
  · rw [hst] at hs
    cases hs
  · rw [hband, hst] at hs
    cases hs
  · exact List.map_subset _ (by simp) hmem
  · rw [h.frame]

/-- R119: an outage begins. -/
theorem resultApplied_outage (hring : RingLaw b) (hout : e.state ≠ .out)
    (hband : resultOf .failed i e b = (.out, counterMax b i)) :
    ResultApplied i e .failed b (beginOutage i (counterMax b i) (setCounter i (counterMax b i) b)) := by
  have h := outageBegun_marks i (counterMax b i) b
  have htree : (outagePlant i b).tree = tableSet b.plant.tree i { e with state := .out } := treeSetState_eq he _
  have haddr : addressOf (outageBegun i (counterMax b i) b) i = e.address := addressOf_treeSet (st := .out) rfl he
  rw [beginOutage_eq, haddr]
  generalize setNotice (elementWord i 8) 0 (outageBegun i (counterMax b i) b) = v at h
  generalize hcount : affectedCount (treeSetState b.plant.tree i .out) b.order.direct i = n
  have hkeep := h.logKept hring .outage i n (counterMax b i) e.address
  have hframe := h.log_frame .outage i n (counterMax b i) e.address
  have hlogged := h.logged hm hring .outage i n (counterMax b i) e.address
  generalize logAppend .outage i n (counterMax b i) e.address v = u at *
  have hplant : u.plant = outagePlant i b := by rw [hframe]
  have hnodup : ((outageWords i (counterMax b i) b).map Prod.fst).Nodup := by simp [outageWords, stampWords]
  have hword {k : Nat} {x : Word} (hx : (k, x) ∈ outageWords i (counterMax b i) b) (hk : k < 16) :=
    h.rd_after hm hnodup hi hkeep hx hk
  have h5 := hword (List.mem_append_left _ (List.mem_append_left _ List.mem_cons_self)) (by decide)
  have h4 := hword (List.mem_append_left _ (List.mem_append_left _ (List.mem_cons_of_mem _ List.mem_cons_self))) (by decide)
  have h8 := hword (List.mem_append_right _ List.mem_cons_self) (by decide)
  have hkept := h.kept_after hkeep (l := [4, 5, 8, 9, 10, 12]) (by simp [outageWords, stampWords])
  refine ⟨?_, fun j hj => ?_, by rw [hplant]; rfl, ?_, ?_, fun _ _ _ => ⟨by rw [hplant]; rfl, by rw [hplant]; rfl, ?_, h8, ?_,
    by rw [hframe], hkept⟩, fun hf => (by cases hf), fun hf => (by cases hf),
    fun _ => ⟨fun hs => ?_, fun hs => ?_⟩, ?_, ?_⟩
  · rw [hband, hplant, htree]
    exact tableGet_tableSet_same _ _ _
  · rw [hplant, htree]
    exact tableGet_tableSet_other _ _ hj
  · rw [counterOf, h5, hband, wordOf_toNat (counterMax_lt b i)]
  · rw [h4, hband, if_neg fun hn => hout hn.1.symm]
    rfl
  · exact outageStamped_of_words hm h hnodup hi hkeep fun x hx =>
      List.mem_append_left _ (List.mem_append_right _ hx)
  · rw [hplant, ← hcount] at *
    exact hlogged
  · rw [hband] at hs
    exact absurd hs.symm hout
  · rw [hband] at hs
    exact hs.elim (fun hs => absurd hs.symm hout) fun hs => (by cases hs.2)
  · exact h.kept_after hkeep (by simp [outageWords, stampWords])
  · rw [hframe]

/-- R117: an element is latched out. -/
theorem resultApplied_latch (hring : RingLaw b) : ResultApplied i e .exhausted b (latchOut i e.state b) := by
  have h := latchMade_marks i e.state b
  have htree : (latchPlant i e.state b).tree = tableSet b.plant.tree i { e with state := .latchedOut } := treeSetState_eq he _
  have haddr : addressOf (latchMade i e.state b) i = e.address := addressOf_treeSet (st := .latchedOut) rfl he
  have hband : resultOf .exhausted i e b = (.latchedOut, counterMax b i) := rfl
  rw [latchOut_eq, haddr]
  generalize setNotice (elementWord i 8) 2 (latchMade i e.state b) = v at h
  generalize hcount : affectedCount (treeSetState b.plant.tree i .latchedOut) b.order.direct i = n
  have hkeep := h.logKept hring .latch i n (counterMax b i) e.address
  have hframe := h.log_frame .latch i n (counterMax b i) e.address
  have hlogged := h.logged hm hring .latch i n (counterMax b i) e.address
  generalize logAppend .latch i n (counterMax b i) e.address v = u at *
  have hplant : u.plant = latchPlant i e.state b := by rw [hframe]
  have hnodup : ((latchWords i e.state b).map Prod.fst).Nodup := by
    unfold latchWords
    split <;> simp [stampWords]
  have hsub : (latchWords i e.state b).map Prod.fst ⊆ [4, 5, 8, 9, 10, 12] := by
    unfold latchWords
    split <;> simp [stampWords]
  have hword {k : Nat} {x : Word} (hx : (k, x) ∈ latchWords i e.state b) (hk : k < 16) :=
    h.rd_after hm hnodup hi hkeep hx hk
  have h5 := hword (List.mem_append_left _ (List.mem_append_left _ List.mem_cons_self)) (by decide)
  have h4 := hword (List.mem_append_left _ (List.mem_append_left _ (List.mem_cons_of_mem _ List.mem_cons_self))) (by decide)
  have h8 := hword (List.mem_append_right _ List.mem_cons_self) (by decide)
  refine ⟨?_, fun j hj => ?_, by rw [hplant]; rfl, ?_, ?_, fun hf => (by cases hf), fun _ => ⟨by rw [hplant]; rfl,
    by rw [hplant]; rfl, fun hst => ?_, fun hst => ?_, h8, ?_, by rw [hframe],
    h.kept_after hkeep hsub⟩, fun hf => (by cases hf), fun hf => absurd rfl hf, ?_, by rw [hframe]⟩
  · rw [hband, hplant, htree]
    exact tableGet_tableSet_same _ _ _
  · rw [hplant, htree]
    exact tableGet_tableSet_other _ _ hj
  · rw [counterOf, h5, hband, wordOf_toNat (counterMax_lt b i)]
  · rw [h4, hband, if_neg fun hn => hn.2 rfl]
    rfl
  · have hbegin : beginsOutage e.state = true := by rcases hst with hst | hst <;> rw [hst] <;> rfl
    refine outageStamped_of_words hm h hnodup hi hkeep fun x hx => ?_
    rw [latchWords, if_pos hbegin]
    exact List.mem_append_left _ (List.mem_append_right _ hx)
  · have hbegin : beginsOutage e.state = false := by rcases hst with hst | hst <;> rw [hst] <;> rfl
    exact h.kept_after hkeep (by simp [latchWords, hbegin])
  · rw [hplant, ← hcount] at *
    exact hlogged
  · exact h.kept_after hkeep fun k hk => by
      have := hsub hk
      simp only [List.mem_cons, List.not_mem_nil, or_false] at this ⊢
      tauto

/-- R120: an outage ends. -/
theorem resultApplied_restore (hring : RingLaw b) {c : Nat} (hc : c < 65536) (hout : e.state = .out)
    (hband : resultOf .good i e b = (.inService, c)) :
    ResultApplied i e .good b (endOutage i c (setCounter i c b)) := by
  have h := outageEnded_marks i c b
  have htree : (endedPlant i b).tree = tableSet b.plant.tree i { e with state := .inService } := treeSetState_eq he _
  rw [endOutage_eq]
  generalize setNotice (elementWord i 8) 1 (outageEnded i c b) = v at h
  generalize hcount : affectedCount (treeSetState b.plant.tree i .inService) b.order.direct i = n
  generalize hd : outageDuration b i = d
  have hlkeep := h.logKept hring .restore i d n c
  have hlframe := h.log_frame .restore i d n c
  have hlogged := h.logged hm hring .restore i d n c
  have hfirst : LoggedFirst .restore i d n c b (sweepIfLit i (logAppend .restore i d n c v)) :=
    loggedFirst_logAppend (h.wf hm) hring (by rw [h.frame]) (by rw [h.frame]) (sweepIfLit_recordsKept i _)
  have hroomlogged : b.sched.sweeps.length < 4 → Logged .restore i d n c b (sweepIfLit i (logAppend .restore i d n c v)) := by
    intro hroom
    have hroom' : (logAppend .restore i d n c v).sched.sweeps.length < 4 := by rw [hlframe]; exact hroom
    exact logged_logAppend (h.wf hm) hring (by rw [h.frame]) (by rw [h.frame]) (RingsKept.of_mem (sweepIfLit_room_mem hroom'))
      (sweepIfLit_room_writer hroom')
  have hlring : RingLaw (logAppend .restore i d n c v) := (logAppend_moves (can := fun _ => True) _ _ _ _ _ v).ring (h.ring hring)
  generalize hw : logAppend .restore i d n c v = w at *
  have hwplant : w.plant = endedPlant i b := by rw [hlframe]
  have hwsched : w.sched = b.sched := by rw [hlframe]
  have hkeep : KeptOutside ringPlace v (sweepIfLit i w) := hlkeep.trans (sweepIfLit_kept i hlring)
  have hframe := sweepIfLit_frame i w
  have hdark := sweepIfLit_dark (s := w) (i := i)
  have hopens := sweepIfLit_opens_new (s := w) (i := i)
  have hrestore := sweepIfLit_opens_restore (s := w) (i := i)
  generalize sweepIfLit i w = u at *
  have hplant : u.plant = endedPlant i b := by rw [hframe, hwplant]
  have hnodup : ((endedWords i c b).map Prod.fst).Nodup := by simp [endedWords]
  have hword {k : Nat} {x : Word} (hx : (k, x) ∈ endedWords i c b) (hk : k < 16) := h.rd_after hm hnodup hi hkeep hx hk
  have h5 := hword (List.mem_append_left _ List.mem_cons_self) (by decide)
  have h4 := hword (List.mem_append_left _ (List.mem_cons_of_mem _ List.mem_cons_self)) (by decide)
  have h11 := hword (List.mem_append_left _ (List.mem_cons_of_mem _ (List.mem_cons_of_mem _ List.mem_cons_self))) (by decide)
  have h8 := hword (List.mem_append_right _ List.mem_cons_self) (by decide)
  rw [hd] at h11
  have hkept := h.kept_after hkeep (l := [4, 5, 8, 11]) (by simp [endedWords])
  rw [hwplant] at hdark hopens hrestore
  rw [hwsched] at hrestore
  refine ⟨?_, fun j hj => ?_, by rw [hplant]; rfl, ?_, ?_, fun hf => (by cases hf), fun hf => (by cases hf),
    fun _ _ _ => ⟨by rw [hplant]; rfl, by rw [hplant]; rfl, hd ▸ h11, h8, ?_, fun hcase => ?_, fun hd => ?_, fun hl => ?_, fun hl hroom => ?_, hkept⟩,
    fun _ => ⟨fun hs => ?_, fun hs => ?_⟩, ?_, ?_⟩
  · rw [hband, hplant, htree]
    exact tableGet_tableSet_same _ _ _
  · rw [hplant, htree]
    exact tableGet_tableSet_other _ _ hj
  · rw [counterOf, h5, hband, wordOf_toNat hc]
  · rw [h4, hband, if_neg fun hn => ?_]
    · rfl
    · rw [hout] at hn
      cases hn.1
  · rw [hplant, hband, hd, show affectedCount (endedPlant i b).tree b.order.direct i = n from hcount]
    exact hfirst
  · rw [hplant] at hcase ⊢
    rw [hband, hd, show affectedCount (endedPlant i b).tree b.order.direct i = n from hcount]
    rcases hcase with hdk | hroom
    · rw [hdark hdk]
      exact hlogged
    · exact hroomlogged hroom
  · rw [hplant] at hd
    rw [hdark hd, hwsched]
  · rw [hplant] at hl
    exact hopens hl
  · rw [hplant] at hl
    exact hrestore hl hroom
  · rw [hband, hout] at hs
    cases hs
  · rw [hband, hout] at hs
    exact hs.elim (fun hs => by cases hs) fun hs => (by cases hs.1)
  · exact h.kept_after hkeep (by simp [endedWords])
  · rw [hframe, hlframe]

/-- R116: a failed poll. -/
theorem resultApplied_failed (hring : RingLaw b) : ResultApplied i e .failed b (failedResult i e.state b) := by
  have hm' := counterMax_lt b i
  have hl := elementLimit_le b i
  have hrises (hst : e.state = .unpolled ∨ e.state = .inService) :
      ResultApplied i e .failed b (failedResult i e.state b) := by
    by_cases hup : 2 * elementLimit b i ≤ min (min (counterOf b i) (counterMax b i) + 2) (counterMax b i)
    · have hfail : failedResult i e.state b = beginOutage i (counterMax b i) (setCounter i (counterMax b i) b) := by
        rcases hst with hst | hst <;> simp only [failedResult, hst, if_pos hup]
      rw [hfail]
      refine resultApplied_outage hm hi he hring (by rcases hst with hst | hst <;> rw [hst] <;> decide) ?_
      rcases hst with hst | hst <;> simp only [resultOf, bandAfter, hst, if_pos hup]
    · have hfail : failedResult i e.state b =
          setCounter i (min (min (counterOf b i) (counterMax b i) + 2) (counterMax b i)) b := by
        rcases hst with hst | hst <;> simp only [failedResult, hst, if_neg hup]
      rw [hfail]
      refine resultApplied_same hm hi he ?_ (by omega) (by decide)
      rcases hst with hst | hst <;> simp only [resultOf, bandAfter, hst, if_neg hup]
  cases hst : e.state with
  | unpolled => exact hst ▸ hrises (.inl hst)
  | inService => exact hst ▸ hrises (.inr hst)
  | out => exact resultApplied_same hm hi he (by simp only [resultOf, bandAfter, hst]) (by omega) (by decide)
  | latchedOut => exact resultApplied_same hm hi he (by simp only [resultOf, bandAfter, hst]) hm' (by decide)

/-- R116: a good poll. -/
theorem resultApplied_good (hring : RingLaw b) : ResultApplied i e .good b (goodResult i e.state b) := by
  have hm' := counterMax_lt b i
  have hl := elementLimit_le b i
  have hfalls : (if 2 * elementLimit b i ≤ min (counterOf b i) (counterMax b i) - 1 then 2 * elementLimit b i - 1
      else min (counterOf b i) (counterMax b i) - 1) < 65536 := by split <;> omega
  cases hst : e.state with
  | unpolled => exact resultApplied_polled hm hi he hst (by simp only [resultOf, bandAfter, hst]) hfalls
  | inService => exact resultApplied_same hm hi he (by simp only [resultOf, bandAfter, hst]) hfalls (by decide)
  | out =>
    by_cases hdown : min (counterOf b i) (counterMax b i) - 1 < 2 * elementLimit b i
    · have hgood : goodResult i .out b = endOutage i (min (counterOf b i) (counterMax b i) - 1)
        (setCounter i (min (counterOf b i) (counterMax b i) - 1) b) := if_pos hdown
      rw [hgood]
      exact resultApplied_restore hm hi he hring (by omega) hst (by simp only [resultOf, bandAfter, hst, if_pos hdown])
    · have hgood : goodResult i .out b = setCounter i (min (counterOf b i) (counterMax b i) - 1) b := if_neg hdown
      rw [hgood]
      exact resultApplied_same hm hi he (by simp only [resultOf, bandAfter, hst, if_neg hdown]) (by omega) (by decide)
  | latchedOut => exact resultApplied_same hm hi he (by simp only [resultOf, bandAfter, hst]) hm' (by decide)

/-- R116, R117: a result is applied. -/
theorem resultApplied (hring : RingLaw b) (r : PollResult) : ResultApplied i e r b (applyResult i e.state r b) := by
  cases r with
  | failed => exact resultApplied_failed hm hi he hring
  | good => exact resultApplied_good hm hi he hring
  | exhausted => exact resultApplied_latch hm hi he hring

end applied

end Sys2Proof.Machine


/-! ## POLL_DUE, POLL_TIMEOUT and STATUS (R112, R114 to R120) -/

namespace Sys2Proof.Machine

variable {s t u v w b : State} {i : Nat} {e : Element} {p : Poll} {r : PollResult} {f : UpFrame}

/-! Records told from a state with the same Writer and Clock. -/

theorem Logged.of_base {k : LogKind} {x a c d : Nat} (h : Logged k x a c d b u) (hw : b.writer = s.writer)
    (hc : b.clock = s.clock) : Logged k x a c d s u := by
  unfold Logged RecordAt currentStamp at h ⊢
  rwa [hw, hc] at h

theorem LoggedFirst.of_base {k : LogKind} {x a c d : Nat} (h : LoggedFirst k x a c d b u) (hw : b.writer = s.writer)
    (hc : b.clock = s.clock) : LoggedFirst k x a c d s u := by
  unfold LoggedFirst RecordAt currentStamp at h ⊢
  rwa [hw, hc] at h

theorem OutageStamped.of_base (h : OutageStamped i b u) (hc : b.clock = s.clock)
    (h12 : rd b (elementWord i 12) = rd s (elementWord i 12)) : OutageStamped i s u := by
  unfold OutageStamped currentStamp at h ⊢
  rwa [hc, h12] at h

/-! The end of a poll (R115). -/

theorem polledElement_some (he : tableGet s.plant.tree p.index = some e) (ha : e.address = p.address) :
    polledElement s p = some e := by
  simp only [polledElement, he, if_pos ha]

theorem polledElement_none (h : ∀ e, tableGet s.plant.tree p.index = some e → e.address ≠ p.address) :
    polledElement s p = none := by
  unfold polledElement
  cases he : tableGet s.plant.tree p.index with
  | none => rfl
  | some e => exact if_neg (h e he)

theorem exec_pollTimeout (hst : started s = true) (hp : s.plant.poll = some p) (hphase : p.phase = .awaiting) :
    exec .pollTimeout s = .next (latchArisen s (endPollByTimeout p (reach p.deadline s))) := by
  show execPollTimeout s = _
  simp only [execPollTimeout, hp, hst, hphase, and_self, if_true]

/-- R116: a failed poll leaves the element's state, or takes it to OUT. -/
theorem resultOf_failed (i : Nat) (e : Element) (b : State) :
    (resultOf .failed i e b).1 = e.state ∨ (e.state ≠ .out ∧ (resultOf .failed i e b).1 = .out) := by
  unfold resultOf bandAfter
  cases e.state
  · dsimp only
    split
    · exact .inr ⟨by decide, rfl⟩
    · exact .inl rfl
  · dsimp only
    split
    · exact .inr ⟨by decide, rfl⟩
    · exact .inl rfl
  · exact .inl rfl
  · exact .inl rfl

theorem exec_pollDue (hst : started s = true) (hp : s.plant.poll = none) (he : someEligible s.plant.tree = true) :
    exec .pollDue s = .next (concluded s { s with time := max s.time s.plant.nextPollDue }) := by
  show Host.Outcome.next (latchArisen s (if started s = true ∧ s.plant.poll = none ∧ someEligible s.plant.tree = true
    then settle (reach s.plant.nextPollDue s) else s)) = _
  rw [if_pos ⟨hst, hp, he⟩]
  rfl

/-- Settles O47: a due poll is the first eligible class with no reply and no retry; a timeout is a failed result. -/
theorem pollDeadlinesArePassed : Obligations.PollDeadlinesArePassed := by
  unfold Obligations.PollDeadlinesArePassed
  refine ⟨fun s hst hp he => ⟨exec_pollDue hst hp he, fun hserving hlink hrep hretry => ⟨_, exec_pollDue hst hp he, ?_⟩⟩,
    fun p s hst hp hphase hgone => ?_, fun p e s hm hring hlaw hst hp hphase he ha => ?_⟩
  · have hgrant := arbiterDecide_idle (u := { s with time := max s.time s.plant.nextPollDue }) ((started_iff s).1 hst).1 hserving hlink
    rw [concluded, latchArisen_sched, settle_serving (u := { s with time := max s.time s.plant.nextPollDue }) hserving,
      hgrant.1]
    refine ⟨⟨Nat.le_max_right _ _, hp, (someEligible_iff s.plant.tree).1 he⟩, fun d hd => ?_⟩
    cases d with
    | reply => exact fun h => h hrep
    | retry => exact fun ⟨x, hx, hc⟩ => hretry x hx hc
    | poll => exact absurd hd (by decide)
    | retire => exact absurd hd (by decide)
    | immediate => exact absurd hd (by decide)
    | sweep => exact absurd hd (by decide)
    | refresh => exact absurd hd (by decide)
  · have hend : endPollByTimeout p (reach p.deadline s) = settle (endPoll (reach p.deadline s)) := by
      have hnone := polledElement_none (s := endPoll (reach p.deadline s)) hgone
      simp only [endPollByTimeout, hnone]
    rw [exec_pollTimeout hst hp hphase, hend]
    rfl
  · have hend : endPollByTimeout p (reach p.deadline s) =
        settle (applyResult p.index e.state .failed (endPoll (reach p.deadline s))) := by
      have hsome := polledElement_some (s := endPoll (reach p.deadline s)) he ha
      simp only [endPollByTimeout, hsome]
    have hexec := exec_pollTimeout hst hp hphase
    rw [hend] at hexec
    refine ⟨_, hexec, ?_⟩
    have hi : p.index < 256 := Nat.lt_succ_of_le (hlaw.2.2 p hp).2
    have hresult := resultApplied (b := endPoll (reach p.deadline s)) hm hi he (ringLaw_of_writer hring rfl) .failed
    have hband : resultOf .failed p.index e (endPoll (reach p.deadline s)) =
      bandAfter .failed (elementLimit s p.index) (counterMax s p.index) e.state (counterOf s p.index) := rfl
    have hlast := resultOf_failed p.index e (endPoll (reach p.deadline s))
    generalize hb : endPoll (reach p.deadline s) = b at hresult hband hlast ⊢
    have hbmem : b.mem = s.mem := by rw [← hb]; rfl
    have hbplant : b.plant = { s.plant with
        poll := none, nextPollDue := max s.time p.deadline + pollIntervalBits (planOf s).pollInterval } := by rw [← hb]; rfl
    have hbw : b.writer = s.writer := by rw [← hb]; rfl
    have hbc : b.clock = s.clock := by rw [← hb]; rfl
    have hmax : counterMax b p.index = counterMax s p.index := by rw [← hb]; rfl
    have horder : b.order = s.order := by rw [← hb]; rfl
    have hrd (a : Nat) : rd b a = rd s a := rd_congr hbmem a
    generalize applyResult p.index e.state .failed b = u at hresult ⊢
    have hframe := hresult.frame
    have hplant := hresult.plant
    have hcounts : u.plant.latchedCount = b.plant.latchedCount ∧ u.sched = b.sched := by
      rcases hlast with hsame | ⟨hne, hout⟩
      · obtain ⟨-, hl, -, hs, -⟩ := (hresult.quiet (by decide)).2 (.inl hsame)
        exact ⟨hl, hs⟩
      · obtain ⟨-, hl, -, -, -, hs, -⟩ := hresult.outage rfl hne hout
        exact ⟨hl, hs⟩
    refine ⟨by rw [hframe, ← hb]; rfl, by rw [hplant, hbplant], by rw [hplant, hbplant], by rw [hresult.self, hband],
      fun j hj => (hresult.others j hj).trans (by rw [hbplant]), by rw [hresult.counter, hband], fun hne => ?_, fun hsame => ?_,
      ?_, ?_⟩
    · rw [hresult.self] at hne
      obtain ⟨hst', hout⟩ := hlast.resolve_left fun h => hne (by rw [h])
      obtain ⟨hcount, -, hstamp, hnotice, hlog, -, hkept⟩ := hresult.outage rfl hst' hout
      have hstamp' := hstamp.of_base hbc (hrd _)
      have hstate := hresult.state
      rw [hout, if_neg fun h => hst' h.1.symm] at hstate
      rw [horder, hmax] at hlog
      refine ⟨hstate, by rw [hcount, hbplant], by rw [hnotice, hrd], hstamp'.2, fun hv => ?_, fun hv => ?_,
        hlog.of_base hbw hbc, fun a ha => (hkept a ha).trans (hrd a)⟩
      · rw [hstamp'.1, hv, if_pos rfl]
      · rw [hstamp'.1, hv, if_neg Bool.false_ne_true]
    · rw [hresult.self, Option.some_inj] at hsame
      have hs : (resultOf .failed p.index e b).1 = e.state := congrArg Element.state hsame
      obtain ⟨hwords, hq⟩ := hresult.quiet (by decide)
      exact ⟨(hq (.inl hs)).1.trans (by rw [hbplant]), fun a ha => (hwords hs a ha).trans (hrd a)⟩
    · rw [hplant, hcounts.1, hbplant]
    · rw [hframe, hcounts.2, ← hb]
      rfl

end Sys2Proof.Machine


/-! ## STATUS (R114, R118) -/

namespace Sys2Proof.Machine

variable {s t u v w b : State} {i : Nat} {e : Element} {p : Poll} {r : PollResult} {f : UpFrame} {dt status : Nat}

/-! The frame's arrival. -/

/-- The state in which a STATUS is judged: link time has moved on. -/
def later (dt : Nat) (s : State) : State := { s with time := s.time + dt }

theorem exec_status {address q status : Nat} (hvcc : s.power.vcc = true) (hres : s.power.resetting = false)
    (hl : LineRested f s) (hjudge : judgeFrame f = .status address q status) (dt : Nat) :
    exec (.status dt f) s = .next (latchArisen s
      (if started s = true then takeStatus address q status (heard (later dt s)) else heard (later dt s))) := by
  have htime : reach (s.time + dt) s = later dt s := by
    rw [reach, Nat.max_eq_right (Nat.le_add_right _ _)]
    rfl
  have hexec : exec (.status dt f) s = .next (latchArisen s (receiveFrame f (reach (s.time + dt) s))) := rfl
  rw [hexec, htime, receiveFrame_status (s := later dt s) hvcc hres hl hjudge]
  rfl

theorem powered_of_started (hst : started s = true) : s.power.vcc = true ∧ s.power.resetting = false := by
  have hr := ((started_iff s).1 hst).1
  simp only [running, Bool.and_eq_true, Bool.not_eq_true'] at hr
  exact hr.1

theorem takeStatus_unmatched {address q status : Nat} (h : 3 < status ∨ s.plant.poll = none ∨
    ∃ p, s.plant.poll = some p ∧ (p.address ≠ address ∨ p.sequence ≠ q)) : takeStatus address q status s = s := by
  unfold takeStatus
  cases hp : s.plant.poll with
  | none => rfl
  | some p =>
    refine if_neg fun hc => ?_
    rcases h with h | h | ⟨x, hx, h⟩
    · omega
    · rw [hp] at h
      cases h
    · obtain rfl := Option.some.inj (hp.symm.trans hx)
      exact h.elim (fun h => h hc.1) fun h => h hc.2.1

theorem takeStatus_matched (hp : s.plant.poll = some p) (hs : status ≤ 3) :
    takeStatus p.address p.sequence status s = endPollByReply p status s := by
  unfold takeStatus
  rw [hp]
  exact if_pos ⟨rfl, rfl, hs⟩

/-! Latency and warnings (R118). -/

/-- R118: SLOW after a reply. -/
def slowAfter (i count : Nat) (s : State) : Bool :=
  if (planOf s).slowThreshold < count then
    (if (planOf s).slowDisabled then (rd s (elementWord i 7)).getLsbD 0 else true)
  else false

/-- R118: STANDBY after a reply. -/
def standbyAfter (i status : Nat) (s : State) : Bool :=
  if status = 1 then (if (planOf s).standbyDisabled then (rd s (elementWord i 7)).getLsbD 1 else true)
  else if status = 0 then false else (rd s (elementWord i 7)).getLsbD 1

/-- 12.7: a warnings word. -/
def warningsWord (slow standby : Bool) : Word := (if slow then slowBit else 0) ||| (if standby then standbyBit else 0)

theorem warningsWord_slow (slow standby : Bool) : (warningsWord slow standby).getLsbD 0 = slow := by
  cases slow <;> cases standby <;> decide

theorem warningsWord_standby (slow standby : Bool) : (warningsWord slow standby).getLsbD 1 = standby := by
  cases slow <;> cases standby <;> decide

/-- R118, R111: the Plant Monitor after a reply's warnings. -/
def warnedPlant (i count status : Nat) (s : State) : Plant :=
  { s.plant with
    slowCount := countChange s.plant.slowCount ((rd s (elementWord i 7)).getLsbD 0) (slowAfter i count s)
    standbyCount := countChange s.plant.standbyCount ((rd s (elementWord i 7)).getLsbD 1) (standbyAfter i status s) }

theorem takeLatency_marks (i count status : Nat) (s : State) : Marks i
    [(6, wordOf count), (7, warningsWord (slowAfter i count s) (standbyAfter i status s))] (warnedPlant i count status s) s
    (takeLatency i count status s) := by
  have h₁ : Marks i [(6, wordOf count)] s.plant s (wr s (elementWord i 6) (wordOf count)) := ⟨rfl, rfl⟩
  have h₂ := h₁.step (w := takeLatency i count status s) (q := { s.plant with
      slowCount := countChange s.plant.slowCount ((rd (wr s (elementWord i 6) (wordOf count)) (elementWord i 7)).getLsbD 0)
        (slowAfter i count s)
      standbyCount := countChange s.plant.standbyCount
        ((rd (wr s (elementWord i 6) (wordOf count)) (elementWord i 7)).getLsbD 1) (standbyAfter i status s) })
    (vs := [(7, warningsWord (slowAfter i count s) (standbyAfter i status s))]) ⟨rfl, rfl⟩
  rw [h₁.rd_other (by simp)] at h₂
  exact h₂

theorem latencyCount_eq (p : Poll) (s : State) : latencyCount s p =
    if p.phase = .sending then 0 else min 255 ((s.time - p.completed) / (64 * 2 ^ (planOf s).latencyRange)) := by
  unfold latencyCount
  cases p.phase <;> rfl

theorem resultOfStatus_eq {status : Nat} :
    resultOfStatus status = if status ≤ 1 then .good else if status = 2 then .failed else .exhausted := rfl

/-- R114, R115: the state in which a STATUS has been heard and its poll ended. -/
def polled (dt : Nat) (s : State) : State := endPoll (heard (later dt s))

theorem endPollByReply_gone (h : ∀ e, tableGet s.plant.tree p.index = some e → e.address ≠ p.address) (dt status : Nat) :
    endPollByReply p status (heard (later dt s)) = settle (polled dt s) := by
  have hnone := polledElement_none (s := polled dt s) h
  unfold polled at hnone ⊢
  simp only [endPollByReply, hnone]

theorem endPollByReply_applied (he : tableGet s.plant.tree p.index = some e) (ha : e.address = p.address) (dt status : Nat) :
    endPollByReply p status (heard (later dt s)) = settle (applyResult p.index e.state (resultOfStatus status)
      (takeLatency p.index (latencyCount (heard (later dt s)) p) status (polled dt s))) := by
  have hsome := polledElement_some (s := polled dt s) he ha
  unfold polled at hsome ⊢
  simp only [endPollByReply, hsome]

/-- R127: the counts have followed the warnings word. -/
theorem warningsMoved_of_marks {count status : Nat} {c : State} (hc : c.mem = s.mem)
    (hslow : c.plant.slowCount = s.plant.slowCount) (hstandby : c.plant.standbyCount = s.plant.standbyCount)
    (hus : u.plant.slowCount = (warnedPlant i count status c).slowCount)
    (hut : u.plant.standbyCount = (warnedPlant i count status c).standbyCount)
    (hu7 : rd u (elementWord i 7) = warningsWord (slowAfter i count c) (standbyAfter i status c)) : WarningsMoved i s u := by
  unfold WarningsMoved warningCount
  rw [hu7, warningsWord_slow, warningsWord_standby, hus, hut, ← hslow, ← hstandby, ← rd_congr hc (elementWord i 7)]
  exact ⟨rfl, rfl⟩

theorem polled_plant (dt : Nat) (s : State) : (polled dt s).plant = { s.plant with
    poll := none, nextPollDue := s.time + dt + pollIntervalBits (planOf s).pollInterval } := rfl

theorem outageDuration_eq (s : State) (i : Nat) : outageDuration s i = durationNow s i := rfl

/-- R116: the state in which a result is applied reads what the result depends on as before the reply. -/
theorem resultOf_congr (hkeep : ∀ k, k = 2 ∨ k = 3 ∨ k = 5 → rd b (elementWord i k) = rd s (elementWord i k)) (r : PollResult)
    (e : Element) : resultOf r i e b = resultOf r i e s ∧ counterMax b i = counterMax s i := by
  have h2 := hkeep 2 (by simp)
  have h3 := hkeep 3 (by simp)
  have h5 := hkeep 5 (by simp)
  unfold resultOf counterMax elementLimit elementHold counterOf
  rw [h2, h3, h5]
  exact ⟨rfl, rfl⟩

/-- What a matched STATUS of an element still in the tree leaves, told from the state before it. -/
structure StatusApplied (dt status count i : Nat) (e : Element) (r : PollResult) (s u : State) : Prop where
  result : ResultApplied i e r (takeLatency i count status (polled dt s)) u
  band : resultOf r i e (takeLatency i count status (polled dt s)) = resultOf r i e s
  max : counterMax (takeLatency i count status (polled dt s)) i = counterMax s i
  plant : (takeLatency i count status (polled dt s)).plant = warnedPlant i count status (polled dt s)
  other : ∀ k, k ≠ 6 → k ≠ 7 → rd (takeLatency i count status (polled dt s)) (elementWord i k) = rd s (elementWord i k)
  six : rd u (elementWord i 6) = wordOf count
  seven : rd u (elementWord i 7) = warningsWord (slowAfter i count s) (standbyAfter i status s)
  words : WordsKept ([6, 7].map (elementWord i)) s (takeLatency i count status (polled dt s))

theorem statusApplied (hm : MemWf s.mem) (hring : RingLaw s) (hi : i < 256) (he : tableGet s.plant.tree i = some e)
    (dt status count : Nat) (r : PollResult) : StatusApplied dt status count i e r s
      (applyResult i e.state r (takeLatency i count status (polled dt s))) := by
  have hmarks := takeLatency_marks i count status (polled dt s)
  have hmem : (polled dt s).mem = s.mem := rfl
  have hbm : MemWf (takeLatency i count status (polled dt s)).mem := hmarks.wf (by rw [hmem]; exact hm)
  have hbplant : (takeLatency i count status (polled dt s)).plant = warnedPlant i count status (polled dt s) := by rw [hmarks.frame]
  have hbtree : tableGet (takeLatency i count status (polled dt s)).plant.tree i = some e := by rw [hbplant]; exact he
  have hresult := resultApplied hbm hi hbtree (hmarks.ring (ringLaw_of_writer hring rfl)) r
  have hother (k : Nat) (h6 : k ≠ 6) (h7 : k ≠ 7) :
      rd (takeLatency i count status (polled dt s)) (elementWord i k) = rd s (elementWord i k) :=
    (hmarks.rd_other (by simp [h6, h7])).trans (rd_congr hmem _)
  obtain ⟨hband, hmax⟩ := resultOf_congr (b := takeLatency i count status (polled dt s)) (s := s) (i := i)
    (by rintro k (rfl | rfl | rfl) <;> exact hother _ (by decide) (by decide)) r e
  refine ⟨hresult, hband, hmax, hbplant, hother, ?_, ?_, fun a ha => (hmarks.kept a ha).trans (rd_congr hmem a)⟩
  · exact (rd_element_of_keptOutside hresult.kept hi (by decide) (by decide)).trans (hmarks.rd_mem (by rw [hmem]; exact hm) (by simp) (by simp))
  · exact (rd_element_of_keptOutside hresult.kept hi (by decide) (by decide)).trans
      (hmarks.rd_mem (by rw [hmem]; exact hm) (by simp) (List.mem_cons_of_mem _ List.mem_cons_self))

theorem takeLatency_frame (i count status : Nat) (s : State) : takeLatency i count status s = { s with
    mem := (takeLatency i count status s).mem, port := (takeLatency i count status s).port
    plant := (takeLatency i count status s).plant } := rfl

end Sys2Proof.Machine


/-! ## STATUS: the obligation (R114 to R120) -/

namespace Sys2Proof.Machine

variable {s t u v w b : State} {i : Nat} {e : Element} {p : Poll} {r : PollResult} {f : UpFrame} {dt status : Nat}

/-- Settles O46: a matched reply's result on the state that has heard it, its latency and warnings taken. -/
theorem statusAppliesTheResult : Obligations.StatusAppliesTheResult := by
  unfold Obligations.StatusAppliesTheResult
  refine ⟨fun dt address q status f s hvcc hres ha hq hs hf hl hnone => ?_,
    fun dt status f p s hst hp ha hq hs hgone hf hl => ?_,
    fun dt status f p e r count s hm hring hlaw hst hp ha hq hs he haddr hr hcount hf hl => ?_⟩
  · have hjudge : judgeFrame f = .status address q status := (congrArg judgeFrame hf).trans (judge_statusFrame ha hq hs _)
    have hexec := exec_status hvcc hres hl hjudge dt
    have hheard : (if started s = true then takeStatus address q status (heard (later dt s)) else heard (later dt s)) =
        heard (later dt s) := by
      by_cases hst : started s = true
      · rw [if_pos hst]
        exact takeStatus_unmatched (s := heard (later dt s)) (hnone.resolve_left fun h => Bool.noConfusion (hst.symm.trans h))
      · rw [if_neg hst]
    rw [hheard] at hexec
    refine ⟨_, hexec, goodStep_of_receiver (latchArisen_receiver _ _), flagsFollow_latchArisen rfl, ?_⟩
    rw [latchArisen_frame]
    rfl
  · obtain ⟨hvcc, hres⟩ := powered_of_started hst
    have hjudge : judgeFrame f = .status p.address p.sequence status :=
      (congrArg judgeFrame hf).trans (judge_statusFrame ha hq (by omega) _)
    have hexec := exec_status hvcc hres hl hjudge dt
    rw [if_pos hst, takeStatus_matched (s := heard (later dt s)) hp hs, endPollByReply_gone hgone] at hexec
    exact ⟨_, hexec, goodStep_of_receiver rfl, rfl⟩
  · obtain ⟨hvcc, hres⟩ := powered_of_started hst
    have hjudge : judgeFrame f = .status p.address p.sequence status :=
      (congrArg judgeFrame hf).trans (judge_statusFrame ha hq (by omega) _)
    have hexec := exec_status hvcc hres hl hjudge dt
    have hlatency : latencyCount (heard (later dt s)) p = count := by
      rw [latencyCount_eq, hcount]
      rfl
    rw [if_pos hst, takeStatus_matched (s := heard (later dt s)) hp hs, endPollByReply_applied he haddr, hlatency,
      resultOfStatus_eq, ← hr] at hexec
    refine ⟨_, hexec, ?_⟩
    have hi : p.index < 256 := Nat.lt_succ_of_le (hlaw.2.2 p hp).2
    obtain ⟨hresult, hband, hmax, hbplant, hother, h6, h7, hwords⟩ := statusApplied hm hring hi he dt status count r
    have hbframe := takeLatency_frame p.index count status (polled dt s)
    generalize takeLatency p.index count status (polled dt s) = b at *
    have hbw : b.writer = s.writer := by rw [hbframe]; rfl
    have hbc : b.clock = s.clock := by rw [hbframe]; rfl
    have hbo : b.order = s.order := by rw [hbframe]; rfl
    have hbs : b.sched = s.sched := by rw [hbframe]; rfl
    have hbtree : b.plant.tree = s.plant.tree := by rw [hbplant]; rfl
    have hout : b.plant.outCount = s.plant.outCount := by rw [hbplant]; rfl
    have hlatched : b.plant.latchedCount = s.plant.latchedCount := by rw [hbplant]; rfl
    have hduration : outageDuration b p.index = durationNow s p.index :=
      (outageDuration_congr hbc (rdPair_congr (hother 9 (by decide) (by decide)) (hother 10 (by decide) (by decide)))).trans
        (outageDuration_eq s p.index)
    generalize applyResult p.index e.state r b = u at *
    have hframe := hresult.frame
    have hplant := hresult.plant
    have hself := hresult.self
    rw [hband] at hself
    have hcounter := hresult.counter.trans (congrArg Prod.snd hband)
    have hkeptAll : KeptOutside (withRings ([4, 5, 6, 7, 8, 9, 10, 11, 12].map (elementWord p.index))) s u :=
      (hwords.withRings (List.map_subset _ (by simp))).trans (hresult.kept.withRings_mono (List.map_subset _ (by simp)))
    have hsame {l : List Nat} (hk : KeptOutside (withRings (l.map (elementWord p.index))) b u) {k : Nat} (hk16 : k < 16)
        (hl : k ∉ l) (h6 : k ≠ 6) (h7 : k ≠ 7) : rd u (elementWord p.index k) = rd s (elementWord p.index k) :=
      (rd_element_of_keptOutside hk hi hk16 hl).trans (hother k h6 h7)
    refine ⟨goodStep_of_receiver (by rw [hframe, hbframe]; rfl), by rw [hframe, hbframe]; rfl, by rw [hplant, hbplant]; rfl,
      by rw [hplant, hbplant]; rfl, h6, ?_, ?_, warningsMoved_of_marks (c := polled dt s) rfl rfl rfl
        (by rw [hplant, hbplant]) (by rw [hplant, hbplant]) h7, ?_, hself,
      fun j hj => (hresult.others j hj).trans (by rw [hbtree]), hcounter, fun after hafter => ?_, hkeptAll, ?_⟩
    · rw [h7, warningsWord_slow]
      rfl
    · rw [h7, warningsWord_standby]
      rfl
    · rw [hplant, hbplant]
      rfl
    · obtain rfl : after = { e with state := (resultOf r p.index e s).1 } := Option.some.inj (hafter.symm.trans hself)
      refine ⟨?_, fun hf hne hs' => ?_, fun hx => ?_, fun hg heq hs' => ?_, fun hne hs' => ?_⟩
      · have hstate := hresult.state
        rw [hband, hother 4 (by decide) (by decide)] at hstate
        exact hstate
      · obtain ⟨h₁, h₂, hstamp, hnotice, hlog, hsched, hkept⟩ := hresult.outage hf hne (by rw [hband]; exact hs')
        rw [hbo, hmax] at hlog
        exact ⟨by rw [h₁, hout], h₂.trans hlatched, hstamp.of_base hbc (hother 12 (by decide) (by decide)),
          by rw [hnotice, hother 8 (by decide) (by decide)], hsame hkept (by decide) (by decide) (by decide) (by decide),
          hlog.of_base hbw hbc, hsched.trans hbs⟩
      · obtain ⟨h₁, h₂, hstamp, hold, hnotice, hlog, hsched, hkept⟩ := hresult.latch hx
        rw [hbo, hmax] at hlog
        refine ⟨by rw [h₁, hout], by rw [h₂, hlatched], fun h => (hstamp h).of_base hbc (hother 12 (by decide) (by decide)),
          fun h k hk => ?_, by rw [hnotice, hother 8 (by decide) (by decide)],
          hsame hkept (by decide) (by decide) (by decide) (by decide), hlog.of_base hbw hbc, hsched.trans hbs⟩
        rcases hk with rfl | rfl | rfl
        · exact hsame (hold h) (by decide) (by decide) (by decide) (by decide)
        · exact hsame (hold h) (by decide) (by decide) (by decide) (by decide)
        · exact hsame (hold h) (by decide) (by decide) (by decide) (by decide)
      · obtain ⟨h₁, h₂, h11, hnotice, hfirst, hlog, hdark, hlit, hroom, hkept⟩ :=
          hresult.restore hg heq (by rw [hband]; exact hs')
        rw [hduration, hbo, ← hresult.counter] at hfirst hlog
        rw [hbs] at hdark hroom hlog
        refine ⟨by rw [h₁, hout], h₂.trans hlatched, by rw [h11, hduration], by rw [hnotice, hother 8 (by decide) (by decide)],
          fun k hk => ?_, hfirst.of_base hbw hbc, fun h => (hlog h).of_base hbw hbc, hdark, hlit, hroom⟩
        rcases hk with rfl | rfl | rfl
        · exact hsame hkept (by decide) (by decide) (by decide) (by decide)
        · exact hsame hkept (by decide) (by decide) (by decide) (by decide)
        · exact hsame hkept (by decide) (by decide) (by decide) (by decide)
      · obtain ⟨-, hquiet⟩ := hresult.quiet hne
        obtain ⟨h₁, h₂, hwriter, hsched, hkept⟩ := hquiet (by rw [hband]; exact hs')
        refine ⟨h₁.trans hout, h₂.trans hlatched, hwriter.trans hbw, hsched.trans hbs, fun a ha => ?_⟩
        exact (hkept a fun h => ha (List.map_subset _ (by simp) h)).trans (hwords a fun h => ha (List.map_subset _ (by simp) h))
    · rw [hframe, hbframe]
      rfl

end Sys2Proof.Machine


/-! ## The Clock counts (R130 to R132) -/

namespace Sys2Proof.Machine

/-- R132: the seconds from 2000-01-01 00:00:00 to a time. -/
def secondsOf (c : Calendar) : Nat := 60 * stampOf c + c.seconds

/-- R130: the length of a year. -/
def yearLength (year : Nat) : Nat := if isLeap year then 366 else 365

theorem daysBeforeYear_succ (y : Nat) : daysBeforeYear (y + 1) = daysBeforeYear y + yearLength y := by
  unfold daysBeforeYear yearLength isLeap
  split
  · simp_all; omega
  · simp_all; omega

theorem daysBeforeMonth_succ {m : Nat} (h : 1 ≤ m) (y : Nat) :
    daysBeforeMonth (m + 1) y = daysBeforeMonth m y + monthLength m y := by
  obtain ⟨k, rfl⟩ : ∃ k, m = k + 1 := ⟨m - 1, by omega⟩
  simp [daysBeforeMonth, List.range_succ]

theorem daysBeforeMonth_year (y : Nat) : daysBeforeMonth 12 y + monthLength 12 y = yearLength y := by
  cases h : isLeap y <;> simp [daysBeforeMonth, List.range_succ, monthLength, yearLength, h]

theorem daysBeforeMonth_le {m : Nat} (h : 1 ≤ m) (hm : m ≤ 12) (y : Nat) :
    daysBeforeMonth m y + monthLength m y ≤ yearLength y := by
  rw [← daysBeforeMonth_year, ← daysBeforeMonth_succ h, ← daysBeforeMonth_succ (by decide)]
  interval_cases m <;> simp [daysBeforeMonth, List.range_succ]

theorem secondsOf_lt {c : Calendar} (h : CalendarLaw c) : secondsOf c < 3155760000 := by
  obtain ⟨hs, hmin, hh, hd, hlen, hm, hm', hy⟩ := h
  have hmonth := daysBeforeMonth_le hm hm' c.year
  have hyear := daysBeforeYear_succ c.year
  have htop : daysBeforeYear (c.year + 1) ≤ 36525 := by
    unfold daysBeforeYear
    omega
  unfold secondsOf stampOf
  omega

/-- R130, R132: the second after a time is one later, but after the last of the century. -/
theorem secondsOf_nextSecond_or {c : Calendar} (h : CalendarLaw c) :
    secondsOf (nextSecond c) = secondsOf c + 1 ∨
      (secondsOf (nextSecond c) = 0 ∧ secondsOf c + 1 = 3155760000) := by
  obtain ⟨hs, hmin, hh, hd, hlen, hm, hm', hy⟩ := h
  unfold nextSecond secondsOf stampOf
  split
  · exact .inl rfl
  split
  · left; dsimp only; omega
  split
  · left; dsimp only; omega
  split
  · left; dsimp only; omega
  have hday : c.day = monthLength c.month c.year := by omega
  split
  · have hmonth := daysBeforeMonth_succ hm c.year
    left; dsimp only; omega
  have hdec : c.month = 12 := by omega
  have hyear := daysBeforeMonth_year c.year
  have hone (y : Nat) : daysBeforeMonth 1 y = 0 := by simp [daysBeforeMonth]
  rw [hdec] at hday ⊢
  split
  · simp only [hone, daysBeforeYear_succ]
    omega
  · have hlast : c.year = 99 := by omega
    have hdays : daysBeforeYear 99 + yearLength 99 = 36525 := by decide
    have hzero : daysBeforeYear 0 = 0 := by decide
    rw [hlast] at hday hyear ⊢
    exact .inr ⟨by simp only [hone, hzero], by omega⟩

theorem secondsOf_nextSecond {c : Calendar} (h : CalendarLaw c) :
    secondsOf (nextSecond c) = (secondsOf c + 1) % 3155760000 := by
  have hnext := secondsOf_lt (nextSecond_law h)
  rcases secondsOf_nextSecond_or h with hone | ⟨hzero, hlast⟩ <;> omega

theorem nextSecond_rolls {c : Calendar} (h : CalendarLaw c) : (nextSecond c).seconds = 0 ↔ c.seconds = 59 := by
  obtain ⟨hs, -⟩ := h
  unfold nextSecond
  split
  · constructor <;> intro h'
    · simp at h'
    · omega
  · have heq : c.seconds = 59 := by omega
    refine iff_of_true ?_ heq
    split
    · rfl
    split
    · rfl
    split
    · rfl
    split <;> rfl

theorem clockCounts_iff (s : State) :
    clockCounts s = true ↔ s.clock.set = false ∧ (s.power.vcc = true ∨ s.clock.backupIntact = true) := by
  simp [clockCounts]

/-- Settles O50, by the roll of the fields from the second to the year. -/
theorem clockCountsSeconds : Obligations.ClockCountsSeconds := by
  unfold Obligations.ClockCountsSeconds
  refine ⟨fun s hlaw hset hpower => ⟨countSecond s, ?_, nextSecond_law hlaw, secondsOf_nextSecond hlaw, ?_, rfl⟩,
    fun s hset => ?_⟩
  · show execClockSecond s = _
    rw [execClockSecond, if_pos ((clockCounts_iff s).mpr ⟨hset, hpower⟩)]
  · have hroll := nextSecond_rolls hlaw
    by_cases hr : s.clock.now.seconds = 59 ∧ s.power.vcc = true ∧ s.power.resetting = false
    · rw [if_pos hr]
      simp [countSecond, hroll, takesTicks, hr]
    · rw [if_neg hr]
      have hno : (decide ((nextSecond s.clock.now).seconds = 0) && takesTicks s) = false := by
        rw [Bool.eq_false_iff]
        simpa [hroll, takesTicks] using hr
      simp [countSecond, hno]
  · show execClockSecond s = _
    rw [execClockSecond, if_neg (by simp [clockCounts, hset])]

end Sys2Proof.Machine


/-! ## The meter counts the minutes (R140, R141) -/

namespace Sys2Proof.Machine

/-- R141: the minutes a metering visit writes to a record that is metered. -/
def minutesOn (i : Nat) (s : State) : List (Nat × Word) :=
  [oneMinuteOn s i 10] ++ (if (subStatus s i).confirmed = .full then [oneMinuteOn s i 11] else []) ++
    if (subStatus s i).confirmed = .full ∧ isDark s.plant.tree (subFeed s i) = true then [oneMinuteOn s i 12] else []

theorem meterRecord_eq (i : Nat) (s : State) : meterRecord i s = wrHeld s (minutesOn i s) := rfl

theorem minutesOn_sublist (i : Nat) (s : State) :
    ((minutesOn i s).map Prod.fst).Sublist ([10, 11, 12].map (subscriberWord i)) := by
  unfold minutesOn oneMinuteOn
  split
  · split <;> simp
  · split <;> simp

theorem recordMinutes_nodup (i : Nat) : ([10, 11, 12].map (subscriberWord i)).Nodup := by simp [subscriberWord_inj]

theorem oneMinuteOn_toNat (s : State) (i w : Nat) : (oneMinuteOn s i w).2.toNat = min ((subRd s i w).toNat + 1) 65535 :=
  wordOf_toNat (Nat.lt_of_le_of_lt (Nat.min_le_right _ _) (by decide))

theorem meterRecord_kept (i : Nat) (s : State) : WordsKept ([10, 11, 12].map (subscriberWord i)) s (meterRecord i s) :=
  fun a ha => wrHeld_wordsKept _ s a fun h => ha ((minutesOn_sublist i s).subset h)

/-- R141: a word that is counted goes one minute on. -/
theorem meterRecord_counts {s : State} (hm : MemWf s.mem) {i w : Nat} (h : oneMinuteOn s i w ∈ minutesOn i s) :
    (subRd (meterRecord i s) i w).toNat = min ((subRd s i w).toNat + 1) 65535 := by
  rw [← oneMinuteOn_toNat]
  exact congrArg BitVec.toNat ((rd_wrHeld s _ _).trans (rd_wrAll_mem hm ((recordMinutes_nodup i).sublist (minutesOn_sublist i s)) h))

/-- R141: a word that is not counted stays. -/
theorem meterRecord_keeps {s : State} {i w : Nat} (h : subscriberWord i w ∉ (minutesOn i s).map Prod.fst) :
    subRd (meterRecord i s) i w = subRd s i w := wrHeld_wordsKept _ s _ h

/-- R141: the three steps of a metering visit. -/
theorem meterRecord_minutes {s : State} (hm : MemWf s.mem) (i : Nat) :
    (subRd (meterRecord i s) i 10).toNat = min ((subRd s i 10).toNat + 1) 65535 ∧
    (subRd (meterRecord i s) i 11).toNat = (if (subStatus s i).confirmed = .full
      then min ((subRd s i 11).toNat + 1) 65535 else (subRd s i 11).toNat) ∧
    (subRd (meterRecord i s) i 12).toNat =
      (if (subStatus s i).confirmed = .full ∧ isDark s.plant.tree (subFeed s i) = true
       then min ((subRd s i 12).toNat + 1) 65535 else (subRd s i 12).toNat) := by
  refine ⟨meterRecord_counts hm (by simp [minutesOn]), ?_, ?_⟩
  · split
    · exact meterRecord_counts hm (by simp [minutesOn, *])
    · rw [meterRecord_keeps (by simp [minutesOn, oneMinuteOn, subscriberWord_inj, *])]
  · split
    · exact meterRecord_counts hm (by simp [minutesOn, *])
    · rename_i hlit
      rw [meterRecord_keeps]
      have hno : ∀ x ∈ (minutesOn i s).map Prod.fst, x ∈ [10, 11].map (subscriberWord i) := by
        rw [minutesOn, if_neg hlit, List.append_nil]
        split <;> simp [oneMinuteOn]
      intro h
      simpa [subscriberWord_inj] using hno _ h

theorem meterVisit_frame (i : Nat) (s : State) :
    meterVisit i s = { s with mem := (meterVisit i s).mem, port := servePort (postRequest .part s.port) } := by
  unfold meterVisit
  split <;> rfl

theorem advancePass_eq (s : State) (h : s.meter.cursor < 4096) :
    advancePass s = { s with meter := { s.meter with
      cursor := if s.meter.cursor = 4095 then 0 else s.meter.cursor + 1
      running := if s.meter.cursor = 4095 then false else s.meter.running } } := by
  unfold advancePass
  split
  · rw [if_neg (by simp only [subscriberCount] at *; omega), if_neg (by simp only [subscriberCount] at *; omega)]
  · rw [if_pos (by simp only [subscriberCount] at *; omega), if_pos (by simp only [subscriberCount] at *; omega)]

/-- Settles O52, by the minutes of a record at the cursor and the pass's own move. -/
theorem meteringCountsTheMinute : Obligations.MeteringCountsTheMinute := by
  unfold Obligations.MeteringCountsTheMinute
  refine ⟨fun s hs ho hr => ?_, fun i s hm hs hr hi hlt => ?_⟩
  · show execMeterPassStart s = _
    rw [execMeterPassStart, if_pos ⟨hs, ho, hr⟩]
  · subst hi
    have hport : (meterVisit s.meter.cursor s).port = servePort (postRequest .part s.port) :=
      congrArg State.port (meterVisit_frame s.meter.cursor s)
    have hexec : exec .meteringVisit s = .next { meterVisit s.meter.cursor s with meter := { s.meter with
        cursor := if s.meter.cursor = 4095 then 0 else s.meter.cursor + 1
        running := decide (s.meter.cursor ≠ 4095) } } := by
      show execMeteringVisit s = _
      rw [execMeteringVisit, if_pos ⟨hs, hr⟩, advancePass_eq _ (by rw [meterVisit_frame]; exact hlt), meterVisit_frame]
      dsimp only
      rw [hr]
      by_cases hlast : s.meter.cursor = 4095 <;> simp [hlast]
    refine ⟨_, hexec, fun hserve => ?_, fun hserve => ?_, hport, fun hp => hport.trans (partRead_port hp), rfl, ?_⟩
    · have hvisit : meterVisit s.meter.cursor s = meterRecord s.meter.cursor s := if_pos hserve
      obtain ⟨h₁, h₂, h₃⟩ := meterRecord_minutes hm s.meter.cursor
      rw [hvisit]
      exact ⟨h₁, h₂, h₃, meterRecord_kept s.meter.cursor s⟩
    · have hvisit : meterVisit s.meter.cursor s = partRead s := if_neg (by simp [hserve])
      rw [hvisit]
      rfl
    · rw [meterVisit_frame]

end Sys2Proof.Machine


/-! ## Power, reset and pins (R17, R18, R24, R130, R136) -/

namespace Sys2Proof.Machine

variable {s t u : State}

/-! What the build of a frame can change. -/

/-- What the build of a frame leaves alone: the Clock and what waits outside the part among it. -/
def BuildTouches (s t : State) : Prop := t = { s with
  mem := t.mem, port := t.port, part := t.part, order := t.order, sched := t.sched, tracker := t.tracker
  plant := t.plant }

theorem BuildTouches.refl (s : State) : BuildTouches s s := rfl

theorem BuildTouches.sent (h : BuildTouches s t) (f : List Byte) (o : HandOff) : BuildTouches s (sendFrame f o t) := by
  unfold sendFrame BuildTouches
  rw [h]
  split <;> rfl

theorem BuildTouches.lapsed (h : BuildTouches s t) : BuildTouches s (lapse t) := by
  unfold lapse BuildTouches
  rw [settle_frame, h]

theorem BuildTouches.popped (h : BuildTouches s t) (rest : List Nat) : BuildTouches s (popQueue rest t) := by
  unfold BuildTouches
  rw [popQueue_frame, h]

theorem buildReply_touches (s : State) : BuildTouches s (buildReply s) := by
  unfold buildReply
  split
  · exact (BuildTouches.refl s).lapsed
  · exact BuildTouches.sent (by rfl) _ _

theorem buildRetry_touches (s : State) : BuildTouches s (buildRetry s) := by
  unfold buildRetry
  split
  · exact (BuildTouches.refl s).lapsed
  split
  · unfold retrySubscriber
    dsimp only
    split
    · exact BuildTouches.sent (by rfl) _ _
    · exact BuildTouches.lapsed (by rfl)
  · exact BuildTouches.sent (by rfl) _ _

theorem buildPoll_touches (s : State) : BuildTouches s (buildPoll s) := by
  unfold buildPoll
  split
  · exact BuildTouches.sent (by rfl) _ _
  · exact (BuildTouches.refl s).lapsed

theorem buildRetire_touches (s : State) : BuildTouches s (buildRetire s) := by
  unfold buildRetire
  split
  · exact (BuildTouches.refl s).lapsed
  · exact BuildTouches.sent (by rfl) _ _

theorem buildImmediate_touches (s : State) : BuildTouches s (buildImmediate s) := by
  unfold buildImmediate
  split
  · exact (BuildTouches.refl s).lapsed
  next i rest _ =>
    have hpop : BuildTouches s (popQueue rest (partRead s)) := BuildTouches.popped (by rfl) rest
    dsimp only
    split
    · refine BuildTouches.sent ?_ _ _
      unfold BuildTouches
      rw [hpop]
      rfl
    · exact hpop.lapsed

theorem sendMap_touches (h : BuildTouches s t) (n : Nat) : BuildTouches s (sendMap n t) := by
  unfold sendMap
  split
  · exact h.sent _ _
  · exact h.lapsed

theorem sendUnacked_touches (h : BuildTouches s t) (i : Nat) : BuildTouches s (sendUnacked i t) := by
  have hread : BuildTouches s (partRead t) := by
    unfold BuildTouches
    rw [h]
    rfl
  unfold sendUnacked
  split
  · exact hread.sent _ _
  · exact hread.lapsed

theorem buildSweep_touches (s : State) : BuildTouches s (buildSweep s) := by
  unfold buildSweep
  split
  · exact (BuildTouches.refl s).lapsed
  split
  · exact sendMap_touches (by rfl) _
  split
  · exact sendUnacked_touches (by rfl) _
  · exact (BuildTouches.refl s).lapsed

theorem buildRefresh_touches (s : State) : BuildTouches s (buildRefresh s) := by
  unfold buildRefresh
  dsimp only
  split
  · exact sendMap_touches (by rfl) _
  split
  · exact sendUnacked_touches (by rfl) _
  · exact (BuildTouches.refl s).lapsed

theorem buildFrame_touches (c : FrameClass) (s : State) : BuildTouches s (buildFrame c s) := by
  cases c with
  | reply => exact buildReply_touches s
  | retry => exact buildRetry_touches s
  | poll => exact buildPoll_touches s
  | retire => exact buildRetire_touches s
  | immediate => exact buildImmediate_touches s
  | sweep => exact buildSweep_touches s
  | refresh => exact buildRefresh_touches s

theorem finishGrant_touches (s : State) : BuildTouches s (finishGrant s) := by
  unfold finishGrant
  split
  · exact buildFrame_touches _ s
  · exact BuildTouches.refl s

theorem finishGrant_of_granted {c : FrameClass} (h : s.sched.link = .granted c) : finishGrant s = buildFrame c s := by
  simp only [finishGrant, h]

theorem finishGrant_of_not_granted (h : ∀ c, s.sched.link ≠ .granted c) : finishGrant s = s := by
  unfold finishGrant
  split
  · exact absurd ‹_› (h _)
  · rfl

/-! Power-up, reset and power loss. -/

theorem clockAtPowerUp_intact {c : Clock} (h : c.backupIntact = true) :
    clockAtPowerUp c = { c with snapshot := none, ticks := [] } := if_pos h

theorem clockAtPowerUp_lost {c : Clock} (h : c.backupIntact = false) : clockAtPowerUp c = State.reset.clock :=
  if_neg (by simp [h])

theorem enterStarting_eq (cause : StartCause) (lost : Bool) (s : State) : enterStarting cause lost s = { s with
    power := { s.power with resetting := false, failing := s.power.pwrfailAsserted }
    port := { last := none, grant := none, waiting := [], inactive := false }
    part := { s.part with state := .starting, startStep := 1, cause := cause, backupLost := lost }
    plan := if s.power.pwrfailAsserted then s.plan
      else { s.plan with check := some { expected := rd s planCheckWord, words := [] } } } := by
  unfold enterStarting
  dsimp only
  split <;> rfl

theorem powerUpPart_eq (s : State) : powerUpPart s = { State.reset with
    pending := s.pending, mem := s.mem, bus := s.bus, time := s.time, freeCount := s.freeCount
    power := { vcc := true, resetting := false, failing := s.power.pwrfailAsserted
               pwrfailAsserted := s.power.pwrfailAsserted }
    part := { State.reset.part with backupLost := !s.clock.backupIntact }
    plan := { State.reset.plan with
      check := if s.power.pwrfailAsserted then none else some { expected := rd s 0x7F, words := [] } }
    clock := clockAtPowerUp s.clock } := by
  have hclock : { clockAtPowerUp s.clock with snapshot := none, ticks := [] } = clockAtPowerUp s.clock := by
    unfold clockAtPowerUp
    split <;> rfl
  unfold powerUpPart
  dsimp only
  rw [enterStarting_eq]
  unfold clearInternal
  dsimp only
  rw [hclock]
  cases s.power.pwrfailAsserted <;> rfl

theorem assertReset_eq (h : s.power.vcc = true) : assertReset s = { State.reset with
    pending := s.pending, bus := s.bus, time := s.time, freeCount := s.freeCount
    mem := (finishGrant { s with power := { s.power with resetting := true } }).mem
    power := { s.power with resetting := true, failing := false }
    port := { last := none, grant := none, waiting := [], inactive := true }
    part := { State.reset.part with startStep := 0, backupLost := false }
    plan := { State.reset.plan with check := none }
    clock := { s.clock with snapshot := none, ticks := [] } } := by
  unfold assertReset
  rw [if_pos h]
  dsimp only
  rw [finishGrant_touches { s with power := { s.power with resetting := true } }]
  rfl

/-- Settles O55, by the clearing of internal state and the entry of STARTING. -/
theorem powerUpAndResetClearInternalState : Obligations.PowerUpAndResetClearInternalState := by
  unfold Obligations.PowerUpAndResetClearInternalState
  refine ⟨fun s => ⟨_, congrArg Host.Outcome.next (powerUpPart_eq s), rfl, rfl, rfl, clockAtPowerUp_intact,
    clockAtPowerUp_lost, rfl⟩, fun s hv => ⟨_, congrArg Host.Outcome.next (assertReset_eq hv), rfl, rfl, rfl, rfl,
    fun hg => ?_, rfl⟩, fun s hv hr => ⟨enterStarting .reset false s,
    ?_, ?_, ?_, ?_⟩, fun s => rfl⟩
  · have hlink := finishGrant_of_not_granted (s := { s with power := { s.power with resetting := true } }) hg
    dsimp only
    rw [hlink]
  · show execResetEnd s = _
    rw [execResetEnd, if_neg (by simp [takesTicks, hr]), if_pos hv]
  · rw [enterStarting_eq]
  · rw [enterStarting_eq]
    rfl
  · rw [enterStarting_eq]

/-- Settles O56, by the work that a warning abandons and the build it lets finish. -/
theorem powerFailStopsNewWork : Obligations.PowerFailStopsNewWork := by
  unfold Obligations.PowerFailStopsNewWork
  refine ⟨fun s hr hg => ?_, fun c s hr hg => ?_, fun s hr => ?_, fun s hv hf => ?_, fun s => rfl, fun s hv => ?_,
    fun s hv => ?_⟩
  · have hwork : assertPwrfail s = _ := (if_pos hr).trans (finishGrant_of_not_granted (s := abandonWork { s with
      power := { s.power with pwrfailAsserted := true, failing := true }, port := dropHostRequest s.port }) hg)
    exact next_latchArisen hwork rfl
  · have hwork : assertPwrfail s = _ := (if_pos hr).trans (finishGrant_of_granted (s := abandonWork { s with
      power := { s.power with pwrfailAsserted := true, failing := true }, port := dropHostRequest s.port }) hg)
    exact congrArg (fun v => Host.Outcome.next (latchArisen s v)) hwork
  · exact next_latchArisen (if_neg (by simp [hr])) rfl
  · exact congrArg Host.Outcome.next (if_pos ⟨hv, hf⟩)
  · exact congrArg Host.Outcome.next (if_neg (by simp [hv]))
  · exact congrArg Host.Outcome.next (if_pos hv)

end Sys2Proof.Machine


/-! ## Host writes to subscriber records (R55, R63, R64) and to ring tails (R175) -/

namespace Sys2Proof.Machine

variable {s t u : State} {w : Nat} {l : Lanes}

/-! The words a write reaches. -/

theorem toNat_addrOf_subscriber (i : Fin 4096) (hw : w < 32) :
    (addrOf (subscriberWord i.val w)).toNat = subscriberWord i.val w :=
  Laws.Operands.addrOf_toNat (by have := i.isLt; unfold subscriberWord; omega)

theorem observedWrite_subscriber (i : Fin 4096) (hw : w < 32) (m : Word) (s : State) :
    observedWrite (addrOf (subscriberWord i.val w)) m s = writeSubscriberWord (addrOf (subscriberWord i.val w)) m s := by
  have h₁ : planCheckWord = 0x7F := rfl
  have h₂ : commitWord = 0x580 := rfl
  have h₃ : logTailWord = 0x121 := rfl
  have h₄ : journalTailWord = 0x124 := rfl
  have ha : 0x10000 ≤ subscriberWord i.val w := by unfold subscriberWord; omega
  unfold observedWrite
  dsimp only
  simp (disch := omega) only [toNat_addrOf_subscriber i hw, if_neg]

/-- R4, R7: a host write to a watched word of a subscriber record reaches the Order Monitor. -/
theorem hostWrite_subscriber (i : Fin 4096) (hr : running s = true) (hl : noLanes l = false)
    (hs : s.part.state ≠ .starting) (hw : w < 7) (d : Word) :
    hostWrite (addrOf (subscriberWord i.val w)) l d s =
      writeSubscriberWord (addrOf (subscriberWord i.val w)) (mergeLanes l (rd s (subscriberWord i.val w)) d) s := by
  have hi := i.isLt
  have hlo : 0x10000 ≤ subscriberWord i.val w := by unfold subscriberWord; omega
  have hhi : subscriberWord i.val w < 0x30000 := by unfold subscriberWord; omega
  rw [hostWrite_watched hr hl hs (toNat_addrOf_subscriber i (by omega)) ?_
      (Laws.Operands.wordClass_watched hlo hhi (by unfold subscriberWord; omega)),
    observedWrite_subscriber i (by omega)]
  exact Bool.and_eq_false_imp.2 fun h => by
    simp only [decide_eq_true_eq] at h
    exact decide_eq_false (by omega)

theorem subscriber_place (i : Fin 4096) (hw : w < 32) :
    ((addrOf (subscriberWord i.val w)).toNat - 0x10000) / 32 = i.val ∧
      (addrOf (subscriberWord i.val w)).toNat % 32 = w := by
  rw [toNat_addrOf_subscriber i hw]
  unfold subscriberWord
  omega

theorem writeSubscriberWord_drop (i : Fin 4096) (w : DropWord) (m : Word) (s : State) :
    writeSubscriberWord (addrOf (dropWordAddress i w)) m s = writeDropWord i.val w (addrOf (dropWordAddress i w)) m s := by
  cases w with
  | tap =>
    obtain ⟨hi, hw⟩ := subscriber_place i (w := 0) (by decide)
    unfold writeSubscriberWord dropWordAddress
    simp only [hi, hw, if_pos]
  | port =>
    obtain ⟨hi, hw⟩ := subscriber_place i (w := 1) (by decide)
    unfold writeSubscriberWord dropWordAddress
    simp [hi, hw]

theorem writeSubscriberWord_feed (i : Fin 4096) (m : Word) (s : State) :
    writeSubscriberWord (addrOf (subscriberWord i.val 2)) m s =
      feedAction i.val (subRd s i.val 2) m (hostStore s (subscriberWord i.val 2) bothLanes m) := by
  obtain ⟨hi, hw⟩ := subscriber_place i (w := 2) (by decide)
  unfold writeSubscriberWord
  simp only [hi, hw]
  rw [toNat_addrOf_subscriber i (by decide)]
  rfl

theorem writeSubscriberWord_order (i : Fin 4096) (w : OrderWord) (m : Word) (s : State) :
    writeSubscriberWord (addrOf (orderWordAddress i w)) m s =
      orderAction i.val (hostStore s (orderWordAddress i w) bothLanes m) := by
  cases w with
  | tierSet =>
    obtain ⟨hi, hw⟩ := subscriber_place i (w := 3) (by decide)
    unfold writeSubscriberWord orderWordAddress
    simp only [hi, hw]
    rw [toNat_addrOf_subscriber i (by decide)]
    rfl
  | order =>
    obtain ⟨hi, hw⟩ := subscriber_place i (w := 6) (by decide)
    unfold writeSubscriberWord orderWordAddress
    simp only [hi, hw]
    rw [toNat_addrOf_subscriber i (by decide)]
    rfl

theorem rd_hostStore_both (hm : MemWf s.mem) (a : Nat) (m : Word) : rd (hostStore s a bothLanes m) a = m := by
  rw [rd_hostStore_same _ _ _ _ hm, mergeLanes_both]

/-- A word of record `i` that a store to another of its words leaves. -/
theorem subRd_hostStore_other {i x : Nat} (hw : w < 32) (hx : x < 32) (h : x ≠ w) (m : Word) :
    subRd (hostStore s (subscriberWord i w) bothLanes m) i x = subRd s i x :=
  rd_hostStore_other _ _ _ _ _ fun c => h ((subscriberWord_inj hx hw).1 c).2

/-! Direct counts (R63). -/

theorem countOf_setCount_same (c : List (Nat × Nat)) (k n : Nat) : countOf (setCount c k n) k = n := by
  unfold setCount countOf
  split
  · rw [tableGet_tableErase_same]; exact Eq.symm ‹_›
  · rw [tableGet_tableSet_same]; rfl

theorem countOf_setCount_other (c : List (Nat × Nat)) {k j : Nat} (n : Nat) (h : j ≠ k) :
    countOf (setCount c k n) j = countOf c j := by
  unfold setCount countOf
  split
  · rw [tableGet_tableErase_other _ h]
  · rw [tableGet_tableSet_other _ _ h]

theorem setDirect_wordsKept (e n : Nat) (s : State) : WordsKept [elementWord e 13] s (setDirect e n s) :=
  wordsKept_wr { s with order := { s.order with direct := setCount s.order.direct e n } } (elementWord e 13) (wordOf n)

theorem rd_setDirect (hm : MemWf s.mem) (e n : Nat) : rd (setDirect e n s) (elementWord e 13) = wordOf n :=
  rd_wr_same { s with order := { s.order with direct := setCount s.order.direct e n } } _ _ hm

theorem setDirect_frame (e n : Nat) (s : State) : setDirect e n s = { s with
    mem := (setDirect e n s).mem, port := (setDirect e n s).port
    order := { s.order with direct := setCount s.order.direct e n } } := rfl

theorem setDirect_wf (hm : MemWf s.mem) (e n : Nat) : MemWf (setDirect e n s).mem := wr_wf _ _ _ hm

end Sys2Proof.Machine


/-! ## FEED_CHANGE, ORDER_WRITE and RING_TAIL_WRITE (R63, R64, R175) -/

namespace Sys2Proof.Machine

variable {s t u : State} {w : Nat} {l : Lanes}

/-! The feed of a record (R63). -/

/-- R63: one count moves from the old feed to the new. -/
def feedMoved (old new : Nat) (s : State) : State := raiseDirect new (lowerDirect old s)

theorem feedMoved_frame (old new : Nat) (s : State) : feedMoved old new s = { s with
    mem := (feedMoved old new s).mem, port := (feedMoved old new s).port
    order := { s.order with direct := (feedMoved old new s).order.direct } } := rfl

theorem feedMoved_kept (old new : Nat) (s : State) :
    WordsKept [elementWord old 13, elementWord new 13] s (feedMoved old new s) := fun a ha =>
  (setDirect_wordsKept new _ (lowerDirect old s) a fun h => ha (List.mem_cons_of_mem _ h)).trans
    (setDirect_wordsKept old _ s a fun h => ha (by rw [List.mem_singleton.1 h]; exact List.mem_cons_self))

theorem feedMoved_counts {old new : Nat} (hm : MemWf s.mem) (h : old ≠ new) :
    countOf (feedMoved old new s).order.direct old = countOf s.order.direct old - 1 ∧
    countOf (feedMoved old new s).order.direct new = countOf s.order.direct new + 1 ∧
    (∀ e, e ≠ old → e ≠ new → countOf (feedMoved old new s).order.direct e = countOf s.order.direct e) ∧
    rd (feedMoved old new s) (elementWord old 13) = wordOf (countOf s.order.direct old - 1) ∧
    rd (feedMoved old new s) (elementWord new 13) = wordOf (countOf s.order.direct new + 1) := by
  have hlow : countOf (lowerDirect old s).order.direct new = countOf s.order.direct new := countOf_setCount_other _ _ h.symm
  have hdirect : (feedMoved old new s).order.direct = setCount
      (setCount s.order.direct old (countOf s.order.direct old - 1)) new (countOf (lowerDirect old s).order.direct new + 1) := rfl
  rw [hdirect]
  refine ⟨?_, ?_, fun e ho hn => ?_, ?_, ?_⟩
  · rw [countOf_setCount_other _ _ h, countOf_setCount_same]
  · rw [countOf_setCount_same, hlow]
  · rw [countOf_setCount_other _ _ hn, countOf_setCount_other _ _ ho]
  · refine (setDirect_wordsKept new _ (lowerDirect old s) _ fun c => h ?_).trans (rd_setDirect hm _ _)
    exact elementWord_inj (List.mem_singleton.1 c)
  · refine (rd_setDirect (setDirect_wf hm _ _) _ _).trans ?_
    rw [hlow]

theorem feedAction_moves_count {i : Nat} {old m : Word} (hu : inUse s i = true) (h : field old 0 8 ≠ field m 0 8) :
    feedAction i old m s = { feedMoved (field old 0 8) (field m 0 8) s with
      order := { (feedMoved (field old 0 8) (field m 0 8) s).order with outstanding := none } } := if_pos ⟨hu, h⟩

theorem feedAction_keeps {i : Nat} {old m : Word} (h : inUse s i = false ∨ field old 0 8 = field m 0 8) :
    feedAction i old m s = partRead s := if_neg fun c => h.elim (fun hu => by simp [hu] at c) fun heq => c.2 heq

theorem elementWord_not_subscriber {e i w : Nat} (he : e < 256) : elementWord e 13 ≠ subscriberWord i w := by
  unfold elementWord subscriberWord
  omega

theorem field_lt (w : Word) : field w 0 8 < 256 := Nat.mod_lt _ (by decide)

/-! The tail of a ring (R175). -/

theorem ringSize_cases (n : RingName) : ringSize n = 512 ∨ ringSize n = 1024 := by cases n <;> decide

/-- R175: the values a tail write may store are those in the window from the tail forward to the head. -/
theorem tailStored_iff {n : RingName} {r : RingCopy} (ht : r.tail < ringSize n) (v : Nat) :
    ((∃ k, k ≤ (r.head + ringSize n - r.tail) % ringSize n ∧ v = (r.tail + k) % ringSize n) → tailStored n r v = v) ∧
    ((¬∃ k, k ≤ (r.head + ringSize n - r.tail) % ringSize n ∧ v = (r.tail + k) % ringSize n) → tailStored n r v = r.head) := by
  unfold tailStored
  dsimp only
  rcases ringSize_cases n with hz | hz
  · rw [hz] at ht ⊢
    refine ⟨fun ⟨k, hk, hv⟩ => if_pos (by omega), fun h => if_neg fun c => h ⟨(v + 512 - r.tail) % 512, c.2, by omega⟩⟩
  · rw [hz] at ht ⊢
    refine ⟨fun ⟨k, hk, hv⟩ => if_pos (by omega), fun h => if_neg fun c => h ⟨(v + 1024 - r.tail) % 1024, c.2, by omega⟩⟩

/-- R175, R168: the ring with its new tail, and the close that stalls no more. -/
def tailWritten (n : RingName) (r : RingCopy) (v : Nat) (s : State) : State :=
  let t := setRingCopy n { r with tail := v } (hostStore s (tailAddress n) bothLanes (wordOf v))
  if n = .journal ∧ v ≠ r.tail then freeStalled t else t

theorem observedWrite_tail {n : RingName} {r : RingCopy} (h : ringCopy s n = some r) (m : Word) :
    observedWrite (addrOf (tailAddress n)) m s = tailWritten n r (tailStored n r m.toNat) s := by
  have hcopy : ringCopy (hostStore s (tailAddress n) bothLanes (wordOf (tailStored n r m.toNat))) n = some r := by
    cases n <;> exact h
  have hobs : observedWrite (addrOf (tailAddress n)) m s = writeTail n (addrOf (tailAddress n)) m s := by cases n <;> rfl
  have ha : (addrOf (tailAddress n)).toNat = tailAddress n := by cases n <;> rfl
  rw [hobs, writeTail, h]
  simp only [setTail, ha, hcopy]
  rfl

theorem tailWritten_mem (n : RingName) (r : RingCopy) (v : Nat) (s : State) :
    (tailWritten n r v s).mem = (hostStore s (tailAddress n) bothLanes (wordOf v)).mem := by
  unfold tailWritten
  cases n <;> dsimp only <;> split <;> rfl

theorem tailWritten_frame (n : RingName) (r : RingCopy) (v : Nat) (s : State) : tailWritten n r v s = { s with
    mem := (tailWritten n r v s).mem, port := (tailWritten n r v s).port, writer := (tailWritten n r v s).writer
    close := if n = .journal ∧ v ≠ r.tail then { s.close with stalled := false } else s.close } := by
  unfold tailWritten
  cases n <;> dsimp only <;> split <;> rfl

theorem tailWritten_copy (n : RingName) (r : RingCopy) (v : Nat) (s : State) :
    ringCopy (tailWritten n r v s) n = some { r with tail := v } := by
  unfold tailWritten
  cases n <;> dsimp only <;> split <;> rfl

theorem ringCopy_latchArisen (n : RingName) (v : State) : ringCopy (latchArisen v t) n = ringCopy t n := by
  rw [latchArisen_frame]
  cases n <;> rfl

/-- Settles O37, by the action of each observed write. -/
theorem feedOrderAndTailWrites : Obligations.FeedOrderAndTailWrites := by
  unfold Obligations.FeedOrderAndTailWrites
  refine ⟨fun i l d m old new s hm hr hl hs hmerge hold hnew => ?_, fun i w l d m s hm hr hl hs hmerge => ?_,
    fun n l d r v s hm hring hr hl hs hcopy hv => ?_⟩
  · have hstored := rd_hostStore_both hm (subscriberWord i.val 2) m
    have hkept := hostStore_wordsKept s (subscriberWord i.val 2) bothLanes m
    have hnew' : new = field m 0 8 := by rw [hnew, field]; simp
    have hwrite := (hostWrite_subscriber i hr hl hs (w := 2) (by decide) d).trans
      ((congrArg (fun x => writeSubscriberWord _ x s) hmerge.symm).trans (writeSubscriberWord_feed i m s))
    have huse : inUse (hostStore s (subscriberWord i.val 2) bothLanes m) i.val = inUse s i.val := by
      unfold inUse subTap
      rw [subRd_hostStore_other (by decide) (by decide) (by decide)]
      rfl
    have hwf := hostStore_wf s (subscriberWord i.val 2) bothLanes m hm
    have hframe := hostStore_frame s (subscriberWord i.val 2) bothLanes m
    subst hold hnew'
    generalize hostStore s (subscriberWord i.val 2) bothLanes m = v at *
    by_cases hmove : inUse s i.val = true ∧ subFeed s i.val ≠ field m 0 8
    · rw [feedAction_moves_count (huse.trans hmove.1) hmove.2] at hwrite
      have hcounts := feedMoved_counts hwf hmove.2
      have hmk := feedMoved_kept (subFeed s i.val) (field m 0 8) v
      have hdirect : v.order = s.order := by rw [hframe]
      rw [hdirect] at hcounts
      obtain ⟨h₁, h₂, h₃, h₄, h₅⟩ := hcounts
      refine ⟨_, next_latchArisen hwrite ?_, (hmk _ fun c => ?_).trans hstored, fun _ _ => ⟨h₁, h₂, h₃, h₄, h₅, fun a ha => ?_, ?_⟩,
        fun c => absurd hmove fun hmove => c.elim (fun hu => by simp [hu] at hmove) hmove.2⟩
      · have := feedMoved_frame (subFeed s i.val) (field m 0 8) v
        rw [hframe] at this
        rw [feedMoved_frame, hframe]
        rfl
      · simp only [List.mem_cons, List.not_mem_nil, or_false] at c
        exact c.elim (fun c => elementWord_not_subscriber (field_lt _) c.symm) fun c => elementWord_not_subscriber (field_lt _) c.symm
      · exact (hmk a fun c => ha (List.mem_cons_of_mem _ c)).trans
          (hkept a fun c => ha (by rw [List.mem_singleton.1 c]; exact List.mem_cons_self))
      · rw [feedMoved_frame, hframe]
    · have hno : inUse s i.val = false ∨ subFeed s i.val = field m 0 8 := by
        cases hu : inUse s i.val with
        | false => exact .inl rfl
        | true => exact .inr (Decidable.not_not.1 fun c => hmove ⟨hu, c⟩)
      rw [feedAction_keeps (hno.imp huse.trans id)] at hwrite
      refine ⟨partRead v, next_latchArisen hwrite ?_, hstored, fun hu hne => absurd ⟨hu, hne⟩ hmove, fun _ => ⟨hkept, ?_⟩⟩
      · rw [hframe]; rfl
      · rw [hframe]; rfl
  · have hw7 : ∃ w', w' < 7 ∧ w' ≠ 0 ∧ orderWordAddress i w = subscriberWord i.val w' := by
      cases w with
      | tierSet => exact ⟨3, by decide, by decide, rfl⟩
      | order => exact ⟨6, by decide, by decide, rfl⟩
    obtain ⟨w', hlt, hne, haddr⟩ := hw7
    have hstored := rd_hostStore_both hm (orderWordAddress i w) m
    have hkept := hostStore_wordsKept s (orderWordAddress i w) bothLanes m
    have hwrite : hostWrite (addrOf (orderWordAddress i w)) l d s =
        orderAction i.val (hostStore s (orderWordAddress i w) bothLanes m) := by
      rw [← writeSubscriberWord_order, hmerge, haddr]
      exact hostWrite_subscriber i hr hl hs hlt d
    have hserve : servable (hostStore s (orderWordAddress i w) bothLanes m) i.val = servable s i.val := by
      unfold servable inUse subTap subStatus
      rw [haddr, subRd_hostStore_other (by omega) (by decide) (by omega), subRd_hostStore_other (by omega) (by decide) (by omega)]
      rfl
    have hframe := hostStore_frame s (orderWordAddress i w) bothLanes m
    generalize hostStore s (orderWordAddress i w) bothLanes m = v at *
    refine ⟨fun hno => ?_, fun hyes => ?_⟩
    · rw [orderAction, if_neg (by simp [hserve, hno])] at hwrite
      exact ⟨partRead v, next_latchArisen hwrite (by rw [hframe]; rfl), hstored, hkept, by rw [hframe]; rfl⟩
    · rw [orderAction, if_pos (hserve.trans hyes)] at hwrite
      have hsched : (withOutstanding i.val .order id (partRead v)).sched = s.sched := by rw [hframe]; rfl
      have hmem (x : State) : (submit i.val x).mem = x.mem := by rw [submit_frame]
      refine ⟨submit i.val (withOutstanding i.val .order id (partRead v)), congrArg (fun x => Host.Outcome.next (latchArisen s x)) hwrite, ?_,
        fun a ha => ?_, (submitted_submit _ _).congr hsched.symm rfl, ?_, ?_, ?_⟩
      · rw [rd, hmem]; exact hstored
      · rw [rd, hmem]; exact hkept a ha
      · have := submissionOnly_submit i.val (withOutstanding i.val .order id (partRead v))
        rwa [SubmissionOnly, hsched] at this
      · rw [(submitted_submit _ _).2.2.2]
        exact woken_resting _
      · rw [submit_frame, hframe]
        rfl
  · obtain ⟨hh, ht⟩ := hring.1 n r hcopy
    have hstored := tailStored_iff ht v
    have hwatched : wordClass (tailAddress n) = .watched ∧ inHeadEndRecord (tailAddress n) = false := by cases n <;> decide
    have ha : (addrOf (tailAddress n)).toNat = tailAddress n := by cases n <;> rfl
    have hwrite := (hostWrite_watched hr hl hs ha hwatched.2 hwatched.1 d).trans (observedWrite_tail hcopy _)
    rw [← hv] at hwrite
    have hlt : tailStored n r v < 65536 := by
      have := tailStored_lt v hh
      rcases ringSize_cases n with hz | hz <;> omega
    generalize tailStored n r v = x at *
    have hword : (rd (tailWritten n r x s) (tailAddress n)).toNat = x := by
      rw [rd, tailWritten_mem]
      exact (congrArg BitVec.toNat (rd_hostStore_both hm _ _)).trans (wordOf_toNat hlt)
    have hcopied := tailWritten_copy n r x s
    have hclose : (tailWritten n r x s).close = if n = .journal ∧ x ≠ r.tail then { s.close with stalled := false } else s.close := by
      rw [tailWritten_frame]
    have htail : ∀ r', ringCopy (tailWritten n r x s) n = some r' → r'.tail = x := fun r' hr' => by
      rw [hcopied] at hr'
      rw [← Option.some.inj hr']
    refine ⟨latchArisen s (tailWritten n r x s), congrArg (fun x => Host.Outcome.next (latchArisen s x)) hwrite, ?_⟩
    simp only [rd_latchArisen, ringCopy_latchArisen, wordsKept_latchArisen, latchArisen_close, hword]
    refine ⟨fun h => ⟨hstored.1 h, fun r' hr' => (htail r' hr').trans (hstored.1 h)⟩,
      fun h => ⟨hstored.2 h, fun r' hr' => (htail r' hr').trans (hstored.2 h)⟩, hcopied, fun a ha => ?_,
      flagsFollow_latchArisen ?_, fun hj hne => ?_, fun h => ?_, ?_⟩
    · rw [rd, tailWritten_mem]
      exact hostStore_wordsKept s _ _ _ a ha
    · rw [tailWritten_frame]
    · rw [hclose, if_pos ⟨hj, hne⟩]
    · rw [hclose, if_neg fun c => h.elim (fun hn => by rw [hn] at c; exact absurd c.1 (by decide)) c.2]
    · rw [latchArisen_frame, tailWritten_frame]

end Sys2Proof.Machine


/-! ## Writes to words 0 and 1 of a record (R55 to R62) -/

namespace Sys2Proof.Machine

variable {s t u v : State} {l : Lanes} {c : DropChange} {i : Nat} {w : DropWord} {m : Word}

/-! The write and its verdict. -/

theorem hostWrite_drop (i : Fin 4096) (hr : running s = true) (hl : noLanes l = false) (hs : s.part.state ≠ .starting)
    (w : DropWord) (d : Word) : hostWrite (addrOf (dropWordAddress i w)) l d s =
      writeDropWord i.val w (addrOf (dropWordAddress i w)) (mergeLanes l (rd s (dropWordAddress i w)) d) s := by
  rw [← writeSubscriberWord_drop]
  cases w with
  | tap => exact hostWrite_subscriber i hr hl hs (by decide) d
  | port => exact hostWrite_subscriber i hr hl hs (by decide) d

theorem toNat_dropWordAddress (i : Fin 4096) (w : DropWord) : (addrOf (dropWordAddress i w)).toNat = dropWordAddress i w := by
  cases w with
  | tap => exact toNat_addrOf_subscriber i (by decide)
  | port => exact toNat_addrOf_subscriber i (by decide)

theorem writeDropWord_passes (i : Fin 4096) (h : dropVerdict (dropChange i.val w m s) s = none) :
    writeDropWord i.val w (addrOf (dropWordAddress i w)) m s =
      dropAction (dropChange i.val w m s) (hostStore s (dropWordAddress i w) bothLanes m) := by
  unfold writeDropWord
  simp only [h, toNat_dropWordAddress]

theorem writeDropWord_squashed {r : SquashReason} {a : Addr} (h : dropVerdict (dropChange i w m s) s = some r) :
    writeDropWord i w a m s = squash a r (grantPort .host s) := by
  unfold writeDropWord
  simp only [h]

/-- R5: a squashed write to word 0 or 1 is latched, and nothing else follows. -/
theorem exec_drop_squashed (i : Fin 4096) {d : Word} {x : Instr} {r : SquashReason} (hr : running s = true)
    (hl : noLanes l = false) (hs : s.part.state ≠ .starting) (hm : m = mergeLanes l (rd s (dropWordAddress i w)) d)
    (h : dropVerdict (dropChange i.val w m s) s = some r)
    (hx : exec x s = .next (latchArisen s (hostWrite (addrOf (dropWordAddress i w)) l d s))) :
    ∃ t, exec x s = .next t ∧ t.flags = s.flags ||| 0x0100 ∧
      (s.path.squash = none → t.path.squash = some (addrOf (dropWordAddress i w), r)) ∧
      t = { s with port := t.port, flags := t.flags, path := { s.path with squash := t.path.squash } } := by
  have hwrite := (hostWrite_drop i hr hl hs w d).trans
    ((congrArg (fun x => writeDropWord _ _ _ x s) hm.symm).trans (writeDropWord_squashed h))
  exact ⟨squash (addrOf (dropWordAddress i w)) r (grantPort .host s), hx.trans (next_latchArisen hwrite rfl), rfl,
    fun hnone => by simp only [squash, grantPort, hnone], rfl⟩

/-- R55: a write to word 0 or 1 that passes is stored, and its action follows. -/
theorem exec_drop_passes (i : Fin 4096) {d : Word} {x : Instr} (hr : running s = true)
    (hl : noLanes l = false) (hs : s.part.state ≠ .starting) (hm : m = mergeLanes l (rd s (dropWordAddress i w)) d)
    (h : dropVerdict (dropChange i.val w m s) s = none)
    (hx : exec x s = .next (latchArisen s (hostWrite (addrOf (dropWordAddress i w)) l d s))) :
    exec x s = .next (latchArisen s
      (dropAction (dropChange i.val w m s) (hostStore s (dropWordAddress i w) bothLanes m))) := by
  rw [hx, hostWrite_drop i hr hl hs, ← hm, writeDropWord_passes i h]

/-! The kinds of a write (R55, R62). -/

theorem kind_unused (h : c.oldTap = 0) (h' : c.newTap = 0) : c.kind = .unused := by simp [DropChange.kind, h, h']

theorem kind_activation (h : c.oldTap = 0) (h' : c.newTap ≠ 0) : c.kind = .activation := by simp [DropChange.kind, h, h']

theorem kind_retire (h : c.oldTap ≠ 0) (h' : c.newTap = 0) : c.kind = .retire := by simp [DropChange.kind, h, h']

theorem kind_claim (h : c.oldTap ≠ 0) (h' : c.newTap ≠ 0) (hc : c.status.conflict = true) : c.kind = .claim := by
  simp [DropChange.kind, h, h', hc]

theorem kind_rewrite (h : c.oldTap ≠ 0) (h' : c.newTap ≠ 0) (hc : c.status.conflict = false) (ht : c.oldTap = c.newTap)
    (hp : c.oldPort = c.newPort) : c.kind = .rewrite := by
  rw [DropChange.kind, if_neg h, if_neg h', if_neg (by simp [hc]), if_pos ⟨ht, hp⟩]

theorem kind_move (h : c.oldTap ≠ 0) (h' : c.newTap ≠ 0) (hc : c.status.conflict = false)
    (hmove : c.oldTap ≠ c.newTap ∨ c.oldPort ≠ c.newPort) : c.kind = .move := by
  rw [DropChange.kind, if_neg h, if_neg h', if_neg (by simp [hc]),
    if_neg fun hsame => hmove.elim (fun ht => ht hsame.1) fun hp => hp hsame.2]

/-- R55: an address that no record, or the record itself, holds. -/
theorem isDuplicate_eq_false (h : holderOf s c.newTap c.newPort = none ∨ holderOf s c.newTap c.newPort = some c.sub) :
    isDuplicate c s = false := by
  unfold isDuplicate
  rcases h with h | h <;> simp [h]

theorem isDuplicate_eq_true {j : Nat} (h : holderOf s c.newTap c.newPort = some j) (hj : j ≠ c.sub) : isDuplicate c s = true := by
  unfold isDuplicate
  simp [h, hj]

/-! The stored word leaves the others of its record. -/

theorem dropWord_other {x : Nat} (i : Fin 4096) (hx : 2 ≤ x) (hx' : x < 32) (w : DropWord) (m : Word) (s : State) :
    subRd (hostStore s (dropWordAddress i w) bothLanes m) i.val x = subRd s i.val x := by
  cases w with
  | tap => exact subRd_hostStore_other (by decide) hx' (by omega) m
  | port => exact subRd_hostStore_other (by decide) hx' (by omega) m

theorem dropWordAddress_ne {x : Nat} (i : Fin 4096) (hx : 2 ≤ x) (hx' : x < 32) (w : DropWord) :
    dropWordAddress i w ≠ subscriberWord i.val x := by
  cases w with
  | tap => exact fun h => by have := ((subscriberWord_inj (by decide) hx').1 h).2; omega
  | port => exact fun h => by have := ((subscriberWord_inj (by decide) hx').1 h).2; omega

/-! The retire list and the pending entries (R57, R58, R103). -/

theorem entriesLeft_none (i tap port : Nat) (es : List PendingAck) : entriesLeft false false i tap port es = es := by
  simp [entriesLeft]

theorem entriesLeft_cancelled (i tap port : Nat) (es : List PendingAck) :
    entriesLeft false true i tap port es = es.filter fun e => !entryAt tap port e := by
  simp [entriesLeft, entryAt]

theorem entriesLeft_superseded (i tap port : Nat) (es : List PendingAck) :
    entriesLeft true false i tap port es = es.filter fun e => !isEntryOf i e := by
  simp [entriesLeft, isEntryOf]

theorem entriesLeft_both (a b : Bool) (i tap port : Nat) (es : List PendingAck) :
    entriesLeft false b i tap port (entriesLeft a false i 0 0 es) = entriesLeft a b i tap port es := by
  unfold entriesLeft
  rw [List.filter_filter]
  congr 1
  funext e
  simp [Bool.and_comm]

theorem retireEntryAt_eq_none {tap port : Nat} : retireEntryAt s tap port = none ↔ retireWaits s tap port = false := by
  rw [retireEntryAt, retireWaits, List.find?_eq_none, List.any_eq_false]

theorem retiresBut_eq_self {tap port : Nat} {rs : List RetireEntry}
    (h : (rs.any fun r => decide (r.tap = tap) && decide (r.port = port)) = false) : retiresBut tap port rs = rs :=
  List.filter_eq_self.2 fun r hr => by
    rw [List.any_eq_false] at h
    simpa [imp_iff_not_or] using h r hr

theorem cancelRetire_frame (tap port i : Nat) (v : State) : cancelRetire tap port i v = { v with
    mem := (cancelRetire tap port i v).mem, port := (cancelRetire tap port i v).port
    order := { v.order with retires := retiresBut tap port v.order.retires }
    tracker := { v.tracker with
      table := entriesLeft false (retireWaits v tap port) i tap port v.tracker.table } } := by
  unfold cancelRetire
  cases h : retireEntryAt v tap port with
  | none =>
    have hno := retireEntryAt_eq_none.1 h
    simp only [hno, entriesLeft_none, retiresBut_eq_self hno]
  | some r =>
    have hyes : retireWaits v tap port = true := by
      rw [← Bool.not_eq_false, ← retireEntryAt_eq_none, h]
      exact Option.some_ne_none r
    rw [hyes, entriesLeft_cancelled]
    cases hl : r.lastSequence with
    | none => simp only [hl]; rfl
    | some q => simp only [hl]; rfl

theorem cancelRetire_kept (tap port i : Nat) (v : State) : WordsKept [subscriberWord i 9] v (cancelRetire tap port i v) := by
  unfold cancelRetire
  cases retireEntryAt v tap port with
  | none => exact WordsKept.refl v
  | some r =>
    cases hl : r.lastSequence with
    | none => simp only [hl]; exact fun _ _ => rfl
    | some q => simp only [hl]; exact wordsKept_wr (freeEntry tap port (removeRetire tap port v)) _ _

theorem cancelRetire_wf (tap port i : Nat) (hm : MemWf v.mem) : MemWf (cancelRetire tap port i v).mem := by
  unfold cancelRetire
  cases retireEntryAt v tap port with
  | none => exact hm
  | some r =>
    cases hl : r.lastSequence with
    | none => simp only [hl]; exact hm
    | some q => simp only [hl]; exact wr_wf _ _ _ hm

/-- R58: the record goes on from the sequence of the retire it has cancelled. -/
theorem subRd_cancelRetire (hm : MemWf v.mem) (tap port i : Nat) :
    subRd (cancelRetire tap port i v) i 9 = lastSequenceAfter v i tap port := by
  unfold cancelRetire lastSequenceAfter
  cases retireEntryAt v tap port with
  | none => rfl
  | some r =>
    cases hl : r.lastSequence with
    | none => simp only [Option.bind_some, hl]; rfl
    | some q =>
      simp only [Option.bind_some, hl]
      exact rd_wr_same (freeEntry tap port (removeRetire tap port v)) _ _ hm

theorem dropIfAwaiting_eq (c : DropChange) (v : State) : dropIfAwaiting c v = { v with
    tracker := { v.tracker with table := entriesLeft (decide (c.status.link = .awaiting)) false c.sub 0 0 v.tracker.table } } := by
  unfold dropIfAwaiting
  by_cases h : c.status.link = .awaiting
  · rw [if_pos h, decide_eq_true h, entriesLeft_superseded]
    rfl
  · rw [if_neg h, decide_eq_false h, entriesLeft_none]

/-- R57: the old drop joins the retire list if it is retiring. -/
def retired (c : DropChange) (v : State) : State := if isRetiring c then joinRetire c.oldTap c.oldPort c.sub v else v

theorem retired_eq (c : DropChange) (v : State) : retired c v = { v with
    order := { v.order with retires := retiresJoined v c } } := by
  unfold retired retiresJoined
  split
  · rfl
  · rw [List.append_nil]

/-! The counts of a status (R66). -/

theorem statusWord_fresh : statusWord freshStatus = 0 := by decide

theorem freshStatus_counts : countsUnreached freshStatus = 0 ∧ countsHeld freshStatus = 0 := by decide

theorem writeStatus_fresh (i : Nat) (old : RecordStatus) (v : State) : writeStatus i old freshStatus v = { v with
    mem := (writeStatus i old freshStatus v).mem, port := (writeStatus i old freshStatus v).port
    order := { v.order with
      unreached := v.order.unreached - countsUnreached old, held := v.order.held - countsHeld old } } := rfl

theorem subRd_writeStatus_fresh (hm : MemWf v.mem) (i : Nat) (old : RecordStatus) :
    subRd (writeStatus i old freshStatus v) i 8 = 0 :=
  (rd_wr_same v (subscriberWord i 8) (statusWord freshStatus) hm).trans statusWord_fresh

theorem counts_of_conflict {r : RecordStatus} (h : r.conflict = true) : countsUnreached r = 0 ∧ countsHeld r = 0 := by
  simp [countsUnreached, countsHeld, h]

/-! A submission at the end of an action (R65). -/

theorem submission_of_sched {b : State} (h : b.sched = s.sched) (i : Nat) :
    isWaiting (submit i b) i = true ∧ Submitted i s (submit i b) ∧ SubmissionOnly s (submit i b) := by
  refine ⟨isWaiting_submit i b, (submitted_submit i b).congr h.symm rfl, ?_⟩
  have := submissionOnly_submit i b
  rwa [SubmissionOnly, h] at this

theorem submit_mem (i : Nat) (s : State) : (submit i s).mem = s.mem := by rw [submit_frame]

theorem rd_submit (i : Nat) (s : State) (a : Nat) : rd (submit i s) a = rd s a := by rw [rd, submit_mem, rd]

end Sys2Proof.Machine


/-! ## UNUSED_WRITE, REWRITE and the claim of an address (R55, R58, R62) -/

namespace Sys2Proof.Machine

variable {s t u v b : State} {l : Lanes} {c : DropChange} {i : Nat} {w : DropWord} {m : Word}

/-! A record takes an address: a retire of it that waits is cancelled, and the status starts anew. -/

/-- R58, R60, R62: the record has its new address, and its status is a fresh one. -/
def dropTaken (c : DropChange) (v : State) : State :=
  writeStatus c.sub c.status freshStatus (cancelRetire c.newTap c.newPort c.sub v)

theorem dropTaken_frame (c : DropChange) (v : State) : dropTaken c v = { v with
    mem := (dropTaken c v).mem, port := (dropTaken c v).port
    order := { v.order with
      retires := retiresBut c.newTap c.newPort v.order.retires
      unreached := v.order.unreached - countsUnreached c.status, held := v.order.held - countsHeld c.status }
    tracker := { v.tracker with
      table := entriesLeft false (retireWaits v c.newTap c.newPort) c.sub c.newTap c.newPort v.tracker.table } } := by
  rw [dropTaken, writeStatus_fresh, cancelRetire_frame]

theorem dropTaken_kept (c : DropChange) (v : State) :
    WordsKept [subscriberWord c.sub 8, subscriberWord c.sub 9] v (dropTaken c v) := fun a ha =>
  (writeStatus_wordsKept _ _ _ _ a fun h => ha (by rw [List.mem_singleton.1 h]; exact List.mem_cons_self)).trans
    (cancelRetire_kept _ _ _ v a fun h => ha (List.mem_cons_of_mem _ h))

theorem subRd_dropTaken_status (hm : MemWf v.mem) (c : DropChange) : subRd (dropTaken c v) c.sub 8 = 0 :=
  subRd_writeStatus_fresh (cancelRetire_wf _ _ _ hm) _ _

theorem subRd_dropTaken_sequence (hm : MemWf v.mem) (c : DropChange) :
    subRd (dropTaken c v) c.sub 9 = lastSequenceAfter v c.sub c.newTap c.newPort :=
  (subRd_writeStatus_other (by decide) (.inr (by decide))).trans (subRd_cancelRetire hm _ _ _)

theorem lastSequenceAfter_congr {i tap port : Nat} (h : retireEntryAt v tap port = retireEntryAt s tap port)
    (hw : subRd v i 9 = subRd s i 9) : lastSequenceAfter v i tap port = lastSequenceAfter s i tap port := by
  rw [lastSequenceAfter, lastSequenceAfter, h, hw]

/-- What the memory holds when a stored write to word 0 or 1 has been followed by words 8 and 9. -/
theorem dropWord_follows (i : Fin 4096) (hm : MemWf s.mem) (w : DropWord) (m : Word)
    (hk : WordsKept [subscriberWord i.val 8, subscriberWord i.val 9] (hostStore s (dropWordAddress i w) bothLanes m) b) :
    rd b (dropWordAddress i w) = m ∧
      WordsKept [dropWordAddress i w, subscriberWord i.val 8, subscriberWord i.val 9] s b := by
  refine ⟨(hk _ fun h => ?_).trans (rd_hostStore_both hm _ _), fun a ha => ?_⟩
  · simp only [List.mem_cons, List.not_mem_nil, or_false] at h
    exact h.elim (dropWordAddress_ne i (by decide) (by decide) w) (dropWordAddress_ne i (by decide) (by decide) w)
  · refine (hk a fun h => ha (List.mem_cons_of_mem _ h)).trans (hostStore_wordsKept s _ _ _ a fun h => ha ?_)
    rw [List.mem_singleton.1 h]
    exact List.mem_cons_self

/-! The claim (R62). -/

/-- R62: a conflicted record has claimed a free address. -/
def claimed (c : DropChange) (v : State) : State :=
  withOutstanding c.sub .claim (fun x => dropTaken c (enterDirectory c.newTap c.newPort c.sub x)) v

theorem claimAction_eq (c : DropChange) (v : State) : claimAction c v = submit c.sub (claimed c v) := rfl

theorem claimed_frame (c : DropChange) (v : State) : claimed c v = { v with
    mem := (claimed c v).mem, port := (claimed c v).port
    order := { v.order with
      directory := tableSet v.order.directory (dropKey c.newTap c.newPort) c.sub, outstanding := none
      retires := retiresBut c.newTap c.newPort v.order.retires
      unreached := v.order.unreached - countsUnreached c.status, held := v.order.held - countsHeld c.status }
    tracker := { v.tracker with
      table := entriesLeft false (retireWaits v c.newTap c.newPort) c.sub c.newTap c.newPort v.tracker.table } } := by
  rw [claimed, withOutstanding, dropTaken_frame]
  rfl

theorem claimed_kept (c : DropChange) (v : State) :
    WordsKept [subscriberWord c.sub 8, subscriberWord c.sub 9] v (claimed c v) :=
  dropTaken_kept c (enterDirectory c.newTap c.newPort c.sub
    { v with order := { v.order with outstanding := some (c.sub, .claim) } })

theorem subRd_claimed (hm : MemWf v.mem) (c : DropChange) : subRd (claimed c v) c.sub 8 = 0 ∧
    subRd (claimed c v) c.sub 9 = lastSequenceAfter v c.sub c.newTap c.newPort :=
  ⟨subRd_dropTaken_status (v := enterDirectory c.newTap c.newPort c.sub
      { v with order := { v.order with outstanding := some (c.sub, .claim) } }) hm c,
    subRd_dropTaken_sequence (v := enterDirectory c.newTap c.newPort c.sub
      { v with order := { v.order with outstanding := some (c.sub, .claim) } }) hm c⟩

/-- R55: a write that finds the tap id 0 and leaves it 0 is stored alone. -/
theorem exec_unusedWrite (i : Fin 4096) (w : DropWord) {d : Word} (hr : running s = true)
    (hl : noLanes l = false) (hs : s.part.state ≠ .starting) (hmerge : m = mergeLanes l (rd s (dropWordAddress i w)) d)
    (hold : subTap s i.val = 0) (hzero : w = .tap → m = 0) :
    exec (.unusedWrite i w l d) s = .next (hostStore s (dropWordAddress i w) bothLanes m) := by
  have hnew : (dropChange i.val w m s).newTap = 0 := by
    cases w with
    | tap => exact congrArg BitVec.toNat (hzero rfl)
    | port => exact hold
  have hkind := kind_unused (c := dropChange i.val w m s) hold hnew
  have hexec := exec_drop_passes i hr hl hs hmerge (by rw [dropVerdict, hkind]) (x := .unusedWrite i w l d) rfl
  rw [dropAction, hkind] at hexec
  exact hexec.trans (next_latchArisen rfl rfl)

/-- R62: a write that keeps the address of a record submits its subscriber. -/
theorem exec_rewrite (i : Fin 4096) (w : DropWord) {d : Word} (hr : running s = true)
    (hl : noLanes l = false) (hs : s.part.state ≠ .starting) (hmerge : m = mergeLanes l (rd s (dropWordAddress i w)) d)
    (hc : c = dropChange i.val w m s) (hold : c.oldTap ≠ 0) (hnew : c.newTap ≠ 0) (hconf : c.status.conflict = false)
    (ht : c.oldTap = c.newTap) (hp : c.oldPort = c.newPort) :
    exec (.rewrite i w l d) s = .next (concluded s (submit i.val
      (withOutstanding i.val .rewrite id (hostStore s (dropWordAddress i w) bothLanes m)))) := by
  have hsub : c.sub = i.val := by rw [hc]; rfl
  have hkind := kind_rewrite hold hnew hconf ht hp
  have hexec := exec_drop_passes i hr hl hs hmerge (by rw [← hc, dropVerdict, hkind]) (x := .rewrite i w l d) rfl
  rw [← hc, dropAction, hkind] at hexec
  dsimp only at hexec
  rw [rewriteAction, hsub] at hexec
  exact hexec

/-- R62, R58: a conflicted record claims an address that no other record holds. -/
theorem exec_claim (i : Fin 4096) (w : DropWord) {d : Word} (hm : MemWf s.mem) (hr : running s = true)
    (hl : noLanes l = false) (hs : s.part.state ≠ .starting) (hmerge : m = mergeLanes l (rd s (dropWordAddress i w)) d)
    (hc : c = dropChange i.val w m s) (hold : c.oldTap ≠ 0) (hnew : c.newTap ≠ 0) (hconf : c.status.conflict = true)
    (hfree : holderOf s c.newTap c.newPort = none ∨ holderOf s c.newTap c.newPort = some i.val) :
    ∃ u, exec (.rewrite i w l d) s = .next (concluded s u) ∧ rd u (dropWordAddress i w) = m ∧
      subRd u i.val 8 = 0 ∧
      u.order = { s.order with
        directory := tableSet s.order.directory (8 * c.newTap + c.newPort) i.val, outstanding := none
        retires := retiresBut c.newTap c.newPort s.order.retires } ∧
      isWaiting u i.val = true ∧
      u.tracker = { s.tracker with
        table := entriesLeft false (retireWaits s c.newTap c.newPort) i.val c.newTap c.newPort s.tracker.table } ∧
      subRd u i.val 9 = lastSequenceAfter s i.val c.newTap c.newPort ∧ Submitted i.val s u ∧ SubmissionOnly s u ∧
      WordsKept [dropWordAddress i w, subscriberWord i.val 8, subscriberWord i.val 9] s u ∧
      u = { s with mem := u.mem, port := u.port, order := u.order, sched := u.sched, tracker := u.tracker } := by
  have hsub : c.sub = i.val := by rw [hc]; rfl
  have hkind := kind_claim hold hnew hconf
  have hexec := exec_drop_passes i hr hl hs hmerge
    (by rw [← hc, dropVerdict, hkind]; exact if_neg (by rw [isDuplicate_eq_false (by rw [hsub]; exact hfree)]; exact Bool.false_ne_true))
    (x := .rewrite i w l d) rfl
  rw [← hc, dropAction, hkind] at hexec
  have hother := dropWord_other i (x := 9) (by decide) (by decide) w m s
  have hwf := hostStore_wf s (dropWordAddress i w) bothLanes m hm
  have hframe := claimed_frame c (hostStore s (dropWordAddress i w) bothLanes m)
  obtain ⟨hstatus, hsequence⟩ := subRd_claimed hwf c
  obtain ⟨hword, hkept⟩ := dropWord_follows i hm w m (by rw [← hsub]; exact claimed_kept c _)
  obtain ⟨hwait, hsubmitted, honly⟩ := submission_of_sched (s := s)
    (b := claimed c (hostStore s (dropWordAddress i w) bothLanes m)) (by rw [hframe]; rfl) i.val
  obtain ⟨hcu, hch⟩ := counts_of_conflict hconf
  have horder : (claimed c (hostStore s (dropWordAddress i w) bothLanes m)).order = { s.order with
      directory := tableSet s.order.directory (8 * c.newTap + c.newPort) i.val, outstanding := none
      retires := retiresBut c.newTap c.newPort s.order.retires } := by
    rw [hframe, hcu, hch, hsub]
    rfl
  have htracker : (claimed c (hostStore s (dropWordAddress i w) bothLanes m)).tracker = { s.tracker with
      table := entriesLeft false (retireWaits s c.newTap c.newPort) i.val c.newTap c.newPort s.tracker.table } := by
    rw [hframe, hsub]
    rfl
  have hseq : subRd (claimed c (hostStore s (dropWordAddress i w) bothLanes m)) i.val 9 =
      lastSequenceAfter s i.val c.newTap c.newPort := by
    rw [← hsub, hsequence]
    exact lastSequenceAfter_congr rfl (by rw [hsub]; exact hother)
  have hbase : claimed c (hostStore s (dropWordAddress i w) bothLanes m) = { s with
      mem := (claimed c (hostStore s (dropWordAddress i w) bothLanes m)).mem
      port := (claimed c (hostStore s (dropWordAddress i w) bothLanes m)).port
      order := (claimed c (hostStore s (dropWordAddress i w) bothLanes m)).order
      tracker := (claimed c (hostStore s (dropWordAddress i w) bothLanes m)).tracker } := by
    rw [hframe]
    rfl
  rw [hsub] at hstatus
  rw [claimAction_eq, hsub] at hexec
  generalize claimed c (hostStore s (dropWordAddress i w) bothLanes m) = b at *
  have hso : (submit i.val b).order = b.order := by rw [submit_frame]
  have hst : (submit i.val b).tracker = b.tracker := by rw [submit_frame]
  exact ⟨_, hexec, (rd_submit _ _ _).trans hword, (rd_submit _ _ _).trans hstatus, hso.trans horder, hwait,
    hst.trans htracker, (rd_submit _ _ _).trans hseq, hsubmitted, honly, fun a ha => (rd_submit _ _ _).trans (hkept a ha),
    by rw [submit_frame, hbase]⟩

/-- Settles O33, by the kind of the write and its action. -/
theorem unusedWriteAndRewrite : Obligations.UnusedWriteAndRewrite := by
  unfold Obligations.UnusedWriteAndRewrite
  refine ⟨fun i w l d m s hm hr hl hs hmerge hold hzero => ?_, fun i w l d m c s hm hr hl hs hmerge hc hold hnew => ⟨?_, ?_⟩⟩
  · exact ⟨_, exec_unusedWrite i w hr hl hs hmerge hold hzero, rd_hostStore_both hm _ _, hostStore_wordsKept _ _ _ _, rfl⟩
  · intro hconf ht hp
    have hexec := exec_rewrite i w hr hl hs hmerge hc hold hnew hconf ht hp
    have hword := rd_hostStore_both hm (dropWordAddress i w) m
    have hkept := hostStore_wordsKept s (dropWordAddress i w) bothLanes m
    have hframe := hostStore_frame s (dropWordAddress i w) bothLanes m
    generalize hostStore s (dropWordAddress i w) bothLanes m = v at *
    obtain ⟨hwait, hsubmitted, honly⟩ := submission_of_sched (s := s)
      (b := withOutstanding i.val .rewrite id v) (by rw [hframe]; rfl) i.val
    refine ⟨_, hexec, (rd_submit _ _ _).trans hword, hwait, hsubmitted, honly,
      fun a ha => (rd_submit _ _ _).trans (hkept a ha), ?_, ?_⟩
    · rw [submit_frame, hframe]
      rfl
    · rw [submit_frame, hframe]
      rfl
  · intro hconf hfree
    obtain ⟨u, hexec, hword, hstatus, horder, hwait, htracker, hseq, hsubmitted, honly, hkept, hframe⟩ :=
      exec_claim i w hm hr hl hs hmerge hc hold hnew hconf hfree
    exact ⟨u, hexec, hword, hstatus, by rw [horder], by rw [horder], hwait, by rw [horder], htracker, hseq, hsubmitted, honly,
      hkept, hframe⟩

end Sys2Proof.Machine


/-! ## ACTIVATION, and the squash of a drop address in use (R55, R58, R59) -/

namespace Sys2Proof.Machine

variable {s t u v b : State} {l : Lanes} {c : DropChange} {i : Nat} {w : DropWord} {m : Word}

/-! The record cleared (R59 step 1). -/

/-- R59: words 8 to 24 of a record, each 0. -/
def clearedWords (i : Nat) : List (Nat × Word) := (List.range 17).map fun k => (subscriberWord i (8 + k), 0)

theorem clearedWords_fst (i : Nat) :
    (clearedWords i).map Prod.fst = (List.range 17).map fun k => subscriberWord i (8 + k) := by
  rw [clearedWords, List.map_map]
  rfl

theorem clearRecord_mem (i : Nat) (v : State) : (clearRecord i v).mem = (wrAll v (clearedWords i)).mem := by
  have hlist : clearedWords i = ((List.range 14).map fun k => (subscriberWord i (8 + k), (0 : Word))) ++
      ([(subscriberWord i 22, 0), (subscriberWord i 23, 0)] ++ [(subscriberWord i 24, 0)]) := rfl
  rw [hlist, wrAll_append, wrAll_append]
  exact wrAll_mem_congr [(subscriberWord i 24, 0)] (wrHeld_mem [(subscriberWord i 22, 0), (subscriberWord i 23, 0)]
    (wrAll v ((List.range 14).map fun k => (subscriberWord i (8 + k), 0))))

theorem clearRecord_frame (i : Nat) (v : State) : clearRecord i v = { v with
    mem := (clearRecord i v).mem, port := (clearRecord i v).port } := by
  have h := wrAll_frame ((List.range 14).map fun k => (subscriberWord i (8 + k), (0 : Word))) v
  unfold clearRecord
  dsimp only
  generalize wrAll v _ = x at *
  rw [h]
  rfl

theorem clearRecord_kept (i : Nat) (v : State) :
    WordsKept ((List.range 17).map fun k => subscriberWord i (8 + k)) v (clearRecord i v) := fun a ha => by
  rw [rd, clearRecord_mem]
  exact wrAll_wordsKept (clearedWords i) v a (by rw [clearedWords_fst]; exact ha)

theorem subRd_clearRecord (hm : MemWf v.mem) {x : Nat} (hx : 8 ≤ x) (hx' : x ≤ 24) : subRd (clearRecord i v) i x = 0 := by
  rw [subRd, rd, clearRecord_mem]
  refine rd_wrAll_mem hm ?_ (List.mem_map.2 ⟨x - 8, List.mem_range.2 (by omega), by rw [show 8 + (x - 8) = x by omega]⟩)
  rw [clearedWords_fst]
  refine List.Nodup.map (fun j k h => ?_) List.nodup_range
  unfold subscriberWord at h
  omega

theorem clearRecord_wf (i : Nat) (hm : MemWf v.mem) : MemWf (clearRecord i v).mem := by
  rw [clearRecord_mem]
  exact wrAll_wf _ _ hm

/-! The activation (R59). -/

/-- R59: the record has come into use. -/
def activated (c : DropChange) (v : State) : State :=
  withOutstanding c.sub .activation (fun x => raiseDirect (subFeed x c.sub)
    (cancelRetire c.newTap c.newPort c.sub (enterDirectory c.newTap c.newPort c.sub (clearRecord c.sub x)))) v

theorem activationAction_eq (c : DropChange) (v : State) : activationAction c v = submit c.sub (activated c v) := rfl

/-- R59: the record cleared, its address entered and a retire of it cancelled. -/
def entered (c : DropChange) (v : State) : State :=
  cancelRetire c.newTap c.newPort c.sub (enterDirectory c.newTap c.newPort c.sub (clearRecord c.sub v))

theorem entered_frame (c : DropChange) (v : State) : entered c v = { v with
    mem := (entered c v).mem, port := (entered c v).port
    order := { v.order with
      directory := tableSet v.order.directory (dropKey c.newTap c.newPort) c.sub
      retires := retiresBut c.newTap c.newPort v.order.retires }
    tracker := { v.tracker with
      table := entriesLeft false (retireWaits v c.newTap c.newPort) c.sub c.newTap c.newPort v.tracker.table } } := by
  have hclear := clearRecord_frame c.sub v
  rw [entered]
  generalize clearRecord c.sub v = x at *
  rw [cancelRetire_frame, hclear]
  rfl

theorem entered_kept (c : DropChange) (v : State) :
    WordsKept ((List.range 17).map fun k => subscriberWord c.sub (8 + k)) v (entered c v) := fun a ha => by
  have hclear := clearRecord_kept c.sub v a ha
  have hne : a ≠ subscriberWord c.sub 9 := fun h => ha (List.mem_map.2 ⟨1, by decide, h.symm⟩)
  rw [entered]
  generalize clearRecord c.sub v = x at *
  exact (cancelRetire_kept _ _ _ (enterDirectory c.newTap c.newPort c.sub x) a fun h => hne (List.mem_singleton.1 h)).trans hclear

theorem entered_wf (hm : MemWf v.mem) (c : DropChange) : MemWf (entered c v).mem := by
  have hclear := clearRecord_wf c.sub hm
  rw [entered]
  generalize clearRecord c.sub v = x at *
  exact cancelRetire_wf _ _ _ (v := enterDirectory c.newTap c.newPort c.sub x) hclear

theorem subRd_entered (hm : MemWf v.mem) (c : DropChange) {x : Nat} (hx : 8 ≤ x) (hx' : x ≤ 24) (h9 : x ≠ 9) :
    subRd (entered c v) c.sub x = 0 := by
  have hclear := subRd_clearRecord (i := c.sub) hm hx hx'
  rw [entered]
  generalize clearRecord c.sub v = y at *
  exact (cancelRetire_kept c.newTap c.newPort c.sub (enterDirectory c.newTap c.newPort c.sub y) _ fun h =>
    h9 ((subscriberWord_inj (by omega) (by decide)).1 (List.mem_singleton.1 h)).2).trans hclear

theorem subRd_entered_sequence (hm : MemWf v.mem) (c : DropChange) : subRd (entered c v) c.sub 9 =
    ((retireEntryAt v c.newTap c.newPort).bind fun r => r.lastSequence).elim 0 wordOf := by
  have hclear := subRd_clearRecord (i := c.sub) hm (x := 9) (by decide) (by decide)
  have hwf := clearRecord_wf c.sub hm
  have hframe := clearRecord_frame c.sub v
  rw [entered]
  generalize clearRecord c.sub v = y at *
  refine (subRd_cancelRetire (v := enterDirectory c.newTap c.newPort c.sub y) hwf c.newTap c.newPort c.sub).trans ?_
  have hentry : retireEntryAt (enterDirectory c.newTap c.newPort c.sub y) c.newTap c.newPort =
      retireEntryAt v c.newTap c.newPort := by
    rw [hframe]
    rfl
  have hword : subRd (enterDirectory c.newTap c.newPort c.sub y) c.sub 9 = 0 := hclear
  rw [lastSequenceAfter, hentry, hword]

theorem activated_eq (c : DropChange) (v : State) : activated c v =
    { raiseDirect (subFeed v c.sub) (entered c { v with order := { v.order with outstanding := some (c.sub, .activation) } }) with
      order := { (raiseDirect (subFeed v c.sub)
        (entered c { v with order := { v.order with outstanding := some (c.sub, .activation) } })).order with
          outstanding := none } } := rfl

theorem activated_frame (c : DropChange) (v : State) : activated c v = { v with
    mem := (activated c v).mem, port := (activated c v).port
    order := { v.order with
      directory := tableSet v.order.directory (dropKey c.newTap c.newPort) c.sub
      direct := setCount v.order.direct (subFeed v c.sub) (countOf v.order.direct (subFeed v c.sub) + 1)
      retires := retiresBut c.newTap c.newPort v.order.retires, outstanding := none }
    tracker := { v.tracker with
      table := entriesLeft false (retireWaits v c.newTap c.newPort) c.sub c.newTap c.newPort v.tracker.table } } := by
  have h := entered_frame c { v with order := { v.order with outstanding := some (c.sub, .activation) } }
  rw [activated_eq]
  generalize entered c { v with order := { v.order with outstanding := some (c.sub, .activation) } } = x at *
  rw [raiseDirect, setDirect_frame, h]
  rfl

theorem activated_kept (c : DropChange) (v : State) : WordsKept
    (((List.range 17).map fun k => subscriberWord c.sub (8 + k)) ++ [elementWord (subFeed v c.sub) 13]) v (activated c v) := fun a ha =>
  (setDirect_wordsKept _ _ (entered c { v with order := { v.order with outstanding := some (c.sub, .activation) } }) a
    fun h => ha (List.mem_append_right _ h)).trans
    (entered_kept c { v with order := { v.order with outstanding := some (c.sub, .activation) } } a
      fun h => ha (List.mem_append_left _ h))

end Sys2Proof.Machine


/-! ## ACTIVATION and DUPLICATE_DROP: the obligation (R55, R59, R62) -/

namespace Sys2Proof.Machine

variable {s t u v b : State} {l : Lanes} {c : DropChange} {w : DropWord} {m : Word}

/-! What an activation leaves in memory. -/

theorem activated_subRd (hm : MemWf v.mem) (c : DropChange) {x : Nat} (hx : 8 ≤ x) (hx' : x ≤ 24) (h9 : x ≠ 9) :
    subRd (activated c v) c.sub x = 0 := by
  have hentered := subRd_entered (v := { v with order := { v.order with outstanding := some (c.sub, .activation) } }) hm c hx hx' h9
  rw [activated_eq]
  generalize entered c { v with order := { v.order with outstanding := some (c.sub, .activation) } } = y at *
  refine (setDirect_wordsKept (subFeed v c.sub) (countOf y.order.direct (subFeed v c.sub) + 1) y _ fun h => ?_).trans hentered
  exact elementWord_not_subscriber (field_lt _) (List.mem_singleton.1 h).symm

theorem activated_sequence (hm : MemWf v.mem) (c : DropChange) : subRd (activated c v) c.sub 9 =
    ((retireEntryAt v c.newTap c.newPort).bind fun r => r.lastSequence).elim 0 wordOf := by
  have hentered := subRd_entered_sequence (v := { v with order := { v.order with outstanding := some (c.sub, .activation) } }) hm c
  rw [activated_eq]
  generalize entered c { v with order := { v.order with outstanding := some (c.sub, .activation) } } = y at *
  refine (setDirect_wordsKept (subFeed v c.sub) (countOf y.order.direct (subFeed v c.sub) + 1) y _ fun h => ?_).trans hentered
  exact elementWord_not_subscriber (field_lt _) (List.mem_singleton.1 h).symm

theorem activated_direct (hm : MemWf v.mem) (c : DropChange) : rd (activated c v) (elementWord (subFeed v c.sub) 13) =
    wordOf (countOf v.order.direct (subFeed v c.sub) + 1) := by
  have hwf := entered_wf (v := { v with order := { v.order with outstanding := some (c.sub, .activation) } }) hm c
  have hframe := entered_frame c { v with order := { v.order with outstanding := some (c.sub, .activation) } }
  rw [activated_eq]
  generalize entered c { v with order := { v.order with outstanding := some (c.sub, .activation) } } = y at *
  have hcount : countOf y.order.direct (subFeed v c.sub) = countOf v.order.direct (subFeed v c.sub) := by rw [hframe]
  exact (rd_setDirect hwf _ _).trans (by rw [hcount])

/-- The words of a record from 8 to 24, as the statement lists them. -/
theorem clearedWords_list (i : Nat) : ((List.range 17).map fun k => subscriberWord i (8 + k)) =
    [8, 9, 10, 11, 12, 13, 14, 15, 16, 17, 18, 19, 20, 21, 22, 23, 24].map (subscriberWord i) := rfl

/-! The squash of an address in use (R55). -/

theorem dropVerdict_duplicate (h : c.kind = .activation ∨ c.kind = .claim ∨ c.kind = .move) (hd : isDuplicate c s = true) :
    dropVerdict c s = some .duplicateDrop := by
  unfold dropVerdict
  rcases h with h | h | h
  · simp only [h, if_pos hd]
  · simp only [h, if_pos hd]
  · simp only [h, if_pos hd]

/-- R59: an activation that passes. -/
theorem exec_activation (i : Fin 4096) {d : Word} (hr : running s = true) (hl : noLanes l = false)
    (hs : s.part.state ≠ .starting) (hmerge : m = mergeLanes l (rd s (subscriberWord i.val 0)) d)
    (hold : subTap s i.val = 0) (hnew : m ≠ 0)
    (hfree : holderOf s m.toNat (subPort s i.val) = none ∨ holderOf s m.toNat (subPort s i.val) = some i.val) :
    exec (.activation i l d) s = .next (concluded s (submit i.val
      (activated (dropChange i.val .tap m s) (hostStore s (subscriberWord i.val 0) bothLanes m)))) := by
  have htap : (dropChange i.val .tap m s).newTap ≠ 0 := fun h => hnew (BitVec.eq_of_toNat_eq h)
  have hkind := kind_activation (c := dropChange i.val .tap m s) hold htap
  have hexec := exec_drop_passes i hr hl hs hmerge (w := .tap)
    (by rw [dropVerdict, hkind]; exact if_neg (by rw [isDuplicate_eq_false hfree]; exact Bool.false_ne_true))
    (x := .activation i l d) rfl
  rw [dropAction, hkind] at hexec
  exact hexec

/-- Settles O34: the words of an activation, and the one test that squashes ACTIVATION, MOVE and claim. -/
theorem activationOrSquash : Obligations.ActivationOrSquash := by
  unfold Obligations.ActivationOrSquash
  refine ⟨fun i l d m s hm hr hl hs hmerge hold hnew hfree => ?_, fun i l d m j s hr hl hs hmerge hold hnew hheld hj => ?_,
    fun i w l d m c j x s hr hl hs hmerge hc hold hnew hx hheld hj => ?_⟩
  · have hexec := exec_activation i hr hl hs hmerge hold hnew hfree
    have hwf := hostStore_wf s (subscriberWord i.val 0) bothLanes m hm
    have hword := rd_hostStore_both hm (subscriberWord i.val 0) m
    have hstored := hostStore_wordsKept s (subscriberWord i.val 0) bothLanes m
    have hfeed : subFeed (hostStore s (subscriberWord i.val 0) bothLanes m) i.val = subFeed s i.val := by
      rw [subFeed, subRd_hostStore_other (by decide) (by decide) (by decide), subFeed]
    have hframe := hostStore_frame s (subscriberWord i.val 0) bothLanes m
    generalize hostStore s (subscriberWord i.val 0) bothLanes m = v at *
    have hbframe := activated_frame (dropChange i.val .tap m s) v
    have hzero {x : Nat} := activated_subRd hwf (dropChange i.val .tap m s) (x := x)
    have hseq := activated_sequence hwf (dropChange i.val .tap m s)
    have hdirect := activated_direct hwf (dropChange i.val .tap m s)
    have hkept := activated_kept (dropChange i.val .tap m s) v
    generalize hb : activated (dropChange i.val .tap m s) v = b at *
    have hsub : (dropChange i.val .tap m s).sub = i.val := rfl
    rw [hsub] at hbframe hseq hdirect hkept
    simp only [hsub] at hzero
    rw [hfeed] at hbframe hdirect hkept
    have horder : v.order = s.order := by rw [hframe]
    have hentry : retireEntryAt v (dropChange i.val .tap m s).newTap (dropChange i.val .tap m s).newPort =
      retireEntryAt s m.toNat (subPort s i.val) := by rw [hframe]; rfl
    rw [horder] at hdirect hbframe
    obtain ⟨hwait, hsubmitted, honly⟩ := submission_of_sched (s := s) (b := b) (by rw [hbframe, hframe]) i.val
    refine ⟨_, hexec, (rd_submit _ _ _).trans ?_, fun x hx hx' h9 => (rd_submit _ _ _).trans (hzero hx hx' h9),
      (rd_submit _ _ _).trans ?_, ?_, (rd_submit _ _ _).trans hdirect, ?_, hwait, hsubmitted, honly,
      fun a ha => (rd_submit _ _ _).trans ?_, ?_⟩
    · refine (hkept _ fun h => ?_).trans hword
      rcases List.mem_append.1 h with h | h
      · obtain ⟨k, hk, heq⟩ := List.mem_map.1 h
        have := ((subscriberWord_inj (by have := List.mem_range.1 hk; omega) (by decide)).1 heq).2
        omega
      · exact elementWord_not_subscriber (field_lt _) (List.mem_singleton.1 h).symm
    · refine hseq.trans ?_
      rw [hentry]
      cases retireEntryAt s m.toNat (subPort s i.val) with
      | none => rfl
      | some r =>
        show r.lastSequence.elim 0 wordOf = wordOf (r.lastSequence.getD 0)
        cases r.lastSequence with
        | none => rfl
        | some q => rfl
    · rw [submit_frame, hbframe]
      rfl
    · rw [submit_frame, hbframe, hframe]
      rfl
    · refine (hkept a fun h => ha ?_).trans (hstored a fun h => ha ?_)
      · rw [clearedWords_list] at h
        rcases List.mem_append.1 h with h | h
        · exact List.mem_append_left _ (List.mem_cons_of_mem _ h)
        · exact List.mem_append_right _ h
      · rw [List.mem_singleton.1 h]
        exact List.mem_append_left _ List.mem_cons_self
    · rw [submit_frame, hbframe, hframe]
  · have htap : (dropChange i.val .tap m s).newTap ≠ 0 := fun h => hnew (BitVec.eq_of_toNat_eq h)
    exact exec_drop_squashed i hr hl hs hmerge (w := .tap)
      (dropVerdict_duplicate (.inl (kind_activation hold htap)) (isDuplicate_eq_true hheld hj)) rfl
  · have hsub : c.sub = i.val := by rw [hc]; rfl
    have hdup := isDuplicate_eq_true hheld (by rw [hsub]; exact hj)
    rcases hx with ⟨rfl, hconf, hmove⟩ | ⟨rfl, hconf⟩
    · exact exec_drop_squashed i hr hl hs hmerge
        (by rw [← hc]; exact dropVerdict_duplicate (.inr (.inr (kind_move hold hnew hconf hmove))) hdup) rfl
    · exact exec_drop_squashed i hr hl hs hmerge
        (by rw [← hc]; exact dropVerdict_duplicate (.inr (.inl (kind_claim hold hnew hconf))) hdup) rfl

end Sys2Proof.Machine


/-! ## MOVE and RETIRE (R57, R58, R60, R61) -/

namespace Sys2Proof.Machine

variable {s t u v b : State} {l : Lanes} {c : DropChange} {w : DropWord} {m : Word}

/-! The retire list (R57). -/

theorem overfillsRetires_iff (c : DropChange) (s : State) : overfillsRetires c s = true ↔
    isRetiring c = true ∧ 16 < s.order.retires.length + 1 -
      (if c.newTap ≠ 0 ∧ (retireEntryAt s c.newTap c.newPort).isSome then 1 else 0) := by
  unfold overfillsRetires
  rw [Bool.and_eq_true, decide_eq_true_eq]
  rfl

theorem retireWaits_iff (s : State) (tap port : Nat) :
    retireWaits s tap port = true ↔ ∃ r ∈ s.order.retires, r.tap = tap ∧ r.port = port := by
  simp [retireWaits]

theorem retireEntryAt_isSome (s : State) (tap port : Nat) :
    (retireEntryAt s tap port).isSome = true ↔ ∃ r ∈ s.order.retires, r.tap = tap ∧ r.port = port := by
  rw [retireEntryAt, List.find?_isSome]
  simp

/-- R57: the list takes the old drop: it has room, the drop is not retiring, or the new address leaves it. -/
theorem overfills_eq_false (hnew : c.newTap ≠ 0) (h : s.order.retires.length < 16 ∨ isRetiring c = false ∨
    (s.order.retires.length = 16 ∧ ∃ r ∈ s.order.retires, r.tap = c.newTap ∧ r.port = c.newPort)) :
    overfillsRetires c s = false := by
  rw [← Bool.not_eq_true, overfillsRetires_iff]
  rintro ⟨hretiring, hlen⟩
  rcases h with h | h | ⟨h, hwaits⟩
  · split at hlen <;> omega
  · rw [h] at hretiring
    exact Bool.false_ne_true hretiring
  · rw [if_pos ⟨hnew, (retireEntryAt_isSome s _ _).2 hwaits⟩] at hlen
    omega

theorem overfills_eq_true (hretiring : isRetiring c = true) (hfull : 16 ≤ s.order.retires.length)
    (h : c.newTap = 0 ∨ ∀ r ∈ s.order.retires, ¬(r.tap = c.newTap ∧ r.port = c.newPort)) : overfillsRetires c s = true := by
  rw [overfillsRetires_iff]
  refine ⟨hretiring, ?_⟩
  rw [if_neg ?_]
  · omega
  · rintro ⟨hnew, hsome⟩
    obtain ⟨r, hr, hat⟩ := (retireEntryAt_isSome s _ _).1 hsome
    exact h.elim hnew fun hno => hno r hr hat

/-- R57: the list with the old drop joined holds what it held at another address. -/
theorem retireEntryAt_joined {x : State} (hx : x.order.retires = retiresJoined v c)
    (h : c.oldTap ≠ c.newTap ∨ c.oldPort ≠ c.newPort) :
    retireEntryAt x c.newTap c.newPort = retireEntryAt v c.newTap c.newPort := by
  unfold retireEntryAt
  rw [hx, retiresJoined, List.find?_append]
  have hnone : List.find? (fun r : RetireEntry => decide (r.tap = c.newTap) && decide (r.port = c.newPort))
      (if isRetiring c = true then [{ tap := c.oldTap, port := c.oldPort, subscriber := c.sub
                                      avoided := (subRd v c.sub 9).toNat, sent := false, lastSequence := none }] else []) = none := by
    split
    · rw [List.find?_singleton, if_neg]
      rw [Bool.and_eq_true, decide_eq_true_eq, decide_eq_true_eq]
      exact fun hsame => h.elim (fun ht => ht hsame.1) fun hp => hp hsame.2
    · rfl
  rw [hnone, Option.or_none]

theorem retireWaits_of_entry (h : retireEntryAt t m₁ m₂ = retireEntryAt s m₁ m₂) : retireWaits t m₁ m₂ = retireWaits s m₁ m₂ := by
  rw [Bool.eq_iff_iff, ← Bool.not_eq_false, ← Bool.not_eq_false, ← retireEntryAt_eq_none, ← retireEntryAt_eq_none, h]

theorem mem_retiresJoined (h : isRetiring c = true) :
    ({ tap := c.oldTap, port := c.oldPort, subscriber := c.sub, avoided := (subRd s c.sub 9).toNat, sent := false
       lastSequence := none } : RetireEntry) ∈ retiresJoined s c := by
  rw [retiresJoined, if_pos h]
  exact List.mem_append_right _ List.mem_cons_self

theorem retiresJoined_congr (h : v.order.retires = s.order.retires) (hw : subRd v c.sub 9 = subRd s c.sub 9) :
    retiresJoined v c = retiresJoined s c := by
  rw [retiresJoined, retiresJoined, h, hw]

/-! The move (R60). -/

/-- R60: the old address has left the directory, the new one has entered it, and the old drop has retired. -/
def relocated (c : DropChange) (v : State) : State :=
  retired c (enterDirectory c.newTap c.newPort c.sub (leaveDirectory c.oldTap c.oldPort (dropIfAwaiting c v)))

theorem relocated_eq (c : DropChange) (v : State) : relocated c v = { v with
    order := { v.order with
      directory := tableSet (tableErase v.order.directory (dropKey c.oldTap c.oldPort)) (dropKey c.newTap c.newPort) c.sub
      retires := retiresJoined v c }
    tracker := { v.tracker with
      table := entriesLeft (decide (c.status.link = .awaiting)) false c.sub 0 0 v.tracker.table } } := by
  rw [relocated, retired_eq, dropIfAwaiting_eq]
  rfl

/-- R60: the record has moved. -/
def moved (c : DropChange) (v : State) : State := withOutstanding c.sub .move (fun x => dropTaken c (relocated c x)) v

theorem moveAction_eq (c : DropChange) (v : State) : moveAction c v = submit c.sub (moved c v) := rfl

theorem moved_eq (c : DropChange) (v : State) : moved c v =
    { dropTaken c (relocated c { v with order := { v.order with outstanding := some (c.sub, .move) } }) with
      order := { (dropTaken c (relocated c { v with order := { v.order with outstanding := some (c.sub, .move) } })).order with
        outstanding := none } } := rfl

theorem relocated_entry (h : c.oldTap ≠ c.newTap ∨ c.oldPort ≠ c.newPort) (v : State) :
    retireEntryAt (relocated c v) c.newTap c.newPort = retireEntryAt v c.newTap c.newPort :=
  retireEntryAt_joined (by rw [relocated_eq]) h

theorem moved_frame (h : c.oldTap ≠ c.newTap ∨ c.oldPort ≠ c.newPort) (v : State) : moved c v = { v with
    mem := (moved c v).mem, port := (moved c v).port
    order := { v.order with
      directory := tableSet (tableErase v.order.directory (dropKey c.oldTap c.oldPort)) (dropKey c.newTap c.newPort) c.sub
      retires := retiresBut c.newTap c.newPort (retiresJoined v c), outstanding := none
      unreached := v.order.unreached - countsUnreached c.status, held := v.order.held - countsHeld c.status }
    tracker := { v.tracker with
      table := entriesLeft (decide (c.status.link = .awaiting)) (retireWaits v c.newTap c.newPort) c.sub c.newTap c.newPort
        v.tracker.table } } := by
  have hwaits : retireWaits (relocated c { v with order := { v.order with outstanding := some (c.sub, .move) } })
      c.newTap c.newPort = retireWaits v c.newTap c.newPort := retireWaits_of_entry (relocated_entry h _)
  have hframe := relocated_eq c { v with order := { v.order with outstanding := some (c.sub, .move) } }
  rw [moved_eq]
  generalize relocated c { v with order := { v.order with outstanding := some (c.sub, .move) } } = x at *
  have htable : entriesLeft false (retireWaits v c.newTap c.newPort) c.sub c.newTap c.newPort x.tracker.table =
      entriesLeft (decide (c.status.link = .awaiting)) (retireWaits v c.newTap c.newPort) c.sub c.newTap c.newPort
        v.tracker.table := by
    rw [hframe]
    exact entriesLeft_both _ _ _ _ _ _
  rw [dropTaken_frame, hwaits, htable, hframe]
  rfl

theorem moved_kept (c : DropChange) (v : State) :
    WordsKept [subscriberWord c.sub 8, subscriberWord c.sub 9] v (moved c v) := fun a ha => by
  have hkept := dropTaken_kept c (relocated c { v with order := { v.order with outstanding := some (c.sub, .move) } }) a ha
  rw [moved_eq]
  refine hkept.trans ?_
  rw [relocated_eq]
  rfl

theorem subRd_moved (hm : MemWf v.mem) (h : c.oldTap ≠ c.newTap ∨ c.oldPort ≠ c.newPort) :
    subRd (moved c v) c.sub 8 = 0 ∧ subRd (moved c v) c.sub 9 = lastSequenceAfter v c.sub c.newTap c.newPort := by
  have hframe := relocated_eq c { v with order := { v.order with outstanding := some (c.sub, .move) } }
  have hentry := relocated_entry (c := c) h { v with order := { v.order with outstanding := some (c.sub, .move) } }
  rw [moved_eq]
  generalize relocated c { v with order := { v.order with outstanding := some (c.sub, .move) } } = x at *
  have hwf : MemWf x.mem := by rw [hframe]; exact hm
  exact ⟨subRd_dropTaken_status hwf c, (subRd_dropTaken_sequence hwf c).trans
    (lastSequenceAfter_congr hentry (by rw [hframe]; rfl))⟩

/-! The retire (R61). -/

/-- R61: the address has left the directory, if the record held it, and the drop has retired. -/
def leftDirectory (c : DropChange) (v : State) : State :=
  retired c (if c.status.conflict then dropIfAwaiting c v else leaveDirectory c.oldTap c.oldPort (dropIfAwaiting c v))

theorem leftDirectory_eq (c : DropChange) (v : State) : leftDirectory c v = { v with
    order := { v.order with
      directory := if c.status.conflict then v.order.directory else tableErase v.order.directory (dropKey c.oldTap c.oldPort)
      retires := retiresJoined v c }
    tracker := { v.tracker with
      table := entriesLeft (decide (c.status.link = .awaiting)) false c.sub 0 0 v.tracker.table } } := by
  rw [leftDirectory, retired_eq, dropIfAwaiting_eq]
  split <;> rfl

theorem retireAction_eq (c : DropChange) (v : State) : retireAction c v =
    { writeStatus c.sub c.status freshStatus (lowerDirect (subFeed v c.sub)
        (leftDirectory c { v with order := { v.order with outstanding := some (c.sub, .retire) } })) with
      order := { (writeStatus c.sub c.status freshStatus (lowerDirect (subFeed v c.sub)
        (leftDirectory c { v with order := { v.order with outstanding := some (c.sub, .retire) } }))).order with
          outstanding := none } } := rfl

theorem retireAction_frame (c : DropChange) (v : State) : retireAction c v = { v with
    mem := (retireAction c v).mem, port := (retireAction c v).port
    order := { v.order with
      directory := if c.status.conflict then v.order.directory else tableErase v.order.directory (dropKey c.oldTap c.oldPort)
      direct := setCount v.order.direct (subFeed v c.sub) (countOf v.order.direct (subFeed v c.sub) - 1)
      retires := retiresJoined v c, outstanding := none
      unreached := v.order.unreached - countsUnreached c.status, held := v.order.held - countsHeld c.status }
    tracker := { v.tracker with
      table := entriesLeft (decide (c.status.link = .awaiting)) false c.sub 0 0 v.tracker.table } } := by
  rw [retireAction_eq, writeStatus_fresh, lowerDirect, setDirect_frame, leftDirectory_eq]
  rfl

theorem retireAction_kept (c : DropChange) (v : State) :
    WordsKept [subscriberWord c.sub 8, elementWord (subFeed v c.sub) 13] v (retireAction c v) := fun a ha => by
  have hframe := leftDirectory_eq c { v with order := { v.order with outstanding := some (c.sub, .retire) } }
  rw [retireAction_eq]
  generalize leftDirectory c { v with order := { v.order with outstanding := some (c.sub, .retire) } } = x at *
  have hx : rd x a = rd v a := by rw [hframe]; rfl
  refine (writeStatus_wordsKept c.sub c.status freshStatus _ a fun h => ha ?_).trans ((setDirect_wordsKept _ _ x a fun h => ha ?_).trans hx)
  · rw [List.mem_singleton.1 h]
    exact List.mem_cons_self
  · exact List.mem_cons_of_mem _ h

theorem subRd_retireAction (hm : MemWf v.mem) (c : DropChange) : subRd (retireAction c v) c.sub 8 = 0 ∧
    rd (retireAction c v) (elementWord (subFeed v c.sub) 13) =
      wordOf (countOf v.order.direct (subFeed v c.sub) - 1) := by
  have hframe := leftDirectory_eq c { v with order := { v.order with outstanding := some (c.sub, .retire) } }
  rw [retireAction_eq]
  generalize leftDirectory c { v with order := { v.order with outstanding := some (c.sub, .retire) } } = x at *
  have hwf : MemWf x.mem := by rw [hframe]; exact hm
  have hcount : countOf x.order.direct (subFeed v c.sub) = countOf v.order.direct (subFeed v c.sub) := by rw [hframe]
  refine ⟨subRd_writeStatus_fresh (setDirect_wf hwf _ _) c.sub c.status, (writeStatus_wordsKept c.sub c.status freshStatus _ _ fun h => ?_).trans
    ((rd_setDirect hwf _ _).trans (by rw [hcount]))⟩
  exact elementWord_not_subscriber (field_lt _) (List.mem_singleton.1 h)

end Sys2Proof.Machine


/-! ## MOVE and RETIRE: the obligations (R60, R61) -/

namespace Sys2Proof.Machine

variable {s t u v b : State} {l : Lanes} {c : DropChange} {w : DropWord} {m : Word}

theorem dropVerdict_move (hkind : c.kind = .move) (hdup : isDuplicate c s = false) :
    dropVerdict c s = if overfillsRetires c s then some .retireListFull else none := by
  unfold dropVerdict
  simp only [hkind, hdup]
  rfl

theorem dropVerdict_retire (hkind : c.kind = .retire) : dropVerdict c s =
    if hasLiveEntry s c.sub then some .livePurchases else if overfillsRetires c s then some .retireListFull else none := by
  unfold dropVerdict
  simp only [hkind]

theorem countsUnreached_served {r : RecordStatus} (h : r.conflict = false) :
    countsUnreached r = (if r.link = .unreached then 1 else 0) ∧ countsHeld r = (if r.link = .held then 1 else 0) := by
  simp [countsUnreached, countsHeld, h]

/-- R57, R104: the entry with which a retiring drop has joined the list. -/
theorem retiresJoined_has {i : Nat} (h : isRetiring c = true) (hsub : c.sub = i) :
    ∃ r ∈ retiresJoined s c, r.tap = c.oldTap ∧ r.port = c.oldPort ∧ r.subscriber = i ∧ r.sent = false ∧
      r.avoided = (subRd s i 9).toNat := ⟨_, mem_retiresJoined h, rfl, rfl, hsub, rfl, by rw [hsub]⟩

/-- R60: a move that passes. -/
theorem exec_move (i : Fin 4096) {d : Word} (hr : running s = true) (hl : noLanes l = false)
    (hs : s.part.state ≠ .starting) (hmerge : m = mergeLanes l (rd s (dropWordAddress i w)) d)
    (hc : c = dropChange i.val w m s) (hkind : c.kind = .move) (hdup : isDuplicate c s = false)
    (hroom : overfillsRetires c s = false) :
    exec (.move i w l d) s = .next (concluded s (submit i.val
      (moved c (hostStore s (dropWordAddress i w) bothLanes m)))) := by
  have hsub : c.sub = i.val := by rw [hc]; rfl
  have hexec := exec_drop_passes i hr hl hs hmerge
    (by rw [← hc, dropVerdict_move hkind hdup]; exact if_neg (by rw [hroom]; exact Bool.false_ne_true)) (x := .move i w l d) rfl
  rw [← hc, dropAction, hkind] at hexec
  rw [← hsub]
  exact hexec

/-- Settles O35, by the address that the directory and the retire list exchange. -/
theorem moveChangesTheDrop : Obligations.MoveChangesTheDrop := by
  unfold Obligations.MoveChangesTheDrop
  intro i w l d m c s hm hr hl hs hmerge hc hold hnew hconf hmove hfree
  have hsub : c.sub = i.val := by rw [hc]; rfl
  have hkind := kind_move hold hnew hconf hmove
  have hdup := isDuplicate_eq_false (c := c) (s := s) (by rw [hsub]; exact hfree)
  refine ⟨fun hroom => ?_, fun hretiring hfull hno => ?_⟩
  · have hexec := exec_move i hr hl hs hmerge hc hkind hdup (overfills_eq_false hnew hroom)
    have hwf := hostStore_wf s (dropWordAddress i w) bothLanes m hm
    have hother := dropWord_other i (x := 9) (by decide) (by decide) w m s
    have hfollows := dropWord_follows (b := moved c (hostStore s (dropWordAddress i w) bothLanes m)) i hm w m
      (by rw [← hsub]; exact moved_kept c _)
    have hframe := hostStore_frame s (dropWordAddress i w) bothLanes m
    generalize hostStore s (dropWordAddress i w) bothLanes m = v at *
    have hbframe := moved_frame hmove v
    obtain ⟨hstatus, hseq⟩ := subRd_moved hwf hmove
    generalize moved c v = b at *
    have horder : v.order = s.order := by rw [hframe]
    have hjoined : retiresJoined v c = retiresJoined s c :=
      retiresJoined_congr (by rw [horder]) (by rw [hsub]; exact hother)
    have hwaits : retireWaits v c.newTap c.newPort = retireWaits s c.newTap c.newPort := by rw [hframe]; rfl
    have hlast : lastSequenceAfter v c.sub c.newTap c.newPort = lastSequenceAfter s c.sub c.newTap c.newPort :=
      lastSequenceAfter_congr (by rw [hframe]; rfl) (by rw [hsub]; exact hother)
    rw [horder, hjoined, hwaits, hsub] at hbframe
    rw [hlast] at hseq
    rw [hsub] at hstatus hseq
    obtain ⟨hu, hh⟩ := countsUnreached_served hconf
    rw [hu, hh] at hbframe
    obtain ⟨hwait, hsubmitted, honly⟩ := submission_of_sched (s := s) (b := b) (by rw [hbframe, hframe]) i.val
    have hso : (submit i.val b).order = { s.order with
        directory := tableSet (tableErase s.order.directory (8 * c.oldTap + c.oldPort)) (8 * c.newTap + c.newPort) i.val
        retires := retiresBut c.newTap c.newPort (retiresJoined s c), outstanding := none
        unreached := s.order.unreached - (if c.status.link = .unreached then 1 else 0)
        held := s.order.held - (if c.status.link = .held then 1 else 0) } := by
      rw [submit_frame, hbframe]
      rfl
    refine ⟨_, hexec, (rd_submit _ _ _).trans hfollows.1, (rd_submit _ _ _).trans hstatus, by rw [hso], fun hretiring => ?_,
      ?_, by rw [hso], by rw [hso], by rw [hso], by rw [hso], ?_, (rd_submit _ _ _).trans hseq, hwait, hsubmitted, honly,
      fun a ha => (rd_submit _ _ _).trans (hfollows.2 a ha), ?_⟩
    · obtain ⟨r, hr', ht, hp, hrest⟩ := retiresJoined_has (s := s) hretiring hsub
      refine ⟨r, ?_, ht, hp, hrest⟩
      rw [hso]
      refine List.mem_filter.2 ⟨hr', ?_⟩
      simp only [Bool.not_eq_true', Bool.and_eq_false_iff, decide_eq_false_iff_not, ht, hp]
      exact hmove
    · rw [hso]
      intro r hr' hat
      have := (List.mem_filter.1 hr').2
      simp [hat] at this
    · rw [submit_frame, hbframe, hframe]
    · rw [submit_frame, hbframe, hframe]
  · have hverdict : dropVerdict c s = some .retireListFull := by
      rw [dropVerdict_move hkind hdup, if_pos (overfills_eq_true hretiring hfull (.inr hno))]
    rw [hc] at hverdict
    exact exec_drop_squashed i hr hl hs hmerge hverdict rfl

/-- R61: a retire that passes. -/
theorem exec_retire (i : Fin 4096) {d : Word} (hr : running s = true) (hl : noLanes l = false)
    (hs : s.part.state ≠ .starting) (hmerge : 0 = mergeLanes l (rd s (subscriberWord i.val 0)) d)
    (hc : c = dropChange i.val .tap 0 s) (hkind : c.kind = .retire) (hlive : hasLiveEntry s c.sub = false)
    (hroom : overfillsRetires c s = false) :
    exec (.retire i l d) s = .next (concluded s (retireAction c (hostStore s (subscriberWord i.val 0) bothLanes 0))) := by
  have hexec := exec_drop_passes i hr hl hs hmerge (w := .tap)
    (by rw [← hc, dropVerdict_retire hkind, hlive, hroom]; rfl) (x := .retire i l d) rfl
  rw [← hc, dropAction, hkind] at hexec
  exact hexec

/-- Settles O36, by the two tests and the action of a retire. -/
theorem retireLeavesUse : Obligations.RetireLeavesUse := by
  unfold Obligations.RetireLeavesUse
  intro i l d c s hm hr hl hs hmerge hc hold
  have hsub : c.sub = i.val := by rw [hc]; rfl
  have hnew : c.newTap = 0 := by rw [hc]; rfl
  have hstatusOf : c.status = subStatus s i.val := by rw [hc]; rfl
  have hkind := kind_retire hold hnew
  refine ⟨fun hlive => ?_, fun hlive hretiring hfull => ?_, fun hlive hroom => ?_⟩
  · have hverdict : dropVerdict c s = some .livePurchases := by
      rw [dropVerdict_retire hkind, hsub, if_pos hlive]
    rw [hc] at hverdict
    exact exec_drop_squashed i hr hl hs hmerge.symm (w := .tap) hverdict rfl
  · have hverdict : dropVerdict c s = some .retireListFull := by
      rw [dropVerdict_retire hkind, hsub, hlive, overfills_eq_true hretiring hfull (.inl hnew)]
      rfl
    rw [hc] at hverdict
    exact exec_drop_squashed i hr hl hs hmerge.symm (w := .tap) hverdict rfl
  · have hfits : overfillsRetires c s = false := by
      rw [← Bool.not_eq_true, overfillsRetires_iff]
      rintro ⟨hretiring, hlen⟩
      rw [if_neg (by rintro ⟨h, -⟩; exact h hnew)] at hlen
      rcases hroom with h | h
      · omega
      · rw [h] at hretiring
        exact Bool.false_ne_true hretiring
    have hexec := exec_retire i hr hl hs hmerge.symm hc hkind (by rw [hsub]; exact hlive) hfits
    have hwf := hostStore_wf s (subscriberWord i.val 0) bothLanes 0 hm
    have hword := rd_hostStore_both hm (subscriberWord i.val 0) 0
    have hstored := hostStore_wordsKept s (subscriberWord i.val 0) bothLanes 0
    have hfeed : subFeed (hostStore s (subscriberWord i.val 0) bothLanes 0) i.val = subFeed s i.val := by
      rw [subFeed, subRd_hostStore_other (by decide) (by decide) (by decide), subFeed]
    have hother : subRd (hostStore s (subscriberWord i.val 0) bothLanes 0) i.val 9 = subRd s i.val 9 :=
      subRd_hostStore_other (by decide) (by decide) (by decide) 0
    have hframe := hostStore_frame s (subscriberWord i.val 0) bothLanes 0
    generalize hostStore s (subscriberWord i.val 0) bothLanes 0 = v at *
    have huframe := retireAction_frame c v
    have hkept := retireAction_kept c v
    obtain ⟨hstatus, hdirect⟩ := subRd_retireAction hwf c
    generalize retireAction c v = u at *
    have horder : v.order = s.order := by rw [hframe]
    have hjoined : retiresJoined v c = retiresJoined s c :=
      retiresJoined_congr (by rw [horder]) (by rw [hsub]; exact hother)
    rw [hsub, hfeed, horder, hjoined] at huframe
    rw [hsub, hfeed] at hkept
    rw [hsub] at hstatus
    rw [hsub, hfeed, horder] at hdirect
    have hfresh : subStatus u i.val = freshStatus := by rw [subStatus, hstatus]; decide
    have huo : u.order = { s.order with
        directory := if c.status.conflict then s.order.directory else tableErase s.order.directory (8 * c.oldTap + c.oldPort)
        direct := setCount s.order.direct (subFeed s i.val) (countOf s.order.direct (subFeed s i.val) - 1)
        retires := retiresJoined s c, outstanding := none
        unreached := s.order.unreached - countsUnreached c.status, held := s.order.held - countsHeld c.status } := by
      rw [huframe]
      rfl
    refine ⟨u, hexec, (hkept _ fun h => ?_).trans hword, hstatus, ?_, fun h => ?_, fun h => ?_, fun hretiring => ?_,
      fun h => ?_, hdirect, fun e he => ?_, ?_, ?_, ?_, fun a ha => (hkept a fun h => ha ?_).trans (hstored a fun h => ha ?_), ?_⟩
    · rcases List.mem_cons.1 h with h | h
      · exact absurd ((subscriberWord_inj (by decide) (by decide)).1 h).2 (by decide)
      · exact elementWord_not_subscriber (field_lt _) (List.mem_singleton.1 h).symm
    · rw [huo]
      exact countOf_setCount_same _ _ _
    · rw [huo, h]
      rfl
    · rw [huo, h]
      rfl
    · obtain ⟨r, hr', ht, hp, hs', hsent, -⟩ := retiresJoined_has (s := s) hretiring hsub
      exact ⟨r, by rw [huo]; exact hr', ht, hp, hs', hsent⟩
    · rw [huo, retiresJoined, h]
      exact List.append_nil _
    · rw [huo]
      exact countOf_setCount_other _ _ he
    · rw [huo]
    · rw [huframe, hframe]
    · rw [hfresh, ← hstatusOf]
      unfold CountsMoved
      rw [huo]
      exact ⟨rfl, rfl⟩
    · exact List.mem_cons_of_mem _ h
    · rw [List.mem_singleton.1 h]
      exact List.mem_cons_self
    · rw [huframe, hframe]

end Sys2Proof.Machine


/-! ## A visit of the subscriber census (R67, R68) -/

namespace Sys2Proof.Machine

variable {s t u v b x : State} {i : Nat}

/-! In STARTING an append latches nothing (R179). -/

theorem reportCondition_of_starting {f : Flag} (h : s.part.state = .starting) : reportCondition f s = s := if_pos h

theorem logAppend_flags_of_starting (h : s.part.state = .starting) (k : LogKind) (a d₁ d₂ d₃ : Nat) :
    (logAppend k a d₁ d₂ d₃ s).flags = s.flags := by
  have hframe := validateRings_frame s
  unfold logAppend
  generalize validateRings s = y at *
  dsimp only
  split
  · rw [hframe]
  split
  · rw [reportCondition_of_starting (by rw [hframe]; exact h), hframe]
    rfl
  · rw [advanceRing_frame, writeRecord_frame, hframe]

/-! The minutes under their law (R51, R68). -/

/-- R68: a metering word is written where it changes. -/
def minuteStored (i w new old : Nat) (v : State) : State :=
  if new = old then v else wr v (subscriberWord i w) (wordOf new)

theorem correctMinutes_eq (i : Nat) (v : State) : correctMinutes i v =
    minuteStored i 12 (min (subRd v i 12).toNat (min (subRd v i 11).toNat (subRd v i 10).toNat)) (subRd v i 12).toNat
      (minuteStored i 11 (min (subRd v i 11).toNat (subRd v i 10).toNat) (subRd v i 11).toNat v) := rfl

theorem minuteStored_frame (i w new old : Nat) (v : State) : minuteStored i w new old v = { v with
    mem := (minuteStored i w new old v).mem, port := (minuteStored i w new old v).port } := by
  unfold minuteStored
  split <;> rfl

theorem minuteStored_kept (i w new old : Nat) (v : State) : WordsKept [subscriberWord i w] v (minuteStored i w new old v) := by
  unfold minuteStored
  split
  · exact WordsKept.refl v
  · exact wordsKept_wr v _ _

theorem minuteStored_wf (i w new old : Nat) (hm : MemWf v.mem) : MemWf (minuteStored i w new old v).mem := by
  unfold minuteStored
  split
  · exact hm
  · exact wr_wf _ _ _ hm

theorem subRd_minuteStored {w new old : Nat} (hm : MemWf v.mem) (hold : old = (subRd v i w).toNat) (hnew : new ≤ old) :
    (subRd (minuteStored i w new old v) i w).toNat = new := by
  have hlt : old < 65536 := by rw [hold]; exact (subRd v i w).isLt
  unfold minuteStored
  split
  · rw [← hold]
    exact Eq.symm ‹_›
  · rw [subRd, rd_wr_same _ _ _ hm, wordOf_toNat (by omega)]

theorem correctMinutes_frame (i : Nat) (v : State) : correctMinutes i v = { v with
    mem := (correctMinutes i v).mem, port := (correctMinutes i v).port } := by
  rw [correctMinutes_eq, minuteStored_frame, minuteStored_frame]

theorem correctMinutes_kept (i : Nat) (v : State) :
    WordsKept ([11, 12].map (subscriberWord i)) v (correctMinutes i v) := fun a ha => by
  rw [correctMinutes_eq]
  exact (minuteStored_kept _ _ _ _ _ a fun h => ha (List.mem_cons_of_mem _ h)).trans
    (minuteStored_kept _ _ _ _ v a fun h => ha (by rw [List.mem_singleton.1 h]; exact List.mem_cons_self))

theorem correctMinutes_wf (i : Nat) (hm : MemWf v.mem) : MemWf (correctMinutes i v).mem := by
  rw [correctMinutes_eq]
  exact minuteStored_wf _ _ _ _ (minuteStored_wf _ _ _ _ hm)

theorem subRd_correctMinutes (hm : MemWf v.mem) (i : Nat) :
    (subRd (correctMinutes i v) i 11).toNat = min (subRd v i 11).toNat (subRd v i 10).toNat ∧
    (subRd (correctMinutes i v) i 12).toNat =
      min (subRd v i 12).toNat (min (subRd v i 11).toNat (subRd v i 10).toNat) := by
  have h11 := subRd_minuteStored (i := i) (w := 11) (new := min (subRd v i 11).toNat (subRd v i 10).toNat) hm rfl
    (Nat.min_le_left _ _)
  have hwf := minuteStored_wf i 11 (min (subRd v i 11).toNat (subRd v i 10).toNat) (subRd v i 11).toNat hm
  have h12 : subRd (minuteStored i 11 (min (subRd v i 11).toNat (subRd v i 10).toNat) (subRd v i 11).toNat v) i 12 =
      subRd v i 12 := minuteStored_kept _ _ _ _ v _ fun h => by
    exact absurd ((subscriberWord_inj (by decide) (by decide)).1 (List.mem_singleton.1 h)).2 (by decide)
  rw [correctMinutes_eq]
  refine ⟨(congrArg BitVec.toNat (minuteStored_kept _ _ _ _ _ _ fun h => ?_)).trans h11,
    subRd_minuteStored hwf (by rw [h12]) (Nat.min_le_left _ _)⟩
  exact absurd ((subscriberWord_inj (by decide) (by decide)).1 (List.mem_singleton.1 h)).2 (by decide)

/-! What every record that is judged has in common (R68). -/

/-- R68: the direct count of the record's feed rises, and its minutes are brought under their law. -/
def censusCounted (i e : Nat) (x : State) : State := correctMinutes i (raiseDirect e x)

theorem censusCounted_frame (i e : Nat) (x : State) : censusCounted i e x = { x with
    mem := (censusCounted i e x).mem, port := (censusCounted i e x).port
    order := { x.order with direct := setCount x.order.direct e (countOf x.order.direct e + 1) } } := by
  rw [censusCounted, correctMinutes_frame, raiseDirect, setDirect_frame]

theorem censusCounted_kept (i e : Nat) (x : State) :
    WordsKept (elementWord e 13 :: [11, 12].map (subscriberWord i)) x (censusCounted i e x) := fun a ha =>
  (correctMinutes_kept i _ a fun h => ha (List.mem_cons_of_mem _ h)).trans
    (setDirect_wordsKept e _ x a fun h => ha (by rw [List.mem_singleton.1 h]; exact List.mem_cons_self))

theorem censusCounted_wf (i e : Nat) (hm : MemWf x.mem) : MemWf (censusCounted i e x).mem :=
  correctMinutes_wf i (setDirect_wf hm _ _)

theorem subRd_censusCounted_other (i : Nat) {e w : Nat} (he : e < 256) (hw : w < 32) (h11 : w ≠ 11) (h12 : w ≠ 12) (x : State) :
    subRd (censusCounted i e x) i w = subRd x i w := by
  refine censusCounted_kept i e x _ fun h => ?_
  rcases List.mem_cons.1 h with h | h
  · exact elementWord_not_subscriber he h.symm
  · obtain ⟨k, hk, heq⟩ := List.mem_map.1 h
    have hkw : k = w := ((subscriberWord_inj (by simp at hk; omega) hw).1 heq).2
    subst hkw
    simp [h11, h12] at hk

theorem subRd_censusCounted (hm : MemWf x.mem) (i : Nat) {e : Nat} (he : e < 256) :
    (subRd (censusCounted i e x) i 11).toNat = min (subRd x i 11).toNat (subRd x i 10).toNat ∧
    (subRd (censusCounted i e x) i 12).toNat = min (subRd x i 12).toNat (subRd (censusCounted i e x) i 11).toNat := by
  have hkept (w : Nat) : subRd (raiseDirect e x) i w = subRd x i w :=
    setDirect_wordsKept e _ x _ fun h => elementWord_not_subscriber he (List.mem_singleton.1 h).symm
  obtain ⟨h11, h12⟩ := subRd_correctMinutes (setDirect_wf (s := x) hm e (countOf x.order.direct e + 1)) i
  rw [censusCounted]
  rw [← raiseDirect, hkept, hkept] at h11
  rw [← raiseDirect, hkept, hkept, hkept] at h12
  exact ⟨h11, by rw [h11]; exact h12⟩

end Sys2Proof.Machine


/-! ## The subscriber census: the obligation (R67 to R69) -/

namespace Sys2Proof.Machine

variable {s t u v b x : State} {i : Nat}

/-! A record whose address is free (R67). -/

/-- R67, R68: the status that the census leaves a record whose address is free. -/
def censusStatus (r : RecordStatus) : RecordStatus := { r with conflict := false, link := censusLink r.link }

/-- R67, R68: the record has entered the directory, with its status corrected and counted. -/
def censusEntered (i : Nat) (s : State) : State :=
  if censusStatus (subStatus s i) = subStatus s i then
    { enterDirectory (subTap s i) (subPort s i) i s with order := { (enterDirectory (subTap s i) (subPort s i) i s).order with
        unreached := s.order.unreached + countsUnreached (censusStatus (subStatus s i))
        held := s.order.held + countsHeld (censusStatus (subStatus s i)) } }
  else writeStatus i (uncounted (subStatus s i)) (censusStatus (subStatus s i))
    (enterDirectory (subTap s i) (subPort s i) i s)

theorem censusClaim_eq (i : Nat) (s : State) : censusClaim i s = censusCounted i (subFeed s i) (censusEntered i s) := rfl

theorem uncounted_counts (r : RecordStatus) : countsUnreached (uncounted r) = 0 ∧ countsHeld (uncounted r) = 0 := by
  simp [countsUnreached, countsHeld, uncounted]

theorem censusEntered_frame (i : Nat) (s : State) : censusEntered i s = { s with
    mem := (censusEntered i s).mem, port := (censusEntered i s).port
    order := { s.order with
      directory := tableSet s.order.directory (dropKey (subTap s i) (subPort s i)) i
      unreached := s.order.unreached + countsUnreached (censusStatus (subStatus s i))
      held := s.order.held + countsHeld (censusStatus (subStatus s i)) } } := by
  obtain ⟨hu, hh⟩ := uncounted_counts (subStatus s i)
  unfold censusEntered
  split
  · rfl
  · rw [writeStatus_frame, hu, hh]
    rfl

theorem censusEntered_kept (i : Nat) (s : State) : WordsKept [subscriberWord i 8] s (censusEntered i s) := by
  unfold censusEntered
  split
  · exact fun _ _ => rfl
  · exact writeStatus_wordsKept i _ _ (enterDirectory (subTap s i) (subPort s i) i s)

theorem censusEntered_wf (i : Nat) (hm : MemWf s.mem) : MemWf (censusEntered i s).mem := by
  unfold censusEntered
  split
  · exact hm
  · exact wr_wf _ _ _ hm

theorem subStatus_censusEntered (hm : MemWf s.mem) (i : Nat) : subStatus (censusEntered i s) i = censusStatus (subStatus s i) := by
  unfold censusEntered
  split
  · exact Eq.symm ‹_›
  · exact subStatus_writeStatus (s := enterDirectory (subTap s i) (subPort s i) i s) hm (subStatus_attempts_lt s i)

theorem countsUnreached_census (r : RecordStatus) :
    countsUnreached (censusStatus r) = (if (censusStatus r).link = .unreached then 1 else 0) ∧
    countsHeld (censusStatus r) = (if (censusStatus r).link = .held then 1 else 0) :=
  countsUnreached_served rfl

/-! A record whose address is claimed already (R67). -/

/-- R67: the status of a conflicted record. -/
def conflictStatus (r : RecordStatus) : RecordStatus := { r with conflict := true, link := .settled, attempts := 0 }

theorem statusWord_conflict (r : RecordStatus) : statusWord (conflictStatus r) = wordOf (r.confirmed.code + 128) := by
  cases h : r.confirmed <;> simp only [statusWord, conflictStatus, h] <;> rfl

/-- R67: the record has been marked, with its notice. -/
def censusMarked (i : Nat) (s : State) : State :=
  setNotice (subscriberWord i 7) 4 (wr s (subscriberWord i 8) (statusWord (conflictStatus (subStatus s i))))

/-- R67: the record has been marked conflicted, with the record of it. -/
def censusConflicted (i j : Nat) (s : State) : State :=
  logAppend .conflict i (subTap s i) (subPort s i) j (censusMarked i s)

theorem censusConflict_eq (i j : Nat) (s : State) :
    censusConflict i j s = censusCounted i (subFeed s i) (censusConflicted i j s) := rfl

theorem censusMarked_frame (i : Nat) (s : State) : censusMarked i s = { s with
    mem := (censusMarked i s).mem, port := (censusMarked i s).port } := rfl

theorem censusMarked_wf (i : Nat) (hm : MemWf s.mem) : MemWf (censusMarked i s).mem := wr_wf _ _ _ (wr_wf _ _ _ hm)

theorem censusMarked_kept (i : Nat) (s : State) : WordsKept ([7, 8].map (subscriberWord i)) s (censusMarked i s) := fun a ha =>
  (wordsKept_wr _ _ _ a fun h => ha (by rw [List.mem_singleton.1 h]; exact List.mem_cons_self)).trans
    (wordsKept_wr s _ _ a fun h => ha (List.mem_cons_of_mem _ h))

theorem subRd_censusMarked (hm : MemWf s.mem) (i : Nat) :
    subRd (censusMarked i s) i 8 = wordOf ((subStatus s i).confirmed.code + 128) ∧
    subRd (censusMarked i s) i 7 = subRd s i 7 ||| 16 := by
  have hother (w w' : Nat) (hw : w < 32) (hw' : w' < 32) (hne : w ≠ w') (y : State) (z : Word) :
      rd (wr y (subscriberWord i w') z) (subscriberWord i w) = rd y (subscriberWord i w) :=
    rd_wr_other _ _ _ _ fun h => hne ((subscriberWord_inj hw hw').1 h).2
  refine ⟨(hother 8 7 (by decide) (by decide) (by decide) _ _).trans ((rd_wr_same s _ _ hm).trans (statusWord_conflict _)), ?_⟩
  refine (rd_wr_same _ _ _ (wr_wf _ _ _ hm)).trans ?_
  rw [hother 7 8 (by decide) (by decide) (by decide)]
  rfl

theorem censusConflicted_frame (hst : s.part.state = .starting) (i j : Nat) : censusConflicted i j s = { s with
    mem := (censusConflicted i j s).mem, port := (censusConflicted i j s).port, writer := (censusConflicted i j s).writer } := by
  have hflags := logAppend_flags_of_starting (s := censusMarked i s) hst .conflict i (subTap s i) (subPort s i) j
  rw [censusConflicted, logAppend_frame, hflags, censusMarked_frame]

theorem censusConflicted_keptMarked (hring : RingLaw s) (i j : Nat) :
    KeptOutside ringPlace (censusMarked i s) (censusConflicted i j s) :=
  logAppend_kept (s := censusMarked i s) hring _ _ _ _ _

theorem subRd_censusConflicted (hring : RingLaw s) (hm : MemWf s.mem) (i j : Nat) :
    subRd (censusConflicted i j s) i 8 = wordOf ((subStatus s i).confirmed.code + 128) ∧
    subRd (censusConflicted i j s) i 7 = subRd s i 7 ||| 16 := by
  obtain ⟨h8, h7⟩ := subRd_censusMarked hm i
  have hkept (w : Nat) := censusConflicted_keptMarked hring i j (subscriberWord i w) (ringPlace_subscriberWord i w)
  exact ⟨(hkept 8).trans h8, (hkept 7).trans h7⟩

theorem subStatus_of_conflictWord {r : RecordStatus} (h : subRd t i 8 = wordOf (r.confirmed.code + 128)) :
    subStatus t i = conflictStatus r := by
  rw [subStatus, h, ← statusWord_conflict]
  exact statusOfWord_statusWord (Nat.zero_lt_succ _)

/-! The end of the census (R69). -/

/-- R69: the words of the direct counts. -/
def directWords (v : State) : List (Nat × Word) := (List.range 256).map fun e => (elementWord e 13, wordOf (countOf v.order.direct e))

theorem directWords_fst (v : State) : (directWords v).map Prod.fst = (List.range 256).map fun e => elementWord e 13 := by
  rw [directWords, List.map_map]
  rfl

theorem writeDirectCounts_eq (v : State) : writeDirectCounts v = wrAll v (directWords v) := rfl

theorem writeDirectCounts_frame (v : State) : writeDirectCounts v = { v with
    mem := (writeDirectCounts v).mem, port := (writeDirectCounts v).port } := by
  rw [writeDirectCounts_eq]
  exact wrAll_frame _ v

theorem writeDirectCounts_kept (v : State) :
    WordsKept ((List.range 256).map fun e => elementWord e 13) v (writeDirectCounts v) := by
  rw [← directWords_fst v]
  exact wrAll_wordsKept _ v

theorem rd_writeDirectCounts (hm : MemWf v.mem) {e : Nat} (he : e < 256) :
    rd (writeDirectCounts v) (elementWord e 13) = wordOf (countOf v.order.direct e) := by
  rw [writeDirectCounts_eq]
  refine rd_wrAll_mem hm ?_ (List.mem_map_of_mem (List.mem_range.2 he))
  rw [directWords_fst]
  exact List.nodup_range.map fun _ _ h => elementWord_inj h

/-- R69: what follows the visit: after record 4095 the direct counts are written. -/
def censusFollowed (i : Nat) (v : State) : State := if i = 4095 then writeDirectCounts v else v

/-- R67, R69: where the census stands after the visit of record `i`. -/
def censusPart (i : Nat) (p : Part) : Part :=
  if i = 4095 then { p with censusCursor := 0, censusDone := true, startStep := 5 } else { p with censusCursor := i + 1 }

theorem censusFollowed_frame (i : Nat) (v : State) : censusFollowed i v = { v with
    mem := (censusFollowed i v).mem, port := (censusFollowed i v).port } := by
  unfold censusFollowed
  split
  · exact writeDirectCounts_frame v
  · rfl

theorem rd_censusFollowed {a : Nat} (h : i = 4095 → ∀ e, e < 256 → a ≠ elementWord e 13) (v : State) :
    rd (censusFollowed i v) a = rd v a := by
  unfold censusFollowed
  split
  · refine writeDirectCounts_kept v a fun hmem => ?_
    obtain ⟨e, he, heq⟩ := List.mem_map.1 hmem
    exact h ‹_› e (List.mem_range.1 he) heq.symm
  · rfl

theorem subRd_censusFollowed (i j w : Nat) (v : State) : subRd (censusFollowed i v) j w = subRd v j w :=
  rd_censusFollowed (fun _ _ he h => elementWord_not_subscriber he h.symm) v

theorem censusFollowed_rings (i : Nat) (v : State) : RingsKept v (censusFollowed i v) := fun a ha =>
  rd_censusFollowed (fun _ e he h => by rw [h, ringPlace_elementWord he (by decide)] at ha; cases ha) v

theorem censusFollowed_direct (hm : MemWf v.mem) (hi : i = 4095) {e : Nat} (he : e < 256) :
    rd (censusFollowed i v) (elementWord e 13) = wordOf (countOf v.order.direct e) := by
  rw [censusFollowed, if_pos hi, rd_writeDirectCounts hm he]

theorem censusStep_eq (hlt : s.part.censusCursor < 4096)
    (hpart : (censusVisit s.part.censusCursor s).part = s.part) : censusStep s =
      { censusFollowed s.part.censusCursor (censusVisit s.part.censusCursor s) with
        part := censusPart s.part.censusCursor s.part } := by
  unfold censusStep censusFollowed censusPart
  dsimp only
  by_cases h : s.part.censusCursor = 4095
  · rw [if_neg (by simp only [subscriberCount]; omega), if_pos h, if_pos h, writeDirectCounts_frame, hpart]
  · rw [if_pos (by simp only [subscriberCount]; omega), if_neg h, if_neg h, hpart]

/-- What a visit that judges a record has done, told by the state before the count of its feed (R67, R68). -/
structure CensusJudged (i : Nat) (s x v : State) : Prop where
  counted : v = censusCounted i (subFeed s i) x
  wf : MemWf x.mem
  kept : KeptOutside (withRings ([7, 8].map (subscriberWord i))) s x
  frame : x = { s with mem := x.mem, port := x.port, order := x.order, writer := x.writer }
  direct : x.order.direct = s.order.direct

theorem CensusJudged.subRd_minutes (h : CensusJudged i s x v) {w : Nat} (hw : w < 32) (h7 : w ≠ 7) (h8 : w ≠ 8) :
    subRd x i w = subRd s i w := h.kept _ (by
  rw [withRings, ringPlace_subscriberWord, Bool.or_false, decide_eq_false_iff_not]
  intro hmem
  obtain ⟨k, hk, heq⟩ := List.mem_map.1 hmem
  have hkw : k = w := ((subscriberWord_inj (by simp at hk; omega) hw).1 heq).2
  subst hkw
  simp [h7, h8] at hk)

theorem CensusJudged.frame' (h : CensusJudged i s x v) : v = { s with
    mem := v.mem, port := v.port, writer := x.writer
    order := { x.order with direct := setCount s.order.direct (subFeed s i) (countOf s.order.direct (subFeed s i) + 1) } } := by
  have hf := h.counted.trans (censusCounted_frame i (subFeed s i) x)
  rw [← h.counted] at hf
  rw [hf, h.direct, h.frame]

theorem CensusJudged.minutes (h : CensusJudged i s x v) : subRd v i 10 = subRd s i 10 ∧
    (subRd v i 11).toNat = min (subRd s i 11).toNat (subRd s i 10).toNat ∧
    (subRd v i 12).toNat = min (subRd s i 12).toNat (subRd v i 11).toNat := by
  obtain ⟨h11, h12⟩ := subRd_censusCounted h.wf i (e := subFeed s i) (field_lt _)
  have h10 := subRd_censusCounted_other i (e := subFeed s i) (w := 10) (field_lt _) (by decide) (by decide) (by decide) x
  rw [← h.counted] at h11 h12 h10
  rw [h.subRd_minutes (by decide) (by decide) (by decide)] at h10
  rw [h.subRd_minutes (by decide) (by decide) (by decide), h.subRd_minutes (by decide) (by decide) (by decide)] at h11
  rw [h.subRd_minutes (by decide) (by decide) (by decide)] at h12
  exact ⟨h10, h11, h12⟩

theorem CensusJudged.marks (h : CensusJudged i s x v) {w : Nat} (hw : w = 7 ∨ w = 8) : subRd v i w = subRd x i w := by
  rw [h.counted]
  exact subRd_censusCounted_other i (field_lt _) (by omega) (by omega) (by omega) x

theorem CensusJudged.others (h : CensusJudged i s x v) {a : Nat}
    (ha : a ∉ elementWord (subFeed s i) 13 :: [7, 8, 11, 12].map (subscriberWord i)) (hring : ringPlace a = false) :
    rd v a = rd s a := by
  rw [h.counted]
  refine (censusCounted_kept i (subFeed s i) x a fun hmem => ha ?_).trans (h.kept a ?_)
  · rcases List.mem_cons.1 hmem with hmem | hmem
    · rw [hmem]
      exact List.mem_cons_self
    · exact List.mem_cons_of_mem _ (List.map_subset _ (by simp) hmem)
  · rw [withRings, hring, Bool.or_false, decide_eq_false_iff_not]
    exact fun hmem => ha (List.mem_cons_of_mem _ (List.map_subset _ (by simp) hmem))

theorem CensusJudged.rings (h : CensusJudged i s x v) : RingsKept x v := by
  rw [h.counted]
  refine (censusCounted_kept i (subFeed s i) x).ringsKept fun a ha => ?_
  rcases List.mem_cons.1 ha with ha | ha
  · rw [ha]
    exact ringPlace_elementWord (field_lt _) (by decide)
  · obtain ⟨k, -, rfl⟩ := List.mem_map.1 ha
    exact ringPlace_subscriberWord i k

theorem CensusJudged.wf' (h : CensusJudged i s x v) : MemWf v.mem := by
  rw [h.counted]
  exact censusCounted_wf _ _ h.wf

theorem judged_claim (hm : MemWf s.mem) (i : Nat) : CensusJudged i s (censusEntered i s) (censusClaim i s) where
  counted := censusClaim_eq i s
  wf := censusEntered_wf i hm
  kept a ha := censusEntered_kept i s a fun h => by
    rw [List.mem_singleton.1 h] at ha
    simp [withRings] at ha
  frame := by rw [censusEntered_frame]
  direct := by rw [censusEntered_frame]

theorem judged_conflict (hm : MemWf s.mem) (hring : RingLaw s) (hst : s.part.state = .starting) (i j : Nat) :
    CensusJudged i s (censusConflicted i j s) (censusConflict i j s) where
  counted := censusConflict_eq i j s
  wf := logAppend_wf _ _ _ _ _ _ (censusMarked_wf i hm)
  kept a ha := (censusConflicted_keptMarked hring i j a (by
    simp only [withRings, Bool.or_eq_false_iff] at ha
    exact ha.2)).trans (censusMarked_kept i s a fun h => by
      simp only [withRings, Bool.or_eq_false_iff, decide_eq_false_iff_not] at ha
      exact ha.1 h)
  frame := by rw [censusConflicted_frame hst]
  direct := by rw [censusConflicted_frame hst]

end Sys2Proof.Machine


/-! ## The subscriber census: the visits and the end of the step (R67 to R69) -/

namespace Sys2Proof.Machine

variable {s t u v b x : State} {i : Nat}

theorem censusVisit_passed (h : subTap s i = 0) : censusVisit i s = partRead s := if_pos h

theorem censusVisit_claim (h : subTap s i ≠ 0) (hfree : holderOf s (subTap s i) (subPort s i) = none) :
    censusVisit i s = censusClaim i s := by
  rw [censusVisit, if_neg h, hfree]

theorem censusVisit_conflict {j : Nat} (h : subTap s i ≠ 0) (hheld : holderOf s (subTap s i) (subPort s i) = some j) :
    censusVisit i s = censusConflict i j s := by
  rw [censusVisit, if_neg h, hheld]

theorem censusVisit_judged (hm : MemWf s.mem) (hring : RingLaw s) (hst : s.part.state = .starting) (h : subTap s i ≠ 0) :
    ∃ x, CensusJudged i s x (censusVisit i s) := by
  cases hh : holderOf s (subTap s i) (subPort s i) with
  | none => exact ⟨_, by rw [censusVisit_claim h hh]; exact judged_claim hm i⟩
  | some j => exact ⟨_, by rw [censusVisit_conflict h hh]; exact judged_conflict hm hring hst i j⟩

/-- What a visit can change at all. -/
theorem censusVisit_frame (hm : MemWf s.mem) (hring : RingLaw s) (hst : s.part.state = .starting) (i : Nat) :
    censusVisit i s = { s with
      mem := (censusVisit i s).mem, port := (censusVisit i s).port, order := (censusVisit i s).order
      writer := (censusVisit i s).writer } := by
  by_cases h : subTap s i = 0
  · rw [censusVisit_passed h]
    rfl
  · obtain ⟨x, hx⟩ := censusVisit_judged hm hring hst h
    rw [hx.frame']

theorem censusVisit_wf (hm : MemWf s.mem) (hring : RingLaw s) (hst : s.part.state = .starting) (i : Nat) :
    MemWf (censusVisit i s).mem := by
  by_cases h : subTap s i = 0
  · rw [censusVisit_passed h]
    exact hm
  · obtain ⟨x, hx⟩ := censusVisit_judged hm hring hst h
    exact hx.wf'

theorem exec_census (h4 : atStartStep 4 s = true) (hm : MemWf s.mem) (hring : RingLaw s) (hlt : s.part.censusCursor < 4096) :
    exec .subscriberCensusVisit s = .next
      { censusFollowed s.part.censusCursor (censusVisit s.part.censusCursor s) with
        part := censusPart s.part.censusCursor s.part } := by
  have hst : s.part.state = .starting := by
    simp only [atStartStep, Bool.and_eq_true, decide_eq_true_eq] at h4
    exact h4.1.2
  show execSubscriberCensusVisit s = _
  rw [execSubscriberCensusVisit, if_pos h4,
    censusStep_eq hlt (by rw [censusVisit_frame hm hring hst])]

/-- R67, R68: what the claim of an address leaves. -/
theorem claim_status (hm : MemWf s.mem) (hfree : censusVisit i s = censusClaim i s) :
    subStatus (censusVisit i s) i = censusStatus (subStatus s i) ∧ subRd (censusVisit i s) i 7 = subRd s i 7 ∧
    (censusVisit i s).writer = s.writer ∧
    (censusVisit i s).order = { s.order with
      directory := tableSet s.order.directory (dropKey (subTap s i) (subPort s i)) i
      unreached := s.order.unreached + countsUnreached (censusStatus (subStatus s i))
      held := s.order.held + countsHeld (censusStatus (subStatus s i))
      direct := setCount s.order.direct (subFeed s i) (countOf s.order.direct (subFeed s i) + 1) } := by
  have hj := judged_claim hm i
  have hstatus := subStatus_censusEntered hm i
  have h7 : subRd (censusEntered i s) i 7 = subRd s i 7 := censusEntered_kept i s _ fun h => by
    exact absurd ((subscriberWord_inj (by decide) (by decide)).1 (List.mem_singleton.1 h)).2 (by decide)
  rw [hfree]
  refine ⟨(subStatus_congr (hj.marks (.inr rfl))).trans hstatus, (hj.marks (.inl rfl)).trans h7, ?_, ?_⟩
  · rw [hj.frame', censusEntered_frame]
  · rw [hj.frame', censusEntered_frame]

/-- R67: what the mark of a conflict leaves. -/
theorem conflict_status {j : Nat} (hm : MemWf s.mem) (hring : RingLaw s) (hst : s.part.state = .starting)
    (hheld : censusVisit i s = censusConflict i j s) :
    subRd (censusVisit i s) i 8 = wordOf ((subStatus s i).confirmed.code + 128) ∧
    subRd (censusVisit i s) i 7 = subRd s i 7 ||| 16 ∧
    (censusVisit i s).order = { s.order with
      direct := setCount s.order.direct (subFeed s i) (countOf s.order.direct (subFeed s i) + 1) } := by
  have hj := judged_conflict hm hring hst i j
  obtain ⟨h8, h7⟩ := subRd_censusConflicted hring hm i j
  rw [hheld]
  refine ⟨(hj.marks (.inr rfl)).trans h8, (hj.marks (.inl rfl)).trans h7, ?_⟩
  rw [hj.frame', censusConflicted_frame hst]

theorem conflict_logged {j : Nat} (hm : MemWf s.mem) (hring : RingLaw s) (hst : s.part.state = .starting)
    (hheld : censusVisit i s = censusConflict i j s) (hk : RingsKept (censusVisit i s) t)
    (hw : t.writer = (censusVisit i s).writer) : Logged .conflict i (subTap s i) (subPort s i) j s t := by
  have hj := judged_conflict hm hring hst i j
  rw [hheld] at hk hw
  refine logged_logAppend (v := censusMarked i s) (censusMarked_wf i hm) hring rfl rfl (hj.rings.trans hk) (hw.trans ?_)
  rw [hj.frame']
  rfl

/-- Settles O58, by the three judgements of a record and the end of the census. -/
theorem subscriberCensusRuns : Obligations.SubscriberCensusRuns := by
  unfold Obligations.SubscriberCensusRuns
  refine ⟨fun i s hm hring h4 hi hlt => ?_, fun s hm h4 hc htap => ?_⟩
  · have hst : s.part.state = .starting := by
      simp only [atStartStep, Bool.and_eq_true, decide_eq_true_eq] at h4
      exact h4.1.2
    have hexec := exec_census h4 hm hring (hi ▸ hlt)
    rw [← hi] at hexec
    have hvframe := censusVisit_frame hm hring hst i
    have hvwf := censusVisit_wf hm hring hst i
    have hfframe := censusFollowed_frame i (censusVisit i s)
    have hsub (j w : Nat) := subRd_censusFollowed i j w (censusVisit i s)
    have hstat := subStatus_congr (hsub i 8)
    have hforder : (censusFollowed i (censusVisit i s)).order = (censusVisit i s).order := by rw [hfframe]
    have hfwriter : (censusFollowed i (censusVisit i s)).writer = (censusVisit i s).writer := by rw [hfframe]
    refine ⟨_, hexec, rfl, fun hne htap => ⟨?_, fun hp => ?_⟩, fun hlast e he => ?_, fun htap => ?_,
      fun htap => ⟨?_, ?_⟩, fun htap hfree => ?_, fun j htap hheld => ?_, ?_⟩
    · rw [censusFollowed, if_neg hne, censusVisit_passed htap]
      rfl
    · rw [censusFollowed, if_neg hne, censusVisit_passed htap]
      exact partRead_port hp
    · refine (censusFollowed_direct hvwf hlast he).trans ?_
      rw [← hforder]
    · refine hforder.trans ?_
      rw [censusVisit_passed htap]
      rfl
    · obtain ⟨x, hx⟩ := censusVisit_judged hm hring hst htap
      refine (congrArg OrderMonitor.direct hforder).trans ?_
      rw [hx.frame']
    · obtain ⟨x, hx⟩ := censusVisit_judged hm hring hst htap
      obtain ⟨h10, h11, h12⟩ := hx.minutes
      refine ⟨(hsub i 10).trans h10, (congrArg BitVec.toNat (hsub i 11)).trans h11,
        ((congrArg BitVec.toNat (hsub i 12)).trans h12).trans ?_, fun a ha hr hlast => ?_⟩
      · exact congrArg (fun w : Word => min (subRd s i 12).toNat w.toNat) (hsub i 11).symm
      · exact (rd_censusFollowed hlast _).trans (hx.others ha hr)
    · obtain ⟨hstatus, h7, hwriter, horder⟩ := claim_status hm (censusVisit_claim htap hfree)
      obtain ⟨hu, hh⟩ := countsUnreached_census (subStatus s i)
      have hstatus' := hstat.trans hstatus
      rw [← congrArg RecordStatus.link hstatus'] at hu hh
      refine ⟨?_, hstatus', ?_, ?_, (hsub i 7).trans h7, hfwriter.trans hwriter⟩
      · refine (congrArg (fun o : OrderMonitor => tableGet o.directory (dropKey (subTap s i) (subPort s i))) (hforder.trans horder)).trans ?_
        exact tableGet_tableSet_same _ _ _
      · exact (congrArg OrderMonitor.unreached (hforder.trans horder)).trans (congrArg (s.order.unreached + ·) hu)
      · exact (congrArg OrderMonitor.held (hforder.trans horder)).trans (congrArg (s.order.held + ·) hh)
    · obtain ⟨h8, h7, horder⟩ := conflict_status hm hring hst (censusVisit_conflict htap hheld)
      have h8' := (hsub i 8).trans h8
      have horder' := hforder.trans horder
      have hdirectory : (censusFollowed i (censusVisit i s)).order.directory = s.order.directory := by rw [horder']
      have hunreached : (censusFollowed i (censusVisit i s)).order.unreached = s.order.unreached := by rw [horder']
      have hheldCount : (censusFollowed i (censusVisit i s)).order.held = s.order.held := by rw [horder']
      exact ⟨hdirectory, h8', subStatus_of_conflictWord h8', hunreached, hheldCount, (hsub i 7).trans h7,
        conflict_logged hm hring hst (censusVisit_conflict htap hheld) (censusFollowed_rings i _) hfwriter⟩
    · rw [hfframe, hvframe]
  · have hvisit : censusVisit 4095 s = partRead s := censusVisit_passed htap
    have hstep := censusStep_eq (s := s) (by rw [hc]; decide) (by rw [hc, hvisit]; rfl)
    rw [hc, hvisit] at hstep
    have hexec : exec .subscriberCensusVisit s = .next { writeDirectCounts (partRead s) with part := censusPart 4095 s.part } :=
      congrArg Host.Outcome.next ((if_pos h4).trans hstep)
    have hframe := writeDirectCounts_frame (partRead s)
    have hdirect (e : Nat) (he : e < 256) := rd_writeDirectCounts (v := partRead s) hm he
    have hkept := writeDirectCounts_kept (partRead s)
    generalize writeDirectCounts (partRead s) = y at *
    refine ⟨_, hexec, rfl, hdirect, fun a ha => hkept a ha, ?_⟩
    rw [hframe]
    rfl

end Sys2Proof.Machine


/-! ## SLOT_RELOAD (R149) -/

namespace Sys2Proof.Machine

variable {s t u v b : State} {k : Nat}

theorem wrPair_rd_words (hm : MemWf v.mem) (a n : Nat) :
    rd (wrPair v a n) a = pairLowWord n ∧ rd (wrPair v a n) (a + 1) = pairHighWord n := by
  have hnodup : (([(a, pairLowWord n), (a + 1, pairHighWord n)] : List (Nat × Word)).map Prod.fst).Nodup := by simp
  exact ⟨(rd_wrHeld v _ _).trans (rd_wrAll_mem hm hnodup List.mem_cons_self),
    (rd_wrHeld v _ _).trans (rd_wrAll_mem hm hnodup (List.mem_cons_of_mem _ List.mem_cons_self))⟩

theorem rdPair_wrPair (hm : MemWf v.mem) (a n : Nat) : rdPair (wrPair v a n) a = n % 4294967296 := by
  obtain ⟨hlow, hhigh⟩ := wrPair_rd_words hm a n
  rw [rdPair, hlow, hhigh, pairValue_words_mod]

/-! One slot. -/

/-- R149: the price of a slot, as its record gives it. -/
def reloadedPrice (k : Nat) (s : State) : Nat :=
  if slotStateOf (rd s (slotWord k 6)).toNat ≠ .idle ∧ 0 < (rd s (slotWord k 8)).toNat then
    saturate16 (rdPair s (slotWord k 9) / (rd s (slotWord k 8)).toNat)
  else (rd s (slotWord k 5)).toNat

/-- R149: the armed copy that a slot's record gives. -/
def reloadedCopy (k : Nat) (s : State) : ArmedSlot :=
  { state := slotStateOf (rd s (slotWord k 6)).toNat, event := (rd s (slotWord k 7)).toNat
    startStamp := rdPair s (slotWord k 0), endStamp := rdPair s (slotWord k 2), cutoff := (rd s (slotWord k 4)).toNat
    price := reloadedPrice k s }

/-- R149: a state of 4 and above is written IDLE. -/
def stateCorrected (k : Nat) (s : State) : State := if 3 < (rd s (slotWord k 6)).toNat then wr s (slotWord k 6) 0 else s

/-- R149: a revenue that does not divide is corrected. -/
def revenueCorrected (k : Nat) (s : State) : State :=
  if (slotStateOf (rd s (slotWord k 6)).toNat ≠ .idle ∧ 0 < (rd s (slotWord k 8)).toNat) ∧
      reloadedPrice k s * (rd s (slotWord k 8)).toNat ≠ rdPair s (slotWord k 9) then
    wrPair (stateCorrected k s) (slotWord k 9) (reloadedPrice k s * (rd s (slotWord k 8)).toNat)
  else stateCorrected k s

theorem reloadSlot_eq (s : State) (k : Nat) :
    reloadSlot s k = setArmed k (reloadedCopy k s) (revenueCorrected k s) := rfl

theorem stateCorrected_kept (k : Nat) (s : State) : WordsKept [slotWord k 6] s (stateCorrected k s) := by
  unfold stateCorrected
  split
  · exact wordsKept_wr s _ _
  · exact WordsKept.refl s

theorem stateCorrected_wf (k : Nat) (hm : MemWf s.mem) : MemWf (stateCorrected k s).mem := by
  unfold stateCorrected
  split
  · exact wr_wf _ _ _ hm
  · exact hm

theorem rd_stateCorrected (hm : MemWf s.mem) (k : Nat) : rd (stateCorrected k s) (slotWord k 6) =
    if 3 < (rd s (slotWord k 6)).toNat then 0 else rd s (slotWord k 6) := by
  unfold stateCorrected
  split
  · exact rd_wr_same _ _ _ hm
  · rfl

theorem slotWord_ne {k j x y : Nat} (hx : x < 16) (hy : y < 16) (h : k ≠ j ∨ x ≠ y) : slotWord k x ≠ slotWord j y := by
  unfold slotWord
  omega

theorem revenueCorrected_kept (k : Nat) (s : State) :
    WordsKept [slotWord k 9, slotWord k 10] (stateCorrected k s) (revenueCorrected k s) := by
  unfold revenueCorrected
  split
  · exact wrPair_wordsKept _ _ _
  · exact WordsKept.refl _

theorem revenueCorrected_wf (k : Nat) (hm : MemWf s.mem) : MemWf (revenueCorrected k s).mem := by
  unfold revenueCorrected
  split
  · exact wrPair_wf _ _ _ (stateCorrected_wf k hm)
  · exact stateCorrected_wf k hm

theorem reloadSlot_kept (s : State) (k : Nat) :
    WordsKept [slotWord k 6, slotWord k 9, slotWord k 10] s (reloadSlot s k) := fun a ha => by
  refine (revenueCorrected_kept k s a fun h => ha (List.mem_cons_of_mem _ h)).trans
    (stateCorrected_kept k s a fun h => ha ?_)
  rw [List.mem_singleton.1 h]
  exact List.mem_cons_self

theorem reloadSlot_frame (s : State) (k : Nat) : reloadSlot s k = { s with
    mem := (reloadSlot s k).mem, port := (reloadSlot s k).port
    slots := { s.slots with armed := tableSet s.slots.armed k (reloadedCopy k s) } } := by
  rw [reloadSlot_eq]
  unfold revenueCorrected stateCorrected
  split
  · split <;> rfl
  · split <;> rfl

/-- What the reload leaves of a slot, told by its record as it stood (R149). -/
def SlotReloaded (k : Nat) (s t : State) : Prop :=
  ∃ a, tableGet t.slots.armed k = some a ∧
    (3 < (rd s (slotWord k 6)).toNat → a.state = .idle ∧ rd t (slotWord k 6) = 0) ∧
    ((rd s (slotWord k 6)).toNat ≤ 3 →
      a.state.code = (rd s (slotWord k 6)).toNat ∧ rd t (slotWord k 6) = rd s (slotWord k 6)) ∧
    a.event = (rd s (slotWord k 7)).toNat ∧ a.startStamp = rdPair s (slotWord k 0) ∧
    a.endStamp = rdPair s (slotWord k 2) ∧ a.cutoff = (rd s (slotWord k 4)).toNat ∧
    (a.state = .idle ∨ rd s (slotWord k 8) = 0 →
      a.price = (rd s (slotWord k 5)).toNat ∧ rdPair t (slotWord k 9) = rdPair s (slotWord k 9)) ∧
    (a.state ≠ .idle → rd s (slotWord k 8) ≠ 0 →
      a.price = min (rdPair s (slotWord k 9) / (rd s (slotWord k 8)).toNat) 65535 ∧
      rdPair t (slotWord k 9) = a.price * (rd s (slotWord k 8)).toNat)

theorem slotStateOf_code {n : Nat} (h : n ≤ 3) : (slotStateOf n).code = n := by
  interval_cases n <;> rfl

theorem slotStateOf_idle {n : Nat} (h : 3 < n) : slotStateOf n = .idle := by
  unfold slotStateOf
  rw [if_neg (by omega), if_neg (by omega), if_neg (by omega)]

theorem word_pos_iff (w : Word) : 0 < w.toNat ↔ w ≠ 0 := by
  rw [Nat.pos_iff_ne_zero]
  exact not_congr ⟨fun h => BitVec.eq_of_toNat_eq h, fun h => by rw [h]; rfl⟩

theorem rdPair_revenueCorrected (hm : MemWf s.mem) (k : Nat) : rdPair (revenueCorrected k s) (slotWord k 9) =
    if slotStateOf (rd s (slotWord k 6)).toNat ≠ .idle ∧ 0 < (rd s (slotWord k 8)).toNat then
      reloadedPrice k s * (rd s (slotWord k 8)).toNat else rdPair s (slotWord k 9) := by
  have hsame : rdPair (stateCorrected k s) (slotWord k 9) = rdPair s (slotWord k 9) :=
    rdPair_congr (stateCorrected_kept k s _ fun h => slotWord_ne (by decide) (by decide) (.inr (by decide)) (List.mem_singleton.1 h))
      (stateCorrected_kept k s _ fun h => slotWord_ne (k := k) (x := 10) (by decide) (by decide) (.inr (by decide)) (List.mem_singleton.1 h))
  unfold revenueCorrected
  split
  · rename_i h
    rw [rdPair_wrPair (stateCorrected_wf k hm), if_pos h.1]
    refine Nat.mod_eq_of_lt ?_
    have hprice : reloadedPrice k s ≤ 65535 := by
      rw [reloadedPrice, if_pos h.1]
      exact Nat.min_le_right _ _
    have hcount := (rd s (slotWord k 8)).isLt
    calc reloadedPrice k s * (rd s (slotWord k 8)).toNat ≤ 65535 * 65535 := Nat.mul_le_mul hprice (by omega)
      _ < 4294967296 := by decide
  · rename_i h
    rw [hsame]
    split
    · exact (Decidable.not_not.1 fun hne => h ⟨‹_›, hne⟩).symm
    · rfl

theorem slotReloaded_reloadSlot (hm : MemWf s.mem) (k : Nat) : SlotReloaded k s (reloadSlot s k) := by
  have hstate : rd (reloadSlot s k) (slotWord k 6) = if 3 < (rd s (slotWord k 6)).toNat then 0 else rd s (slotWord k 6) := by
    refine (revenueCorrected_kept k s _ fun h => ?_).trans (rd_stateCorrected hm k)
    simp [slotWord] at h
  have hpair : rdPair (reloadSlot s k) (slotWord k 9) = _ := rdPair_revenueCorrected hm k
  refine ⟨reloadedCopy k s, ?_, fun h => ⟨slotStateOf_idle h, by rw [hstate, if_pos h]⟩,
    fun h => ⟨slotStateOf_code h, by rw [hstate, if_neg (by omega)]⟩, rfl, rfl, rfl, rfl, fun h => ?_, fun h h' => ?_⟩
  · rw [reloadSlot_frame]
    exact tableGet_tableSet_same _ _ _
  · have hno : ¬(slotStateOf (rd s (slotWord k 6)).toNat ≠ .idle ∧ 0 < (rd s (slotWord k 8)).toNat) := fun c =>
      h.elim c.1 ((word_pos_iff _).1 c.2)
    rw [hpair, if_neg hno]
    exact ⟨if_neg hno, rfl⟩
  · have hyes : slotStateOf (rd s (slotWord k 6)).toNat ≠ .idle ∧ 0 < (rd s (slotWord k 8)).toNat :=
      ⟨h, (word_pos_iff _).2 h'⟩
    rw [hpair, if_pos hyes]
    exact ⟨if_pos hyes, rfl⟩

end Sys2Proof.Machine


/-! ## SLOT_RELOAD, RING_CONTROL_VALIDATION and CLOSE_RESUMPTION (R149, R170, R172) -/

namespace Sys2Proof.Machine

variable {s t u v b : State} {k : Nat}

/-! The eight slots. -/

/-- The words of a slot that the reload corrects. -/
def slotCorrected (k a : Nat) : Bool := decide (a ∈ [slotWord k 6, slotWord k 9, slotWord k 10])

theorem slotCorrected_other {k j w : Nat} (h : k ≠ j) (hw : w < 16) : slotCorrected j (slotWord k w) = false := by
  simp only [slotCorrected, decide_eq_false_iff_not, List.mem_cons, List.not_mem_nil, or_false, not_or]
  exact ⟨slotWord_ne hw (by decide) (.inl h), slotWord_ne hw (by decide) (.inl h), slotWord_ne hw (by decide) (.inl h)⟩

theorem reloadSlot_touch (s : State) (k : Nat) : KeptOutside (slotCorrected k) s (reloadSlot s k) := fun a ha =>
  reloadSlot_kept s k a (decide_eq_false_iff_not.1 ha)

theorem reloadSlot_wf (s : State) (k : Nat) (hm : MemWf s.mem) : MemWf (reloadSlot s k).mem := revenueCorrected_wf k hm

theorem rdPair_of_words {k w : Nat} (h : ∀ x, x < 16 → rd t (slotWord k x) = rd s (slotWord k x)) (hw : w < 15) :
    rdPair t (slotWord k w) = rdPair s (slotWord k w) := rdPair_congr (h w (by omega)) (h (w + 1) (by omega))

/-- What a reloaded slot is told by stays so while its record before and its corrected words after stand. -/
theorem SlotReloaded.congr (h : SlotReloaded k v u) (hs : ∀ x, x < 16 → rd v (slotWord k x) = rd s (slotWord k x))
    (ht : ∀ x, x < 16 → rd t (slotWord k x) = rd u (slotWord k x))
    (ha : tableGet t.slots.armed k = tableGet u.slots.armed k) : SlotReloaded k s t := by
  unfold SlotReloaded at *
  rw [ha, ht 6 (by decide), rdPair_of_words ht (by decide), ← hs 4 (by decide), ← hs 5 (by decide), ← hs 6 (by decide),
    ← hs 7 (by decide), ← hs 8 (by decide), ← rdPair_of_words hs (w := 0) (by decide),
    ← rdPair_of_words hs (w := 2) (by decide), ← rdPair_of_words hs (w := 9) (by decide)]
  exact h

theorem reloadSlots_armed_other {l : List Nat} (hk : k ∉ l) :
    ∀ s : State, tableGet (l.foldl reloadSlot s).slots.armed k = tableGet s.slots.armed k := by
  induction l with
  | nil => exact fun _ => rfl
  | cons j l ih =>
    intro s
    rw [List.foldl_cons, ih fun h => hk (List.mem_cons_of_mem _ h), reloadSlot_frame]
    exact tableGet_tableSet_other _ _ fun h => hk (h ▸ List.mem_cons_self)

/-- R149: each slot is reloaded from its own record, whatever the others hold. -/
theorem slotsReloaded {l : List Nat} : ∀ {s : State}, MemWf s.mem → l.Nodup → k ∈ l → SlotReloaded k s (l.foldl reloadSlot s) := by
  induction l with
  | nil => exact fun _ _ h => absurd h List.not_mem_nil
  | cons j l ih =>
    intro s hm hnodup hk
    obtain ⟨hj, hl⟩ := List.nodup_cons.1 hnodup
    by_cases hjk : k = j
    · subst hjk
      exact (slotReloaded_reloadSlot hm k).congr (fun _ _ => rfl)
        (fun x hx => foldl_kept_of_not_mem reloadSlot_touch (l := l)
          (fun i hi => slotCorrected_other (fun h => hj (by rw [h]; exact hi)) hx) (reloadSlot s k))
        (reloadSlots_armed_other hj _)
    · exact (ih (reloadSlot_wf s j hm) hl ((List.mem_cons.1 hk).resolve_left hjk)).congr
        (fun x hx => reloadSlot_touch s j _ (slotCorrected_other hjk hx)) (fun _ _ => rfl) rfl

theorem reloadSlots_frame (l : List Nat) : ∀ s : State, l.foldl reloadSlot s = { s with
    mem := (l.foldl reloadSlot s).mem, port := (l.foldl reloadSlot s).port
    slots := { s.slots with armed := (l.foldl reloadSlot s).slots.armed } } := by
  induction l with
  | nil => exact fun _ => rfl
  | cons j l ih =>
    intro s
    rw [List.foldl_cons, ih, reloadSlot_frame]

theorem reloadSlots_kept (s : State) :
    WordsKept ((List.range 8).flatMap fun k => [slotWord k 6, slotWord k 9, slotWord k 10]) s (reloadSlots s) := fun _ ha =>
  foldl_kept_of_not_mem reloadSlot_touch (l := List.range 8) (fun k hk => decide_eq_false fun h =>
    ha (List.mem_flatMap.2 ⟨k, hk, h⟩)) (partRead s)

/-! The ring control (R172). -/

theorem startStep_at {n : Nat} (h : atStartStep n s = true) (work : State → State) :
    startStep n work s = toStartStep (n + 1) (work s) := if_pos h

theorem wordOf_rd (v : State) (a : Nat) : wordOf (rd v a).toNat = rd v a := by
  rw [wordOf]
  exact (BitVec.ofNat_toNat 16 (rd v a)).trans (BitVec.setWidth_eq _)

/-- What the validation leaves of a ring, whose control words stand from `h` on, told by the words as they stood (R172). -/
def RingValidated (n : RingName) (h z : Nat) (s t : State) : Prop :=
  ((z ≤ (rd s h).toNat ∨ (rd s (h + 2)).toNat = 0) →
    ringCopy t n = some { head := 0, tail := 0, sequence := max (rd s (h + 2)).toNat 1 } ∧
    rd t h = 0 ∧ rd t (h + 1) = 0 ∧ rd t (h + 2) = wordOf (max (rd s (h + 2)).toNat 1)) ∧
  ((rd s h).toNat < z → (rd s (h + 2)).toNat ≠ 0 → z ≤ (rd s (h + 1)).toNat →
    ringCopy t n = some { head := (rd s h).toNat, tail := (rd s h).toNat, sequence := (rd s (h + 2)).toNat } ∧
    rd t h = rd s h ∧ rd t (h + 1) = rd s h ∧ rd t (h + 2) = rd s (h + 2)) ∧
  ((rd s h).toNat < z → (rd s (h + 2)).toNat ≠ 0 → (rd s (h + 1)).toNat < z →
    ringCopy t n = some { head := (rd s h).toNat, tail := (rd s (h + 1)).toNat, sequence := (rd s (h + 2)).toNat } ∧
    rd t h = rd s h ∧ rd t (h + 1) = rd s (h + 1) ∧ rd t (h + 2) = rd s (h + 2))

theorem ringCopy_noted (n : RingName) (r : RingCopy) (e f : Bool) (v : State) :
    ringCopy (setRingCopy n r (noteRing n e f v)) n = some r := by cases n <;> rfl

theorem rd_noted (n : RingName) (r : RingCopy) (e f : Bool) (v : State) (a : Nat) :
    rd (setRingCopy n r (noteRing n e f v)) a = rd v a := (setRingCopy_rd n r _ a).trans (noteRing_rd n e f v a)

/-- The control words of a ring, from its head word on. -/
theorem ringControl_words (n : RingName) :
    ringControl n = ((ringControl n).1, (ringControl n).1 + 1, (ringControl n).1 + 2) := by cases n <;> rfl

/-- R172: a ring's head and tail words after it has been emptied. -/
theorem rd_emptied (hm : MemWf s.mem) (h : Nat) : rd (wr (wr s h 0) (h + 1) 0) h = 0 ∧
    rd (wr (wr s h 0) (h + 1) 0) (h + 1) = 0 ∧ rd (wr (wr s h 0) (h + 1) 0) (h + 2) = rd s (h + 2) :=
  ⟨(rd_wr_other _ _ _ _ (by omega)).trans (rd_wr_same s h 0 hm), rd_wr_same _ _ _ (wr_wf _ _ _ hm),
    (rd_wr_other _ _ _ _ (by omega)).trans (rd_wr_other s _ _ _ (by omega))⟩

/-- R172: the control words of a ring that is emptied with its next sequence 0. -/
theorem rd_restarted (hm : MemWf s.mem) (h : Nat) : rd (wr (wr (wr s h 0) (h + 1) 0) (h + 2) 1) h = 0 ∧
    rd (wr (wr (wr s h 0) (h + 1) 0) (h + 2) 1) (h + 1) = 0 ∧ rd (wr (wr (wr s h 0) (h + 1) 0) (h + 2) 1) (h + 2) = 1 := by
  obtain ⟨h₀, h₁, -⟩ := rd_emptied hm h
  exact ⟨(rd_wr_other _ _ _ _ (by omega)).trans h₀, (rd_wr_other _ _ _ _ (by omega)).trans h₁,
    rd_wr_same _ _ _ (wr_wf _ _ _ (wr_wf _ _ _ hm))⟩

theorem validateRing_eq {n : RingName} {h : Nat} (hh : (ringControl n).1 = h) (s : State) : validateRing n s =
    if ringSize n ≤ (rd s h).toNat then
      setRingCopy n { head := 0, tail := 0, sequence := if (rd s (h + 2)).toNat = 0 then 1 else (rd s (h + 2)).toNat }
        (noteRing n true false (if (rd s (h + 2)).toNat = 0 then wr (wr (wr s h 0) (h + 1) 0) (h + 2) 1
          else wr (wr s h 0) (h + 1) 0))
    else if (rd s (h + 2)).toNat = 0 then
      setRingCopy n { head := 0, tail := 0, sequence := 1 } (noteRing n true false (wr (wr (wr s h 0) (h + 1) 0) (h + 2) 1))
    else if ringSize n ≤ (rd s (h + 1)).toNat then
      setRingCopy n { head := (rd s h).toNat, tail := (rd s h).toNat, sequence := (rd s (h + 2)).toNat }
        (noteRing n false true (wr s (h + 1) (wordOf (rd s h).toNat)))
    else
      setRingCopy n { head := (rd s h).toNat, tail := (rd s (h + 1)).toNat, sequence := (rd s (h + 2)).toNat }
        (noteRing n false false s) := by
  rw [validateRing, ringControl_words n, hh]

/-- R172: a ring that is emptied. -/
theorem validateRing_empties (hm : MemWf s.mem) {n : RingName} {h : Nat} (hh : (ringControl n).1 = h)
    (he : ringSize n ≤ (rd s h).toNat ∨ (rd s (h + 2)).toNat = 0) :
    ringCopy (validateRing n s) n = some { head := 0, tail := 0, sequence := max (rd s (h + 2)).toNat 1 } ∧
    rd (validateRing n s) h = 0 ∧ rd (validateRing n s) (h + 1) = 0 ∧
    rd (validateRing n s) (h + 2) = wordOf (max (rd s (h + 2)).toNat 1) := by
  rw [validateRing_eq hh]
  by_cases hq : (rd s (h + 2)).toNat = 0
  · obtain ⟨h₀, h₁, h₂⟩ := rd_restarted hm h
    have hone : max (rd s (h + 2)).toNat 1 = 1 := by omega
    simp only [hq, if_true, ringCopy_noted, rd_noted, ite_self]
    exact ⟨rfl, h₀, h₁, h₂⟩
  · obtain ⟨h₀, h₁, h₂⟩ := rd_emptied hm h
    have hmax : max (rd s (h + 2)).toNat 1 = (rd s (h + 2)).toNat := by omega
    rw [if_pos (he.resolve_right hq), if_neg hq, if_neg hq, hmax, wordOf_rd]
    simp only [ringCopy_noted, rd_noted]
    exact ⟨trivial, h₀, h₁, h₂⟩

theorem validateRing_validated (hm : MemWf s.mem) {n : RingName} {h : Nat} (hh : (ringControl n).1 = h) :
    RingValidated n h (ringSize n) s (validateRing n s) := by
  refine ⟨validateRing_empties hm hh, fun hhead hq htail => ?_, fun hhead hq htail => ?_⟩
  · rw [validateRing_eq hh, if_neg (by omega), if_neg hq, if_pos htail]
    simp only [ringCopy_noted, rd_noted]
    exact ⟨trivial, rd_wr_other s _ _ _ (by omega), (rd_wr_same s _ _ hm).trans (wordOf_rd s h), rd_wr_other s _ _ _ (by omega)⟩
  · rw [validateRing_eq hh, if_neg (by omega), if_neg hq, if_neg (by omega)]
    simp only [ringCopy_noted, rd_noted]
    exact ⟨trivial, trivial, trivial, trivial⟩

end Sys2Proof.Machine


/-! ## The start-up steps 5 to 7: the obligation (R149, R170, R172) -/

namespace Sys2Proof.Machine

variable {s t u v b : State} {k : Nat}

/-! The rings. -/

theorem noted_kept {ws : List Nat} (h : WordsKept ws s v) (n : RingName) (r : RingCopy) (e f : Bool) :
    WordsKept ws s (setRingCopy n r (noteRing n e f v)) := fun a ha => (rd_noted n r e f v a).trans (h a ha)

theorem validateRing_words {n : RingName} {h : Nat} (hh : (ringControl n).1 = h) (s : State) :
    WordsKept [h, h + 1, h + 2] s (validateRing n s) := by
  have hone (w : Word) (y : State) : WordsKept [h, h + 1, h + 2] y (wr y (h + 1) w) := fun a ha =>
    wordsKept_wr y _ w a fun c => ha (by rw [List.mem_singleton.1 c]; simp)
  have hemptied : WordsKept [h, h + 1, h + 2] s (wr (wr s h 0) (h + 1) 0) := fun a ha =>
    (hone 0 (wr s h 0) a ha).trans (wordsKept_wr s _ 0 a fun c => ha (by rw [List.mem_singleton.1 c]; simp))
  have hrestarted : WordsKept [h, h + 1, h + 2] s (wr (wr (wr s h 0) (h + 1) 0) (h + 2) 1) := fun a ha =>
    (wordsKept_wr _ _ 1 a fun c => ha (by rw [List.mem_singleton.1 c]; simp)).trans (hemptied a ha)
  rw [validateRing_eq hh]
  split
  · refine noted_kept ?_ _ _ _ _
    split
    · exact hrestarted
    · exact hemptied
  split
  · exact noted_kept hrestarted _ _ _ _
  split
  · exact noted_kept (hone _ s) _ _ _ _
  · exact noted_kept (WordsKept.refl s) _ _ _ _

theorem ringCopy_noted_other {n m : RingName} (h : m ≠ n) (r : RingCopy) (e f : Bool) (v : State) :
    ringCopy (setRingCopy n r (noteRing n e f v)) m = ringCopy v m := by
  cases n <;> cases m
  · exact absurd rfl h
  · rfl
  · rfl
  · exact absurd rfl h

theorem validateRing_copy_other {n m : RingName} (h : m ≠ n) (s : State) : ringCopy (validateRing n s) m = ringCopy s m := by
  rw [validateRing_eq rfl]
  split
  · rw [ringCopy_noted_other h]
    split <;> cases m <;> rfl
  split
  · rw [ringCopy_noted_other h]
    cases m <;> rfl
  split
  · rw [ringCopy_noted_other h]
    cases m <;> rfl
  · rw [ringCopy_noted_other h]

/-- A ring stays validated while its control words and its copy stand. -/
theorem RingValidated.congr {n : RingName} {h z : Nat} (hv : RingValidated n h z v u)
    (hs : ∀ x, x < 3 → rd v (h + x) = rd s (h + x)) (ht : ∀ x, x < 3 → rd t (h + x) = rd u (h + x))
    (hc : ringCopy t n = ringCopy u n) : RingValidated n h z s t := by
  have h₀ : rd v h = rd s h := hs 0 (by decide)
  have k₀ : rd t h = rd u h := ht 0 (by decide)
  unfold RingValidated at *
  rw [hc, k₀, ht 1 (by decide), ht 2 (by decide), ← h₀, ← hs 1 (by decide), ← hs 2 (by decide)]
  exact hv

theorem validateRings_unloaded (hl : s.writer.log = none) :
    validateRings s = validateRing .journal (validateRing .log (partRead s)) := by
  unfold validateRings
  rw [hl]

theorem validateRings_words (hl : s.writer.log = none) :
    WordsKept [0x120, 0x121, 0x122, 0x123, 0x124, 0x125] s (validateRings s) := fun a ha => by
  rw [validateRings_unloaded hl]
  exact (validateRing_words (n := .journal) (h := 0x123) rfl _ a fun h => ha (by simp at h ⊢; omega)).trans
    (validateRing_words (n := .log) (h := 0x120) rfl (partRead s) a fun h => ha (by simp at h ⊢; omega))

/-- R172: both rings are validated, each by its own words. -/
theorem validateRings_validated (hm : MemWf s.mem) (hl : s.writer.log = none) :
    RingValidated .log 0x120 512 s (validateRings s) ∧ RingValidated .journal 0x123 1024 s (validateRings s) := by
  have hlog := validateRing_validated (s := partRead s) hm (n := .log) (h := 0x120) rfl
  have hlogWords := validateRing_words (n := .log) (h := 0x120) rfl (partRead s)
  have hwf := validateRing_wf .log (partRead s) hm
  rw [validateRings_unloaded hl]
  generalize validateRing .log (partRead s) = y at *
  have hjournalWords := validateRing_words (n := .journal) (h := 0x123) rfl y
  refine ⟨hlog.congr (fun _ _ => rfl) (fun x hx => hjournalWords _ fun h => ?_) (validateRing_copy_other (by decide) y),
    (validateRing_validated hwf (n := .journal) (h := 0x123) rfl).congr (fun x hx => ?_) (fun _ _ => rfl) rfl⟩
  · simp at h
    omega
  · refine (hlogWords _ fun h => ?_).trans rfl
    simp at h
    omega

/-! The close (R170). -/

theorem resumeClose_closing (h : rd s 0x126 = 1) : resumeClose s =
    { (if 4096 < (rd s 0x127).toNat then wr (partRead s) 0x127 (wordOf 4096) else partRead s) with
      close := { s.close with
        copy := some { status := .closing, cursor := min (rd s 0x127).toNat 4096, number := (rd s 0x128).toNat }
        resumed := true, statements := 0 } } := by
  have hone : (rd (partRead s) closeStatusWord).toNat = 1 := congrArg BitVec.toNat h
  unfold resumeClose
  dsimp only
  rw [if_pos hone]
  by_cases hc : 4096 < (rd s 0x127).toNat
  · rw [if_pos hc, if_pos (show subscriberCount < (rd (partRead s) closeCursorWord).toNat from hc)]
    rfl
  · rw [if_neg hc, if_neg (show ¬subscriberCount < (rd (partRead s) closeCursorWord).toNat from hc)]
    rfl

theorem resumeClose_idle (h : rd s 0x126 ≠ 1) : resumeClose s =
    { (if (rd s 0x126).toNat = 0 then partRead s else wr (partRead s) 0x126 0) with
      close := { s.close with
        copy := some { status := .idle, cursor := (rd s 0x127).toNat, number := (rd s 0x128).toNat } } } := by
  have hone : ¬(rd (partRead s) closeStatusWord).toNat = 1 := fun c => h (BitVec.eq_of_toNat_eq c)
  unfold resumeClose
  dsimp only
  rw [if_neg hone]
  by_cases hc : (rd s 0x126).toNat = 0
  · rw [if_pos hc, if_pos (show (rd (partRead s) closeStatusWord).toNat = 0 from hc)]
    rfl
  · rw [if_neg hc, if_neg (show ¬(rd (partRead s) closeStatusWord).toNat = 0 from hc)]
    rfl

/-- Settles O59, by each step's own records. -/
theorem startupRestoresSlotsRingsAndClose : Obligations.StartupRestoresSlotsRingsAndClose := by
  unfold Obligations.StartupRestoresSlotsRingsAndClose
  refine ⟨fun s hm h5 => ?_, ⟨fun r l s h6 hlog hjournal => ?_, fun s hm h6 hlog hjournal => ?_⟩, fun s hm h7 => ?_⟩
  · have hreloaded (k : Nat) (hk : k < 8) : SlotReloaded k s (reloadSlots s) :=
      (slotsReloaded (s := partRead s) hm List.nodup_range (List.mem_range.2 hk)).congr (fun _ _ => rfl) (fun _ _ => rfl) rfl
    have hkept := reloadSlots_kept s
    have hframe : reloadSlots s = { s with
        mem := (reloadSlots s).mem, port := (reloadSlots s).port
        slots := { s.slots with armed := (reloadSlots s).slots.armed } } := reloadSlots_frame (List.range 8) (partRead s)
    have hexec : exec .slotReload s = .next (toStartStep 6 (reloadSlots s)) := congrArg Host.Outcome.next (startStep_at h5 _)
    generalize reloadSlots s = v at *
    refine ⟨_, hexec, ?_, hreloaded, hkept, ?_⟩
    · rw [hframe]
      rfl
    · rw [hframe]
      rfl
  · refine congrArg Host.Outcome.next ((startStep_at h6 _).trans ?_)
    rw [validateRings_loaded hlog hjournal]
    rfl
  · have hframe := validateRings_frame s
    have hring : RingLaw s := ⟨fun n r h => by cases n <;> simp_all [ringCopy], iff_of_true hlog hjournal⟩
    have hvring := validateRings_ring hring
    have hkept := validateRings_words hlog
    obtain ⟨hvlog, hvjournal⟩ := validateRings_validated hm hlog
    have hexec : exec .ringControlValidation s = .next (toStartStep 7 (validateRings s)) :=
      congrArg Host.Outcome.next (startStep_at h6 _)
    generalize validateRings s = v at *
    refine ⟨_, hexec, ?_, fun n h q z hn hq => ?_, hvring, hkept, ?_⟩
    · rw [hframe]
      rfl
    · subst hq
      rcases hn with ⟨rfl, rfl, rfl⟩ | ⟨rfl, rfl, rfl⟩
      · exact hvlog
      · exact hvjournal
    · rw [hframe]
      rfl
  · have hexec : exec .closeResumption s = .next (toStartStep 8 (resumeClose s)) := congrArg Host.Outcome.next (startStep_at h7 _)
    by_cases h1 : rd s 0x126 = 1
    · rw [resumeClose_closing h1] at hexec
      refine ⟨_, hexec, ?_, fun _ => ⟨rfl, ?_, fun a ha => ?_⟩, fun h => absurd h1 h, ?_⟩
      · split <;> rfl
      · by_cases hc : 4096 < (rd s 0x127).toNat
        · rw [if_pos hc, Nat.min_eq_right (by omega)]
          exact rd_wr_same (partRead s) _ _ hm
        · rw [if_neg hc, Nat.min_eq_left (by omega), wordOf_rd]
          rfl
      · split
        · exact wordsKept_wr (partRead s) _ _ a ha
        · rfl
      · split <;> rfl
    · rw [resumeClose_idle h1] at hexec
      refine ⟨_, hexec, ?_, fun h => absurd h h1, fun _ => ⟨rfl, ?_, fun a ha => ?_⟩, ?_⟩
      · split <;> rfl
      · by_cases hz : (rd s 0x126).toNat = 0
        · rw [if_pos hz]
          exact BitVec.eq_of_toNat_eq hz
        · rw [if_neg hz]
          exact rd_wr_same (partRead s) _ _ hm
      · split
        · rfl
        · exact wordsKept_wr (partRead s) _ _ a ha
      · split <;> rfl

end Sys2Proof.Machine


/-! ## The minute tick's receivers: the Meter Engine and the close alarm (R138, R139, R160 to R163) -/

namespace Sys2Proof.Machine

variable {s t u v b : State}

/-! Records told from a state whose Writer and whose time agree. -/

theorem Logged.of_time {k : LogKind} {x a c d : Nat} (h : Logged k x a c d b u) (hw : b.writer = s.writer)
    (hv : b.clock.valid = s.clock.valid) (ht : currentStamp b = currentStamp s) : Logged k x a c d s u := by
  unfold Logged RecordAt at h ⊢
  rwa [hw, hv, ht] at h

/-! Event flags. -/

theorem latched_report (f : Flag) (v : State) : (report f v).flags.getLsbD f.bit = true := by
  have hmask : f.mask.getLsbD f.bit = true := by cases f <;> decide
  show (v.flags ||| f.mask).getLsbD f.bit = true
  rw [BitVec.getLsbD_or, hmask, Bool.or_true]

/-! The close alarm (R138, R160). -/

theorem alarmMatches_iff (p : Plan) (c : Calendar) : alarmMatches p c = true ↔ AlarmMatches p c := by
  have hall (o : Option Nat) (n : Nat) : (o.all fun d => decide (d = n)) = true ↔ o = none ∨ o = some n := by
    cases o <;> simp
  rw [alarmMatches, Bool.and_eq_true, Bool.and_eq_true, hall, hall, hall, AlarmMatches, and_assoc]

/-- R138: the tick finds VALID set and matches the alarm of the working copy. -/
def TickMatches (k : Tick) (b : State) : Prop := k.valid = true ∧ ∃ p, b.plan.copy = some p ∧ AlarmMatches p k.fields

theorem testAlarm_of_idle {k : Tick} (h : TickMatches k b) (hs : closeStatus b = .idle) :
    testAlarm k b = beginClose none b := by
  obtain ⟨hv, p, hp, hm⟩ := h
  unfold testAlarm
  simp only [hp, hs]
  exact if_pos ⟨hv, (alarmMatches_iff p k.fields).2 hm⟩

theorem testAlarm_of_closing {k : Tick} (h : TickMatches k b) (hs : closeStatus b = .closing) :
    testAlarm k b = lateTrigger b := by
  obtain ⟨hv, p, hp, hm⟩ := h
  unfold testAlarm
  simp only [hp, hs]
  exact if_pos ⟨hv, (alarmMatches_iff p k.fields).2 hm⟩

theorem testAlarm_of_no_match {k : Tick} (h : ¬TickMatches k b) : testAlarm k b = b := by
  unfold testAlarm
  cases hp : b.plan.copy with
  | none => rfl
  | some p => exact if_neg fun c => h ⟨c.1, p, hp, (alarmMatches_iff p k.fields).1 c.2⟩

/-- R160, R162, R163: what a test of the close alarm leaves, a match or none. -/
structure AlarmTested (isMatch : Prop) (b v : State) : Prop where
  kept : KeptOutside (withRings [0x126, 0x127, 0x128]) b v
  frame : v = { b with mem := v.mem, port := v.port, close := v.close, writer := v.writer, flags := v.flags }
  copy : b.close.copy = none → v.close.copy = none
  noted : v.close.noted = b.close.noted
  quiet : ¬isMatch → v = b
  idle : isMatch → ∀ k, b.close.copy = some k → k.status = .idle →
    v.close = begunClose none (nextCloseNumber k.number) b.close ∧ rd v 0x126 = 1 ∧ rd v 0x127 = 0 ∧
    rd v 0x128 = wordOf (nextCloseNumber k.number) ∧ Logged .closeBegin (nextCloseNumber k.number) 0 65535 0 b v
  closing : isMatch → ∀ k, b.close.copy = some k → k.status = .closing →
    v.close = b.close ∧ v.flags.getLsbD 15 = true ∧ KeptOutside ringPlace b v ∧
    Logged .closeLate k.number k.cursor (if b.close.stalled then 1 else 0) 0 b v

theorem closePlace_ring {a : Nat} (h : 0x126 ≤ a ∧ a ≤ 0x128) : ringPlace a = false := by
  rw [ringPlace_eq_false_iff]
  omega

/-- R162: a close that begins at the alarm. -/
theorem alarmTested_begin {c : CloseCopy} {isMatch : Prop} (hm : MemWf b.mem) (hring : RingLaw b) (h : b.close.copy = some c)
    (hs : c.status = .idle) (hmatch : isMatch) : AlarmTested isMatch b (beginClose none b) := by
  have hframe := closeBegun_frame none (nextCloseNumber c.number) b
  have hwf := closeBegun_wf hm none (nextCloseNumber c.number)
  have hkept := closeBegun_kept none (nextCloseNumber c.number) b
  have hrd {a : Nat} {w : Word} (ha : (a, w) ∈ beginWords (nextCloseNumber c.number)) := rd_closeBegun hm ha none
  rw [beginClose_alarm h]
  generalize closeBegun none (nextCloseNumber c.number) b = y at *
  have hlog := logAppend_kept (ringLaw_of_writer (t := y) hring (by rw [hframe])) .closeBegin (nextCloseNumber c.number) 0 65535 0
  have hlframe := logAppend_frame .closeBegin (nextCloseNumber c.number) 0 65535 0 y
  have hlogged : Logged .closeBegin (nextCloseNumber c.number) 0 65535 0 b
      (logAppend .closeBegin (nextCloseNumber c.number) 0 65535 0 y) :=
    logged_logAppend hwf hring (by rw [hframe]) (by rw [hframe]) (fun _ _ => rfl) rfl
  generalize logAppend .closeBegin (nextCloseNumber c.number) 0 65535 0 y = v at *
  refine ⟨(hkept.withRings fun x hx => ?_).trans hlog.withRings, ?_, fun hnone => ?_, ?_, fun hno => absurd hmatch hno,
    fun _ k hk _ => ?_, fun _ k hk hc => ?_⟩
  · simp at hx ⊢
    tauto
  · rw [hlframe, hframe]
  · rw [hnone] at h
    cases h
  · rw [hlframe, hframe]
    rfl
  · obtain rfl : c = k := Option.some.inj (h.symm.trans hk)
    refine ⟨by rw [hlframe, hframe], (hlog _ (closePlace_ring (by decide))).trans (hrd ?_),
      (hlog _ (closePlace_ring (by decide))).trans (hrd ?_), (hlog _ (closePlace_ring (by decide))).trans (hrd ?_), hlogged⟩
    · exact List.mem_cons_of_mem _ (List.mem_cons_of_mem _ List.mem_cons_self)
    · exact List.mem_cons_of_mem _ List.mem_cons_self
    · exact List.mem_cons_self
  · obtain rfl : c = k := Option.some.inj (h.symm.trans hk)
    rw [hs] at hc
    cases hc

/-- R162: with no copies loaded a close that begins is logged alone. -/
theorem alarmTested_unloaded {isMatch : Prop} (hring : RingLaw b) (h : b.close.copy = none) (hmatch : isMatch) :
    AlarmTested isMatch b (beginClose none b) := by
  have hbegin : beginClose none b = logAppend .closeBegin (nextCloseNumber 0) 0 0xFFFF 0
      { b with close := { b.close with statements := 0, resumed := false, stalled := false, bound := none } } := by
    unfold beginClose
    simp only [setCloseNumber, setCloseCursor, setCloseStatus, closeNumber, h]
  have hlog := logAppend_kept (s := { b with close := { b.close with
    statements := 0, resumed := false, stalled := false, bound := none } }) hring .closeBegin (nextCloseNumber 0) 0 0xFFFF 0
  have hlframe := logAppend_frame .closeBegin (nextCloseNumber 0) 0 0xFFFF 0
    { b with close := { b.close with statements := 0, resumed := false, stalled := false, bound := none } }
  rw [hbegin]
  generalize logAppend .closeBegin (nextCloseNumber 0) 0 0xFFFF 0
    { b with close := { b.close with statements := 0, resumed := false, stalled := false, bound := none } } = v at *
  refine ⟨KeptOutside.withRings fun a ha => hlog a ha, ?_, fun _ => ?_, ?_, fun hno => absurd hmatch hno, fun _ k hk => ?_, fun _ k hk => ?_⟩
  · rw [hlframe]
  · rw [hlframe]
    exact h
  · rw [hlframe]
  · rw [h] at hk
    cases hk
  · rw [h] at hk
    cases hk

/-- R163: a trigger that finds a close in progress. -/
theorem alarmTested_late {c : CloseCopy} {isMatch : Prop} (hm : MemWf b.mem) (hring : RingLaw b) (h : b.close.copy = some c)
    (hs : c.status = .closing) (hmatch : isMatch) : AlarmTested isMatch b (lateTrigger b) := by
  have hlate : lateTrigger b = report .closeLate
      (logAppend .closeLate c.number c.cursor (if b.close.stalled then 1 else 0) 0 b) := by
    unfold lateTrigger
    rw [closeNumber_of_copy h, closeCursor_of_copy h]
  have hlog := logAppend_kept hring .closeLate c.number c.cursor (if b.close.stalled then 1 else 0) 0
  have hlframe := logAppend_frame .closeLate c.number c.cursor (if b.close.stalled then 1 else 0) 0 b
  have hlogged : Logged .closeLate c.number c.cursor (if b.close.stalled then 1 else 0) 0 b
      (logAppend .closeLate c.number c.cursor (if b.close.stalled then 1 else 0) 0 b) :=
    logged_logAppend hm hring rfl rfl (fun _ _ => rfl) rfl
  rw [hlate]
  generalize logAppend .closeLate c.number c.cursor (if b.close.stalled then 1 else 0) 0 b = v at *
  refine ⟨KeptOutside.withRings hlog, ?_, fun hnone => ?_, ?_, fun hno => absurd hmatch hno, fun _ k hk hc => ?_, fun _ k hk _ => ?_⟩
  · rw [hlframe]
    rfl
  · rw [hlframe]
    exact hnone
  · rw [hlframe]
    rfl
  · obtain rfl : c = k := Option.some.inj (h.symm.trans hk)
    rw [hs] at hc
    cases hc
  · obtain rfl : c = k := Option.some.inj (h.symm.trans hk)
    exact ⟨by rw [hlframe]; rfl, latched_report .closeLate v, hlog, hlogged⟩

/-- R138, R160: the alarm has been tested by a tick. -/
theorem alarmTested (hm : MemWf b.mem) (hring : RingLaw b) (k : Tick) : AlarmTested (TickMatches k b) b (testAlarm k b) := by
  by_cases h : TickMatches k b
  · cases hc : b.close.copy with
    | none =>
      rw [testAlarm_of_idle h (by simp only [closeStatus, hc])]
      exact alarmTested_unloaded hring hc h
    | some c =>
      cases hs : c.status with
      | idle =>
        rw [testAlarm_of_idle h ((closeStatus_of_copy hc).trans hs)]
        exact alarmTested_begin hm hring hc hs h
      | closing =>
        rw [testAlarm_of_closing h ((closeStatus_of_copy hc).trans hs)]
        exact alarmTested_late hm hring hc hs h
  · rw [testAlarm_of_no_match h]
    exact ⟨KeptOutside.refl b, rfl, id, rfl, fun _ => rfl, fun hyes => absurd hyes h, fun hyes => absurd hyes h⟩

/-- What the test of the alarm says, told from a state with the same Close Engine and close words. -/
theorem AlarmTested.taken {isMatch : Prop} (h : AlarmTested isMatch b v) (hc : b.close = s.close)
    (hw : ∀ a, 0x126 ≤ a → a ≤ 0x128 → rd b a = rd s a) (htc : t.close = { v.close with noted := t.close.noted })
    (htm : t.mem = v.mem) (htf : t.flags = v.flags) : AlarmTaken isMatch s t := by
  have hrd (a : Nat) : rd t a = rd v a := rd_congr htm a
  refine ⟨fun hmatch k n hk hn => ⟨fun hs => ?_, fun hs => ?_⟩, fun hnone => ?_, fun hno => ?_⟩
  · obtain ⟨hclose, h₁, h₂, h₃, -⟩ := h.idle hmatch k (hc ▸ hk) hs
    rw [hclose, hc] at htc
    subst hn
    exact ⟨htc, (hrd _).trans h₁, (hrd _).trans h₂, (hrd _).trans h₃⟩
  · obtain ⟨hclose, h₁, h₂, -⟩ := h.closing hmatch k (hc ▸ hk) hs
    rw [hclose, hc] at htc
    exact ⟨htc, by rw [htf]; exact h₁, fun a ha ha' => (hrd a).trans ((h₂ a (closePlace_ring ⟨ha, ha'⟩)).trans (hw a ha ha'))⟩
  · rw [htc]
    exact h.copy (hc ▸ hnone)
  · obtain rfl := h.quiet hno
    rw [hc] at htc
    exact ⟨htc, fun a ha ha' => (hrd a).trans (hw a ha ha')⟩

end Sys2Proof.Machine


/-! ## MINUTE_TICK: the meter, the slots and the alarm (R131, R139, R148, R160) -/

namespace Sys2Proof.Machine

variable {s t u v b : State}

/-- The part with its waiting ticks replaced. -/
def withTicks (rest : List Tick) (s : State) : State := { s with clock := { s.clock with ticks := rest } }

theorem exec_minuteTick {m : Tick} {rest : List Tick} (hr : running s = true) (hticks : s.clock.ticks = m :: rest) :
    exec .minuteTick s = .next (concluded s (validTick m (meterTick (withTicks rest s)))) := by
  have htakes : takesTicks s = true := by
    simp only [running, Bool.and_eq_true] at hr
    simp only [takesTicks, Bool.and_eq_true]
    exact hr.1
  show execMinuteTick s = _
  unfold execMinuteTick
  rw [hticks]
  simp only [htakes, if_true, handTick, hr]
  rfl

theorem Logged.withTicks {k : LogKind} {x a c d : Nat} {rest : List Tick} (h : Logged k x a c d (withTicks rest s) u) :
    Logged k x a c d s u := h.of_time rfl rfl rfl

/-! The minute owed or lost (R139). -/

/-- R139: the minute of a tick is owed, or lost with METER_LAG. -/
structure MinuteMetered (rest : List Tick) (s y : State) : Prop where
  kept : KeptOutside ringPlace s y
  frame : y = { s with
    mem := y.mem, port := y.port, clock := { s.clock with ticks := rest }, meter := y.meter, writer := y.writer
    flags := y.flags }
  counted : s.meter.owed < 15 → y = { withTicks rest s with meter := { s.meter with owed := s.meter.owed + 1 } }
  lost : 15 ≤ s.meter.owed → y.meter = { s.meter with lost := min (s.meter.lost + 1) 65535 } ∧
    y.flags.getLsbD 10 = true ∧
    Logged .meterLag (if s.meter.running then s.meter.cursor else 65535) 15 (min (s.meter.lost + 1) 65535) 0 s y

theorem minuteMetered (hm : MemWf s.mem) (hring : RingLaw s) (rest : List Tick) :
    MinuteMetered rest s (meterTick (withTicks rest s)) := by
  by_cases howed : s.meter.owed < 15
  · have hy : meterTick (withTicks rest s) =
        { withTicks rest s with meter := { s.meter with owed := s.meter.owed + 1 } } := if_pos howed
    rw [hy]
    exact ⟨fun _ _ => rfl, rfl, fun _ => rfl, fun h => absurd h (Nat.not_le.2 howed)⟩
  · have hy : meterTick (withTicks rest s) = report .meterLag (logAppend .meterLag
        (if s.meter.running then s.meter.cursor else 65535) 15 (min (s.meter.lost + 1) 65535) 0
        { withTicks rest s with meter := { s.meter with lost := min (s.meter.lost + 1) 65535 } }) := if_neg howed
    have hlogged : ∀ b : State, MemWf b.mem → b.writer = s.writer → b.clock = (withTicks rest s).clock →
        Logged .meterLag (if s.meter.running then s.meter.cursor else 65535) 15 (min (s.meter.lost + 1) 65535) 0 s
          (logAppend .meterLag (if s.meter.running then s.meter.cursor else 65535) 15 (min (s.meter.lost + 1) 65535) 0 b) :=
      fun b hb hw hc => (logged_logAppend (s := withTicks rest s) hb hring hw hc (fun _ _ => rfl) rfl).withTicks
    have hlog := logAppend_kept (s := { withTicks rest s with meter := { s.meter with lost := min (s.meter.lost + 1) 65535 } })
      hring .meterLag (if s.meter.running then s.meter.cursor else 65535) 15 (min (s.meter.lost + 1) 65535) 0
    have hframe := logAppend_frame .meterLag (if s.meter.running then s.meter.cursor else 65535) 15
      (min (s.meter.lost + 1) 65535) 0
      { withTicks rest s with meter := { s.meter with lost := min (s.meter.lost + 1) 65535 } }
    have hrecord := hlogged { withTicks rest s with meter := { s.meter with lost := min (s.meter.lost + 1) 65535 } } hm rfl rfl
    rw [hy]
    generalize logAppend .meterLag _ _ _ _ _ = v at *
    refine ⟨hlog, ?_, fun h => absurd h howed, fun _ => ⟨?_, latched_report .meterLag v, hrecord⟩⟩
    · rw [hframe]
      rfl
    · rw [hframe]
      rfl

/-! What a tick leaves in the slots and the Close Engine. -/

/-- R27, R131: the receivers of a tick other than the meter, told from the state the tick found. -/
structure TickTaken (m : Tick) (s y u : State) : Prop where
  clock : u.clock = y.clock
  meter : u.meter = y.meter
  logged : m.valid = false → u = y
  quiet : m.valid = false ∨ s.part.state = .starting → SlotsKept s u ∧ u.sched = s.sched
  evaluated : m.valid = true → s.part.state ≠ .starting →
    SlotsEvaluated (stampOf m.fields) s u ∧ u.sched = sweepsOpened (openedSweeps s (stampOf m.fields)) s
  slotsNoted : u.slots.noted = (s.slots.noted || (m.valid && decide (s.part.state = .starting)))
  closeNoted : u.close.noted = (s.close.noted || (m.valid && decide (s.part.state = .starting)))
  kept : KeptOutside (withRings ([0x126, 0x127, 0x128] ++ slotStateWords)) s u
  frame : u = { s with
    mem := u.mem, port := u.port, clock := u.clock, meter := u.meter, slots := u.slots, close := u.close
    sched := u.sched, writer := u.writer, flags := u.flags }

/-- Only a valid tick outside STARTING is matched with the alarm. -/
theorem not_isMatch {isMatch : Prop} {m : Tick} {P : Prop} (h : isMatch ↔ m.valid = true ∧ s.part.state ≠ .starting ∧ P)
    (hq : m.valid = false ∨ s.part.state = .starting) : ¬isMatch := fun hyes => by
  obtain ⟨hv, hst, -⟩ := h.1 hyes
  exact hq.elim (fun hno => Bool.noConfusion (hno.symm.trans hv)) hst

theorem alarmTaken_of_quiet {isMatch : Prop} (hno : ¬isMatch) (hclose : u.close = { s.close with noted := u.close.noted })
    (hk : KeptOutside ringPlace s u) : AlarmTaken isMatch s u := by
  refine ⟨fun hyes => absurd hyes hno, fun hnone => ?_, fun _ => ⟨hclose, fun a h₁ h₂ => hk a (closePlace_ring ⟨h₁, h₂⟩)⟩⟩
  rw [hclose]
  exact hnone

variable {rest : List Tick} {m : Tick} {y : State}

theorem slotsKept_of_kept (h : KeptOutside ringPlace s u) (ha : u.slots.armed = s.slots.armed) : SlotsKept s u :=
  ⟨ha, fun _ hj => h _ (ringPlace_slotWord hj (by decide))⟩

/-- R131: a tick that finds VALID clear goes to the meter alone. -/
theorem tickTaken_of_invalid (h : MinuteMetered rest s y) (hv : m.valid = false) : TickTaken m s y y := by
  have hslots : y.slots = s.slots := by rw [h.frame]
  have hclose : y.close = s.close := by rw [h.frame]
  refine ⟨rfl, rfl, fun _ => rfl, fun _ => ⟨slotsKept_of_kept h.kept (by rw [hslots]), by rw [h.frame]⟩,
    fun hyes => Bool.noConfusion (hv.symm.trans hyes), ?_, ?_, h.kept.withRings, by rw [h.frame]⟩
  · rw [hslots, hv, Bool.false_and, Bool.or_false]
  · rw [hclose, hv, Bool.false_and, Bool.or_false]

/-- R27: in STARTING a valid tick is noted. -/
theorem tickTaken_of_starting (h : MinuteMetered rest s y) (hv : m.valid = true) (hst : s.part.state = .starting) :
    TickTaken m s y { y with slots := { y.slots with noted := true }, close := { y.close with noted := true } } := by
  have hslots : y.slots = s.slots := by rw [h.frame]
  refine ⟨rfl, rfl, fun hno => Bool.noConfusion (hno.symm.trans hv),
    fun _ => ⟨slotsKept_of_kept h.kept (by rw [← hslots]), ?_⟩, fun _ hno => absurd hst hno, ?_, ?_, h.kept.withRings, ?_⟩
  · show y.sched = s.sched
    rw [h.frame]
  · simp [hv, hst]
  · simp [hv, hst]
  · show _ = { s with mem := y.mem, port := y.port, clock := y.clock, meter := y.meter, slots := _, close := _, sched := y.sched, writer := y.writer, flags := y.flags }
    rw [h.frame]

/-- R148, R160: outside STARTING a valid tick has the slots evaluated and then the alarm tested. -/
theorem tickTaken_of_evaluated (h : MinuteMetered rest s y) (hv : m.valid = true) (hst : s.part.state ≠ .starting)
    (he : EvaluatedIn (List.range 8) (stampOf m.fields) y v) {isMatch : Prop} (ha : AlarmTested isMatch v u) :
    TickTaken m s y u := by
  have hslots : y.slots = s.slots := by rw [h.frame]
  have hsched : y.sched = s.sched := by rw [h.frame]
  have hclose : v.close = s.close := by rw [he.frame, h.frame]
  have huslots : u.slots = v.slots := by rw [ha.frame]
  refine ⟨by rw [ha.frame, he.frame], by rw [ha.frame, he.frame], fun hno => Bool.noConfusion (hno.symm.trans hv),
    fun hno => (hno.elim (fun hno => Bool.noConfusion (hno.symm.trans hv)) fun h => absurd h hst), fun _ _ => ⟨?_, ?_⟩, ?_, ?_,
    ?_, ?_⟩
  · intro j hj
    obtain ⟨hnone, hsome⟩ := he.slotsEvaluated.of_kept hslots h.kept j hj
    have hword : rd u (slotWord j 6) = rd v (slotWord j 6) := ha.kept _ (by
      rw [← Bool.not_eq_true, withRings_iff, ringPlace_slotWord hj (by decide)]
      simp [slotWord]
      omega)
    rw [huslots, hword]
    exact ⟨hnone, hsome⟩
  · have hu : u.sched = v.sched := by rw [ha.frame]
    rw [hu, he.sched, ← openedSweeps, openedSweeps_congr hslots, openSweeps_sched_congr _ hsched]
    rfl
  · rw [huslots, he.frame, hv, decide_eq_false hst, Bool.true_and, Bool.or_false, hslots]
  · rw [ha.noted, hclose, hv, decide_eq_false hst, Bool.true_and, Bool.or_false]
  · exact (h.kept.withRings.trans (he.kept.withRings_mono (List.subset_append_right _ _))).trans
      (ha.kept.withRings_mono (List.subset_append_left _ _))
  · rw [ha.frame, he.frame, h.frame]

end Sys2Proof.Machine


/-! ## Sweeps opened by R81 and R82, and the settlement of O51 -/

namespace Sys2Proof.Machine

variable {s t u v b y : State} {rest : List Tick} {m : Tick} {isMatch : Prop}

/-! The three cases of a tick. -/

theorem validTick_of_invalid (hv : m.valid = false) (y : State) : validTick m y = y := if_pos hv

theorem validTick_of_starting (hv : m.valid = true) (hst : y.part.state = .starting) : validTick m y =
    { y with slots := { y.slots with noted := true }, close := { y.close with noted := true } } :=
  (if_neg (by simp [hv])).trans (if_pos hst)

theorem validTick_of_evaluated (hv : m.valid = true) (hst : y.part.state ≠ .starting) :
    validTick m y = testAlarm m (evaluateSlots (stampOf m.fields) y) :=
  (if_neg (by simp [hv])).trans (if_neg hst)

theorem MinuteMetered.part (h : MinuteMetered rest s y) : y.part = s.part := by rw [h.frame]

theorem MinuteMetered.close (h : MinuteMetered rest s y) : y.close = s.close := by rw [h.frame]

theorem tickMatches_iff (hm : isMatch ↔ m.valid = true ∧ s.part.state ≠ .starting ∧
      ∃ p, s.plan.copy = some p ∧ AlarmMatches p m.fields) (hst : s.part.state ≠ .starting) (hp : v.plan = s.plan) :
    TickMatches m v ↔ isMatch := by
  rw [hm, TickMatches, hp]
  exact ⟨fun ⟨h₁, h₂⟩ => ⟨h₁, hst, h₂⟩, fun ⟨h₁, _, h₂⟩ => ⟨h₁, h₂⟩⟩

/-- The slots and the alarm of a valid tick outside STARTING. -/
theorem evaluated_tested (hmem : MemWf y.mem) (hring : RingLaw y) (hy : MinuteMetered rest s y)
    (hm : isMatch ↔ m.valid = true ∧ s.part.state ≠ .starting ∧ ∃ p, s.plan.copy = some p ∧ AlarmMatches p m.fields)
    (hst : s.part.state ≠ .starting) : ∃ v, v = evaluateSlots (stampOf m.fields) y ∧
      EvaluatedIn (List.range 8) (stampOf m.fields) y v ∧ AlarmTested isMatch v (testAlarm m v) := by
  have hmoves := evaluateSlots_moves (can := fun _ => True) (stampOf m.fields) y
  have he := evaluateSlots_evaluated (stampOf m.fields) hmem hring
  refine ⟨_, rfl, he, ?_⟩
  have ha := alarmTested (hmoves.mem hmem) (hmoves.ring hring) m
  rwa [show TickMatches m (evaluateSlots (stampOf m.fields) y) = isMatch from
    propext (tickMatches_iff hm hst (by rw [he.frame, hy.frame]))] at ha

theorem tickTaken (hmem : MemWf y.mem) (hring : RingLaw y) (hy : MinuteMetered rest s y) :
    TickTaken m s y (validTick m y) := by
  by_cases hv : m.valid = true
  · by_cases hst : s.part.state = .starting
    · rw [validTick_of_starting hv (hy.part ▸ hst)]
      exact tickTaken_of_starting hy hv hst
    · obtain ⟨v, rfl, he, ha⟩ := evaluated_tested (m := m) hmem hring hy Iff.rfl hst
      rw [validTick_of_evaluated hv (hy.part ▸ hst)]
      exact tickTaken_of_evaluated hy hv hst he ha
  · rw [Bool.not_eq_true] at hv
    rw [validTick_of_invalid hv]
    exact tickTaken_of_invalid hy hv

theorem alarmTaken_validTick (hmem : MemWf y.mem) (hring : RingLaw y) (hy : MinuteMetered rest s y)
    (hm : isMatch ↔ m.valid = true ∧ s.part.state ≠ .starting ∧ ∃ p, s.plan.copy = some p ∧ AlarmMatches p m.fields) :
    AlarmTaken isMatch s (validTick m y) := by
  by_cases hv : m.valid = true
  · by_cases hst : s.part.state = .starting
    · rw [validTick_of_starting hv (hy.part ▸ hst)]
      refine alarmTaken_of_quiet (not_isMatch hm (.inr hst)) ?_ hy.kept
      show { y.close with noted := true } = { s.close with noted := true }
      rw [hy.close]
    · obtain ⟨v, hveq, he, ha⟩ := evaluated_tested hmem hring hy hm hst
      rw [validTick_of_evaluated hv (hy.part ▸ hst), ← hveq]
      refine ha.taken (by rw [he.frame, hy.frame]) (fun a h₁ h₂ => ?_) rfl rfl rfl
      have hring : ringPlace a = false := closePlace_ring ⟨h₁, h₂⟩
      refine (he.kept a ?_).trans (hy.kept a hring)
      rw [← Bool.not_eq_true, withRings_iff, hring]
      simp [slotStateWords, slotWord]
      omega
  · rw [Bool.not_eq_true] at hv
    rw [validTick_of_invalid hv]
    exact alarmTaken_of_quiet (not_isMatch hm (.inl hv)) (by rw [hy.close]) hy.kept

/-- R162, R163: an alarm that finds nothing logged before it has its record where the log stands. -/
theorem alarmLogged_validTick (hmem : MemWf y.mem) (hring : RingLaw y) (hy : MinuteMetered rest s y)
    (hm : isMatch ↔ m.valid = true ∧ s.part.state ≠ .starting ∧ ∃ p, s.plan.copy = some p ∧ AlarmMatches p m.fields)
    (hmatch : isMatch) (hnone : openedSweeps s (stampOf m.fields) = []) (howed : s.meter.owed < 15) {k : CloseCopy}
    (hk : s.close.copy = some k) :
    (k.status = .idle →
      Logged .closeBegin (if 65535 ≤ k.number then 1 else k.number + 1) 0 65535 0 s (validTick m y)) ∧
    (k.status = .closing →
      Logged .closeLate k.number k.cursor (if s.close.stalled then 1 else 0) 0 s (validTick m y)) := by
  obtain ⟨hv, hst, -⟩ := hm.1 hmatch
  obtain ⟨v, hveq, -, ha⟩ := evaluated_tested hmem hring hy hm hst
  rw [validTick_of_evaluated hv (hy.part ▸ hst), ← hveq]
  have hvy : v = { withTicks rest s with meter := { s.meter with owed := s.meter.owed + 1 } } := by
    rw [hveq, evaluateSlots_of_no_sweep ((openedSweeps_congr (by rw [hy.frame]) _).trans hnone), hy.counted howed]
  have hclose : v.close = s.close := by rw [hvy]; rfl
  have hwriter : v.writer = s.writer := by rw [hvy]; rfl
  have hvalid : v.clock.valid = s.clock.valid := by rw [hvy]; rfl
  have hstamp : currentStamp v = currentStamp s := by rw [hvy]; rfl
  refine ⟨fun hs => ?_, fun hs => ?_⟩
  · obtain ⟨-, -, -, -, hlog⟩ := ha.idle hmatch k (hclose ▸ hk) hs
    exact hlog.of_time hwriter hvalid hstamp
  · obtain ⟨-, -, -, hlog⟩ := ha.closing hmatch k (hclose ▸ hk) hs
    rw [hclose] at hlog
    exact hlog.of_time hwriter hvalid hstamp

/-! Optional sweeps (R81, R82). -/

theorem optional_iff (k : SweepKind) : k.optional = true ↔ ∃ d₁ d₂ d₃, DropDetails k d₁ d₂ d₃ := by
  cases k <;> simp [SweepKind.optional, DropDetails]

theorem DropDetails.eqs {k : SweepKind} {d₁ d₂ d₃ : Nat} (h : DropDetails k d₁ d₂ d₃) :
    d₁ = k.code ∧ d₂ = k.arguments.1 ∧ d₃ = k.arguments.2 := by
  obtain ⟨rfl, rfl, rfl, rfl⟩ | ⟨rfl, rfl⟩ | ⟨rfl, rfl⟩ := h
  · exact ⟨rfl, rfl, rfl⟩
  · exact ⟨rfl, rfl, rfl⟩
  · exact ⟨rfl, rfl, rfl⟩

theorem DropDetails.optional {k : SweepKind} {d₁ d₂ d₃ : Nat} (h : DropDetails k d₁ d₂ d₃) : k.optional = true :=
  (optional_iff k).2 ⟨d₁, d₂, d₃, h⟩

theorem optional_eq_false {k : SweepKind} (h : ∀ d₁ d₂ d₃, ¬DropDetails k d₁ d₂ d₃) : k.optional = false := by
  rw [← Bool.not_eq_true, optional_iff]
  exact fun ⟨_, _, _, hd⟩ => h _ _ _ hd

/-- R82: what the drop of a sweep leaves. -/
structure Dropped (cursor d₁ d₂ d₃ : Nat) (s t : State) : Prop where
  flag : t.flags.getLsbD 14 = true
  logged : Logged .sweepDrop cursor d₁ d₂ d₃ s t
  kept : KeptOutside ringPlace s t
  frame : t = { s with mem := t.mem, port := t.port, writer := t.writer, flags := t.flags }

theorem dropSweep_dropped {k : SweepKind} {d₁ d₂ d₃ : Nat} (hd : DropDetails k d₁ d₂ d₃) (cursor : Nat)
    (hm : MemWf s.mem) (hring : RingLaw s) : Dropped cursor d₁ d₂ d₃ s (dropSweep k cursor s) := by
  obtain ⟨rfl, rfl, rfl⟩ := hd.eqs
  have hlogged : Logged .sweepDrop cursor k.code k.arguments.1 k.arguments.2 s
      (logAppend .sweepDrop cursor k.code k.arguments.1 k.arguments.2 s) :=
    logged_logAppend hm hring rfl rfl (fun _ _ => rfl) rfl
  have hlog := logAppend_kept hring .sweepDrop cursor k.code k.arguments.1 k.arguments.2
  have hframe := logAppend_frame .sweepDrop cursor k.code k.arguments.1 k.arguments.2 s
  unfold dropSweep
  generalize logAppend .sweepDrop cursor k.code k.arguments.1 k.arguments.2 s = v at *
  refine ⟨latched_report .sweepDrop v, hlogged, hlog, ?_⟩
  rw [hframe]
  rfl

/-! The cases of an opening (R81). -/

variable {k : SweepKind}

theorem any_kind_iff {ws : List Sweep} : (ws.any fun w => decide (w.kind = k)) = true ↔ ∃ w ∈ ws, w.kind = k := by
  simp

theorem openSweep_of_same (h : ∃ w ∈ s.sched.sweeps, w.kind = k) : openSweep k s = { s with sched := { s.sched with
    sweeps := s.sched.sweeps.map fun w => if w.kind = k then newSweep k else w } } :=
  if_pos (any_kind_iff.2 h)

theorem not_any_kind (h : ∀ w ∈ s.sched.sweeps, w.kind ≠ k) : ¬(s.sched.sweeps.any fun w => decide (w.kind = k)) = true :=
  fun hany => by
    obtain ⟨w, hw, hk⟩ := any_kind_iff.1 hany
    exact h w hw hk

theorem not_room (hfull : 4 ≤ s.sched.sweeps.length) : ¬s.sched.sweeps.length < sweepCapacity := Nat.not_lt.2 hfull

theorem openSweep_joins (h : ∀ w ∈ s.sched.sweeps, w.kind ≠ k) (hroom : s.sched.sweeps.length < 4) :
    openSweep k s = { s with sched := { s.sched with sweeps := s.sched.sweeps ++ [newSweep k] } } := by
  unfold openSweep
  exact (if_neg (not_any_kind h)).trans (if_pos hroom)

theorem openSweep_optional_full (h : ∀ w ∈ s.sched.sweeps, w.kind ≠ k) (hfull : 4 ≤ s.sched.sweeps.length)
    (hopt : k.optional = true) : openSweep k s = dropSweep k 0 s := by
  unfold openSweep
  exact (if_neg (not_any_kind h)).trans ((if_neg (not_room hfull)).trans (if_pos hopt))

theorem eraseFirst_append {p : Sweep → Bool} {older newer : List Sweep} {w : Sweep} (h : ∀ v ∈ older, p v = false)
    (hw : p w = true) : eraseFirst p (older ++ w :: newer) = older ++ newer := by
  induction older with
  | nil => exact if_pos hw
  | cons v older ih =>
    have hv : ¬p v = true := by rw [h v List.mem_cons_self]; exact Bool.false_ne_true
    show (if p v then _ else v :: eraseFirst p (older ++ w :: newer)) = _
    rw [if_neg hv, ih fun x hx => h x (List.mem_cons_of_mem _ hx)]
    rfl

/-- R81: a mandatory sweep takes the place of the oldest optional one. -/
theorem openSweep_replaces {older newer : List Sweep} {w : Sweep} (h : ∀ w ∈ s.sched.sweeps, w.kind ≠ k)
    (hfull : 4 ≤ s.sched.sweeps.length) (hk : k.optional = false) (hs : s.sched.sweeps = older ++ w :: newer)
    (hold : ∀ v ∈ older, v.kind.optional = false) (hw : w.kind.optional = true) :
    openSweep k s = { dropSweep w.kind w.cursor s with
      sched := { s.sched with sweeps := older ++ newer ++ [newSweep k] } } := by
  have hfind : s.sched.sweeps.find? (fun w => w.kind.optional) = some w := by
    rw [hs, List.find?_append, List.find?_eq_none.2 (by simpa using hold)]
    exact List.find?_cons_of_pos (p := fun w : Sweep => w.kind.optional) hw
  have hsched : (dropSweep w.kind w.cursor s).sched = s.sched := by
    unfold dropSweep
    show (logAppend _ _ _ _ _ _).sched = _
    rw [logAppend_frame]
  unfold openSweep
  dsimp only
  rw [if_neg (not_any_kind h), if_neg (not_room hfull), if_neg (by rw [hk]; exact Bool.false_ne_true), hfind]
  dsimp only
  rw [hsched, hs, eraseFirst_append (p := fun v => v.kind.optional) hold hw]

/-- R81: four mandatory sweeps and the new one fold into RESYNC. -/
theorem openSweep_folds (h : ∀ w ∈ s.sched.sweeps, w.kind ≠ k) (hfull : 4 ≤ s.sched.sweeps.length)
    (hk : k.optional = false) (hall : ∀ v ∈ s.sched.sweeps, v.kind.optional = false) :
    openSweep k s = { s with sched := { s.sched with sweeps := [newSweep .resync] } } := by
  have hfind : s.sched.sweeps.find? (fun w => w.kind.optional) = none := List.find?_eq_none.2 (by simpa using hall)
  unfold openSweep
  dsimp only
  rw [if_neg (not_any_kind h), if_neg (not_room hfull), if_neg (by rw [hk]; exact Bool.false_ne_true), hfind]

/-- Settles O51: the minute is metered first, the slots are then evaluated and the alarm tested; an opening is one of its
five cases. -/
theorem minuteTickReachesItsReceivers : Obligations.MinuteTickReachesItsReceivers := by
  unfold Obligations.MinuteTickReachesItsReceivers
  refine ⟨fun isMatch m rest s hmem hring hr hticks hmatch => ?_, fun k new t s hmem hring ht hnew => ?_⟩
  · have hmoves := meterTick_moves (can := fun _ => True) (withTicks rest s)
    have hy := minuteMetered hmem hring rest
    have hwf : MemWf (meterTick (withTicks rest s)).mem := hmoves.mem hmem
    have hlaw : RingLaw (meterTick (withTicks rest s)) := hmoves.ring hring
    refine ⟨_, exec_minuteTick hr hticks, ?_⟩
    generalize meterTick (withTicks rest s) = y at *
    have htaken := tickTaken (m := m) hwf hlaw hy
    have halarm := alarmTaken_validTick hwf hlaw hy hmatch
    have hlogged := alarmLogged_validTick hwf hlaw hy hmatch
    have hflags := (validTick_moves (can := fun _ => True) m y).flags
    generalize validTick m y = u at *
    refine ⟨htaken.clock.trans (by rw [hy.frame]), fun howed => ?_, fun howed => ?_, htaken.quiet, htaken.evaluated,
      htaken.slotsNoted, htaken.closeNoted, halarm, fun h₁ h₂ h₃ k hk => hlogged h₁ h₂ h₃ hk, htaken.kept, htaken.frame⟩
    · rw [htaken.meter, hy.counted howed]
    · obtain ⟨hmeter, hflag, hlost⟩ := hy.lost howed
      exact ⟨htaken.meter.trans hmeter, hflags 10 hflag, fun hv => by rw [htaken.logged hv]; exact hlost⟩
  · obtain rfl : new = newSweep k := hnew
    subst ht
    refine ⟨openSweep_of_same, fun hno => ⟨openSweep_joins hno, fun d₁ d₂ d₃ hfull hd => ?_, fun hk hfull => ⟨?_, ?_⟩⟩⟩
    · rw [openSweep_optional_full hno hfull hd.optional]
      have h := dropSweep_dropped hd 0 hmem hring
      exact ⟨by rw [h.frame], h.flag, h.logged, h.kept, h.frame⟩
    · intro older newer w d₁ d₂ d₃ hs hold hd
      rw [openSweep_replaces hno hfull (optional_eq_false hk) hs (fun v hv => optional_eq_false (hold v hv)) hd.optional]
      have h := dropSweep_dropped hd w.cursor hmem hring
      generalize dropSweep w.kind w.cursor s = v at *
      refine ⟨rfl, h.flag, h.logged, h.kept, ?_⟩
      rw [h.frame]
    · intro hall
      exact openSweep_folds hno hfull (optional_eq_false hk) fun v hv => optional_eq_false (hall v hv)

end Sys2Proof.Machine


/-! ## START and the request-slot scan (R176, R31) -/

namespace Sys2Proof.Machine

variable {s t u v : State} {n : Nat} {k : CloseCopy}

/-! START (R176). -/

theorem startConditions_eq (s : State) : startConditions s =
    (if s.part.backupLost then 1 else 0) + (if s.writer.logEmptied then 2 else 0) +
      (if s.writer.journalEmptied then 4 else 0) + (if s.writer.logTailSet then 8 else 0) +
      (if s.writer.journalTailSet then 16 else 0) + (if s.close.resumed then 32 else 0) +
      (if s.plan.copy = none then 64 else 0) := by
  have hnone : s.plan.copy.isNone = decide (s.plan.copy = none) := by cases s.plan.copy <;> rfl
  simp [startConditions, hnone]

theorem startCause_code (c : StartCause) : c.code = if c = .reset then 1 else 0 := by cases c <;> rfl

theorem exec_start (h : atStartStep 8 s = true) : exec .start s = .next (toStartStep 9
    (logAppend .start 0 (if s.part.cause = .reset then 1 else 0) (startConditions s) 0 s)) := by
  rw [← startCause_code]
  exact congrArg Host.Outcome.next (startStep_at h logStart)

/-! One slot of the scan (R31). -/

/-- R31: the slot holds a CLOSE_NOW in progress. -/
def PendingClose (s : State) (n : Nat) : Prop := requestStatus s n = 2 ∧ requestCode s n = 9

/-- R31: what the scan of one slot leaves. -/
structure SlotScanned (k : CloseCopy) (n : Nat) (v w : State) : Prop where
  queue : w.part.queue = v.part.queue ++ if requestStatus v n = 1 then [n] else []
  kept : WordsKept (slotWords n) v w
  wf : MemWf w.mem
  still : requestStatus v n ≠ 2 → w.mem = v.mem
  superseded : requestStatus v n = 2 → requestCode v n ≠ 9 → SlotShows n 4 22 v w
  ended : PendingClose v n → k.status = .idle → SlotShows n 3 0 v w ∧ rd w (requestWord n 3) = wordOf k.number
  busy : PendingClose v n → k.status = .closing → v.close.bound ≠ none → SlotShows n 4 21 v w
  binds : PendingClose v n → k.status = .closing → v.close.bound = none →
    w.close.bound = some n ∧ (n, .closeNow) ∈ w.part.inProgress ∧ w.mem = v.mem
  bound : ¬(PendingClose v n ∧ k.status = .closing ∧ v.close.bound = none) → w.close.bound = v.close.bound
  waiting : ∀ m r, m ≠ n → (m, r) ∈ v.part.inProgress → (m, r) ∈ w.part.inProgress
  frame : w = { v with
    mem := w.mem, port := w.port
    part := { v.part with queue := w.part.queue, inProgress := w.part.inProgress }
    close := { v.close with bound := w.close.bound } }

theorem mem_filter_other {l : List (Nat × LongRequest)} {m : Nat} {r : LongRequest} (hm : m ≠ n) (h : (m, r) ∈ l) :
    (m, r) ∈ l.filter fun p => p.1 != n := List.mem_filter.2 ⟨h, bne_iff_ne.2 hm⟩

/-- R31: a slot whose request was not in progress. -/
theorem slotScanned_other (hm : MemWf v.mem) (h : requestStatus v n ≠ 2) : SlotScanned k n v (scanSlot v n) := by
  by_cases hq : requestStatus v n = 1
  · have hw : scanSlot v n = { v with part := { v.part with queue := v.part.queue ++ [n] } } := if_pos hq
    rw [hw]
    exact ⟨by rw [if_pos hq], fun _ _ => rfl, hm, fun _ => rfl, fun hp => absurd hp h, fun hp => absurd hp.1 h,
      fun hp => absurd hp.1 h, fun hp => absurd hp.1 h, fun _ => rfl, fun _ _ _ hr => hr, rfl⟩
  · have hw : scanSlot v n = v := (if_neg hq).trans (if_neg h)
    rw [hw]
    exact ⟨by rw [if_neg hq, List.append_nil], fun _ _ => rfl, hm, fun _ => rfl, fun hp => absurd hp h,
      fun hp => absurd hp.1 h, fun hp => absurd hp.1 h, fun hp => absurd hp.1 h, fun _ => rfl, fun _ _ _ hr => hr, rfl⟩

/-- R31: a request that the scan ends FAILED. -/
theorem slotScanned_failed {e : RequestError} (hm : MemWf v.mem) (h2 : requestStatus v n = 2)
    (hsup : requestCode v n ≠ 9 → e = .superseded)
    (hbusy : requestCode v n = 9 → e = .busy ∧ k.status = .closing ∧ v.close.bound ≠ none) :
    SlotScanned k n v (endFailed n e v) := by
  have hshows := slotShows_endFailed n e hm
  refine ⟨by rw [h2]; exact (List.append_nil _).symm, (wordsKept_endFailed n e v).mono (by simp [slotWords]),
    endFailed_wf n e v hm, fun hno => absurd h2 hno, fun _ hc => ?_, fun hp hidle => ?_,
    fun hp _ _ => ?_, fun hp _ hb => absurd hb (hbusy hp.2).2.2, fun _ => rfl,
    fun m r hne hr => mem_filter_other hne hr, rfl⟩
  · obtain rfl := hsup hc
    exact hshows
  · have := (hbusy hp.2).2.1
    rw [hidle] at this
    cases this
  · obtain ⟨rfl, -⟩ := hbusy hp.2
    exact hshows

/-- R31: a CLOSE_NOW in progress with no close in progress. -/
theorem slotScanned_done (hm : MemWf v.mem) (hp : PendingClose v n) (hs : k.status = .idle) :
    SlotScanned k n v (endDone n k.number v) := by
  have hno : k.status ≠ .closing := by rw [hs]; exact CloseStatus.noConfusion
  exact ⟨by rw [hp.1]; exact (List.append_nil _).symm, wordsKept_endDone n k.number v, endDone_wf n k.number v hm,
    fun h => absurd hp.1 h, fun _ hc => absurd hp.2 hc, fun _ _ => ⟨slotShows_endDone n k.number hm, rd_endDone_result n k.number hm⟩,
    fun _ hc => absurd hc hno, fun _ hc => absurd hc hno, fun _ => rfl, fun m r hne hr => mem_filter_other hne hr, rfl⟩

/-- R31: the first CLOSE_NOW in progress is bound to the resumed close. -/
theorem slotScanned_bound (hm : MemWf v.mem) (hp : PendingClose v n) (hs : k.status = .closing) (hb : v.close.bound = none) :
    SlotScanned k n v { stayInProgress n .closeNow v with close := { v.close with bound := some n } } := by
  have hno : k.status ≠ .idle := by rw [hs]; exact CloseStatus.noConfusion
  exact ⟨by rw [hp.1]; exact (List.append_nil _).symm, fun _ _ => rfl, hm,
    fun h => absurd hp.1 h, fun _ hc => absurd hp.2 hc, fun _ hc => absurd hc hno, fun _ _ h => absurd hb h,
    fun _ _ _ => ⟨rfl, List.mem_append_right _ List.mem_cons_self, rfl⟩, fun h => absurd ⟨hp, hs, hb⟩ h,
    fun m r _ hr => List.mem_append_left _ hr, rfl⟩

theorem slotScanned (hm : MemWf v.mem) (hk : v.close.copy = some k) (n : Nat) : SlotScanned k n v (scanSlot v n) := by
  by_cases h2 : requestStatus v n = 2
  · have hscan : scanSlot v n = _ := (if_neg (by rw [h2]; decide)).trans (if_pos h2)
    by_cases h9 : requestCode v n = Request.closeNow.code
    · rw [hscan, if_pos h9, closeStatus_of_copy hk]
      cases hs : k.status with
      | idle =>
        simp only [closeNumber_of_copy hk]
        exact slotScanned_done hm ⟨h2, h9⟩ hs
      | closing =>
        cases hb : v.close.bound with
        | none => exact slotScanned_bound hm ⟨h2, h9⟩ hs hb
        | some j =>
          exact slotScanned_failed hm h2 (fun hc => absurd h9 hc) fun _ => ⟨rfl, hs, by rw [hb]; exact Option.some_ne_none j⟩
    · rw [hscan, if_neg h9]
      exact slotScanned_failed hm h2 (fun _ => rfl) fun hc => absurd hc h9
  · exact slotScanned_other hm h2

end Sys2Proof.Machine


/-! ## The scan of the eight request slots (R31) -/

namespace Sys2Proof.Machine

variable {s t u v w : State} {m n : Nat} {k : CloseCopy}

/-- R31: what the scan has left after its first `m` slots. -/
structure ScannedTo (k : CloseCopy) (m : Nat) (s v : State) : Prop where
  wf : MemWf v.mem
  queue : v.part.queue = s.part.queue ++ (List.range m).filter fun n => decide (requestStatus s n = 1)
  kept : WordsKept ((List.range m).flatMap slotWords) s v
  still : ∀ n, n < m → requestStatus s n ≠ 2 → ∀ x, x < 4 → rd v (requestWord n x) = rd s (requestWord n x)
  superseded : ∀ n, n < m → requestStatus s n = 2 → requestCode s n ≠ 9 → SlotShows n 4 22 s v
  ended : ∀ n, n < m → PendingClose s n → k.status = .idle →
    SlotShows n 3 0 s v ∧ rd v (requestWord n 3) = wordOf k.number
  busy : ∀ n, n < m → PendingClose s n → k.status = .closing → (∃ j, j < n ∧ PendingClose s j) → SlotShows n 4 21 s v
  first : ∀ n, n < m → PendingClose s n → k.status = .closing → (∀ j, j < n → ¬PendingClose s j) →
    v.close.bound = some n ∧ (n, .closeNow) ∈ v.part.inProgress ∧ rd v (requestWord n 0) = rd s (requestWord n 0)
  bound : k.status = .closing → (v.close.bound = none ↔ ∀ j, j < m → ¬PendingClose s j)
  frame : v = { s with
    mem := v.mem, port := v.port
    part := { s.part with queue := v.part.queue, inProgress := v.part.inProgress }
    close := { s.close with bound := v.close.bound } }

theorem requestWord_mem_slotWords {x : Nat} (h : requestWord n x ∈ slotWords m) (hx : x < 4) : n = m := by
  simp only [slotWords, List.mem_cons, List.not_mem_nil, or_false, requestWord] at h
  omega

theorem requestWord_mem_range {x : Nat} (h : requestWord n x ∈ (List.range m).flatMap slotWords) (hx : x < 4) : n < m := by
  obtain ⟨j, hj, hmem⟩ := List.mem_flatMap.1 h
  exact requestWord_mem_slotWords hmem hx ▸ List.mem_range.1 hj

theorem scannedTo_zero (hm : MemWf s.mem) (hb : s.close.bound = none) : ScannedTo k 0 s s :=
  ⟨hm, (List.append_nil _).symm, fun _ _ => rfl, fun _ hn => absurd hn (Nat.not_lt_zero _),
    fun _ hn => absurd hn (Nat.not_lt_zero _), fun _ hn => absurd hn (Nat.not_lt_zero _),
    fun _ hn => absurd hn (Nat.not_lt_zero _), fun _ hn => absurd hn (Nat.not_lt_zero _),
    fun _ => ⟨fun _ _ hj => absurd hj (Nat.not_lt_zero _), fun _ => hb⟩, rfl⟩

/-- The words of the slots not yet scanned. -/
theorem ScannedTo.rest (h : ScannedTo k m s v) {x : Nat} (hx : x < 4) (hn : m ≤ n) :
    rd v (requestWord n x) = rd s (requestWord n x) :=
  h.kept _ fun hmem => absurd (requestWord_mem_range hmem hx) (Nat.not_lt.2 hn)

theorem ScannedTo.requestStatus (h : ScannedTo k m s v) : Machine.requestStatus v m = Machine.requestStatus s m :=
  congrArg (field · 8 3) (h.rest (x := 0) (by decide) le_rfl)

theorem ScannedTo.requestCode (h : ScannedTo k m s v) : Machine.requestCode v m = Machine.requestCode s m :=
  congrArg (field · 0 8) (h.rest (x := 0) (by decide) le_rfl)

theorem ScannedTo.pendingClose_iff (h : ScannedTo k m s v) : PendingClose v m ↔ PendingClose s m := by
  rw [PendingClose, PendingClose, h.requestStatus, h.requestCode]

theorem lt_succ_cases {P : Nat → Prop} (h : ∀ n, n < m → P n) (hm : P m) : ∀ n, n < m + 1 → P n := fun n hn =>
  (Nat.lt_succ_iff_lt_or_eq.1 hn).elim (h n) fun he => he ▸ hm

theorem ScannedTo.bound_succ (h : ScannedTo k m s v) (hw : SlotScanned k m v w) (hs : k.status = .closing) :
    w.close.bound = none ↔ ∀ j, j < m + 1 → ¬PendingClose s j := by
  by_cases hb : PendingClose s m ∧ v.close.bound = none
  · obtain ⟨hbound, -⟩ := hw.binds (h.pendingClose_iff.2 hb.1) hs hb.2
    rw [hbound]
    exact ⟨fun hno => absurd hno (Option.some_ne_none m), fun hno => absurd hb.1 (hno m (Nat.lt_succ_self m))⟩
  · rw [hw.bound fun ⟨hp, _, hn⟩ => hb ⟨h.pendingClose_iff.1 hp, hn⟩, h.bound hs]
    refine ⟨fun hall => lt_succ_cases hall fun hp => hb ⟨hp, (h.bound hs).2 hall⟩, fun hall j hj => hall j (Nat.lt_succ_of_lt hj)⟩

/-- R31: the scan goes on with slot `m`. -/
theorem ScannedTo.succ (h : ScannedTo k m s v) (hw : SlotScanned k m v w) : ScannedTo k (m + 1) s w := by
  have hother {n x : Nat} (hn : n < m) (hx : x < 4) : rd w (requestWord n x) = rd v (requestWord n x) :=
    hw.kept _ fun hmem => absurd (requestWord_mem_slotWords hmem hx) (Nat.ne_of_lt hn)
  have hshows {n a b : Nat} (hn : n < m) (hv : SlotShows n a b s v) : SlotShows n a b s w := hv.of_word (hother hn (by decide))
  have hshows' {a b : Nat} (hv : SlotShows m a b v w) : SlotShows m a b s w := hv.of_code h.requestCode
  refine ⟨hw.wf, ?_, ?_, ?_, ?_, ?_, ?_, ?_, h.bound_succ hw, ?_⟩
  · rw [hw.queue, h.queue, h.requestStatus, List.range_succ, List.filter_append, List.append_assoc]
    by_cases hq : Machine.requestStatus s m = 1 <;> simp [hq]
  · intro a ha
    rw [List.range_succ, List.flatMap_append, List.mem_append, not_or] at ha
    exact (hw.kept a fun hmem => ha.2 (List.mem_flatMap.2 ⟨m, List.mem_cons_self, hmem⟩)).trans (h.kept a ha.1)
  · refine lt_succ_cases (fun n hn hst x hx => (hother hn hx).trans (h.still n hn hst x hx)) fun hst x hx => ?_
    exact (rd_congr (hw.still (h.requestStatus ▸ hst)) _).trans (h.rest hx le_rfl)
  · refine lt_succ_cases (fun n hn hst hc => hshows hn (h.superseded n hn hst hc)) fun hst hc => ?_
    exact hshows' (hw.superseded (h.requestStatus ▸ hst) (h.requestCode ▸ hc))
  · refine lt_succ_cases (fun n hn hp hs => ?_) fun hp hs => ?_
    · obtain ⟨hshow, hres⟩ := h.ended n hn hp hs
      exact ⟨hshows hn hshow, (hother hn (by decide)).trans hres⟩
    · obtain ⟨hshow, hres⟩ := hw.ended (h.pendingClose_iff.2 hp) hs
      exact ⟨hshows' hshow, hres⟩
  · refine lt_succ_cases (fun n hn hp hs hj => hshows hn (h.busy n hn hp hs hj)) fun hp hs ⟨j, hj, hpj⟩ => ?_
    exact hshows' (hw.busy (h.pendingClose_iff.2 hp) hs fun hno => (h.bound hs).1 hno j hj hpj)
  · refine lt_succ_cases (fun n hn hp hs hfirst => ?_) fun hp hs hfirst => ?_
    · obtain ⟨hbound, hin, hword⟩ := h.first n hn hp hs hfirst
      refine ⟨(hw.bound fun hb => ?_).trans hbound, hw.waiting n _ (Nat.ne_of_lt hn) hin, (hother hn (by decide)).trans hword⟩
      rw [hb.2.2] at hbound
      cases hbound
    · obtain ⟨hbound, hin, hmem⟩ := hw.binds (h.pendingClose_iff.2 hp) hs ((h.bound hs).2 hfirst)
      exact ⟨hbound, hin, (rd_congr hmem _).trans (h.rest (by decide) le_rfl)⟩
  · rw [hw.frame, h.frame]

theorem scannedTo (hm : MemWf s.mem) (hk : s.close.copy = some k) (hb : s.close.bound = none) (m : Nat) :
    ScannedTo k m s ((List.range m).foldl scanSlot s) := by
  induction m with
  | zero => exact scannedTo_zero hm hb
  | succ m ih =>
    rw [List.range_succ, List.foldl_append]
    exact ih.succ (slotScanned ih.wf (by rw [ih.frame]; exact hk) m)

end Sys2Proof.Machine


/-! ## STARTUP_END: the part leaves STARTING and takes what was noted (R24, R27), and the settlement of O60 -/

namespace Sys2Proof.Machine

variable {s t u v w b : State} {k : CloseCopy} {evaluated isMatch : Prop} {stamp : Nat} {opened : List SweepKind}

/-! The part leaves STARTING (R24). -/

/-- R88: the scheduler of a part whose refresh is awake. -/
def refreshAwake (s : State) : State :=
  { s with sched := { s.sched with refresh := { s.sched.refresh with
    resting := false, visits := if s.sched.refresh.resting = true then 0 else s.sched.refresh.visits } } }

theorem refreshAwake_sched (s : State) : (refreshAwake s).sched = { s.sched with refresh := s.sched.refresh.woken } := by
  unfold refreshAwake Refresh.woken
  by_cases h : s.sched.refresh.resting = true
  · simp only [if_pos h]
  · simp only [if_neg h]
    rw [← Bool.eq_false_iff.2 h]

/-- R24, R179: the part has latched its conditions and left STARTING. -/
structure LeftStarting (s b : State) : Prop where
  wf : MemWf b.mem
  ring : RingLaw b
  part : b.part = { s.part with state := if s.plan.copy = none then .unplanned else .serving }
  kept : KeptOutside ringPlace s b
  serves : s.plan.copy ≠ none → b.sched = (openSweep .resync (refreshAwake s)).sched
  waits : s.plan.copy = none → b.sched = s.sched
  room : s.sched.sweeps.length < 4 → b.mem = s.mem ∧ b.writer = s.writer ∧ b.flags = s.flags ||| conditions s
  flags : ∀ f : Flag, s.flags.getLsbD f.bit = true ∨ condition s f = true → b.flags.getLsbD f.bit = true
  frame : b = { s with
    mem := b.mem, port := b.port, part := b.part, sched := b.sched, writer := b.writer, flags := b.flags }

theorem latched_conditions {f : Flag} (h : s.flags.getLsbD f.bit = true ∨ condition s f = true) :
    (s.flags ||| conditions s).getLsbD f.bit = true := by
  rw [BitVec.getLsbD_or, Bool.or_eq_true]
  exact h.imp_right fun hc => (conditions_getLsbD s f).trans hc

theorem enterServing_room_flags (h : s.sched.sweeps.length < 4) : (enterServing s).flags = s.flags := by
  unfold enterServing
  have hlen : (wakeRefresh { s with part := { s.part with state := .serving } }).sched.sweeps.length < 4 := by
    rw [wakeRefresh_sched]; exact h
  rw [openSweep_room hlen, wakeRefresh_frame]

theorem enterServing_sched (s : State) : (enterServing s).sched = (openSweep .resync (refreshAwake s)).sched :=
  openSweep_sched_congr .resync (by rw [wakeRefresh_sched, refreshAwake_sched])

theorem leftStarting_serving (hm : MemWf s.mem) (hring : RingLaw s) (hp : s.power.resetting = false)
    (hcopy : s.plan.copy ≠ none) : LeftStarting s (enterServing (latch (conditions s) s)) := by
  have hmoves := enterServing_moves (can := fun _ => True) (s := latch (conditions s) s) trivial hp
  have hframe := enterServing_frame (latch (conditions s) s)
  have hsched : (enterServing (latch (conditions s) s)).sched = (openSweep .resync (refreshAwake s)).sched :=
    (enterServing_sched _).trans (openSweep_sched_congr .resync rfl)
  have hkept : KeptOutside ringPlace s (enterServing (latch (conditions s) s)) := enterServing_kept (s := latch (conditions s) s) hring
  have hroom : s.sched.sweeps.length < 4 → (enterServing (latch (conditions s) s)).mem = s.mem ∧
      (enterServing (latch (conditions s) s)).writer = s.writer ∧
      (enterServing (latch (conditions s) s)).flags = s.flags ||| conditions s := fun h => by
    obtain ⟨hmem, hwriter, -⟩ := enterServing_room (s := latch (conditions s) s) h
    exact ⟨hmem, hwriter, enterServing_room_flags (s := latch (conditions s) s) h⟩
  have hflags := hmoves.flags
  have hwf := hmoves.mem hm
  have hlaw := hmoves.ring hring
  generalize enterServing (latch (conditions s) s) = b at *
  refine ⟨hwf, hlaw, ?_, hkept, fun _ => hsched, fun h => absurd h hcopy, hroom,
    fun f hf => hflags _ (latched_conditions hf), ?_⟩
  · rw [hframe, if_neg hcopy]
    rfl
  · rw [hframe]
    rfl

theorem leftStarting_unplanned (hm : MemWf s.mem) (hring : RingLaw s) (hcopy : s.plan.copy = none) :
    LeftStarting s { latch (conditions s) s with part := { s.part with state := .unplanned } } :=
  ⟨hm, hring, by rw [if_pos hcopy], fun _ _ => rfl, fun h => absurd hcopy h, fun _ => rfl, fun _ => ⟨rfl, rfl, rfl⟩,
    fun _ hf => latched_conditions hf, rfl⟩

theorem leftStarting (hm : MemWf s.mem) (hring : RingLaw s) (hp : s.power.resetting = false) :
    LeftStarting s (leaveStarting (latch (conditions s) s)) := by
  cases hcopy : s.plan.copy with
  | none =>
    have hleave : leaveStarting (latch (conditions s) s) =
        { latch (conditions s) s with part := { s.part with state := .unplanned } } :=
      if_neg (by rw [show (latch (conditions s) s).plan.copy = none from hcopy]; exact Bool.false_ne_true)
    rw [hleave]
    exact leftStarting_unplanned hm hring hcopy
  | some p =>
    have hleave : leaveStarting (latch (conditions s) s) = enterServing (latch (conditions s) s) :=
      if_pos (by rw [show (latch (conditions s) s).plan.copy = some p from hcopy]; rfl)
    rw [hleave]
    exact leftStarting_serving hm hring hp (by rw [hcopy]; exact Option.some_ne_none p)

/-! The noted evaluation (R27, R148). -/

/-- R27: the slots have been evaluated, or stand. -/
structure NotedEvaluation (evaluated : Prop) (stamp : Nat) (opened : List SweepKind) (b v : State) : Prop where
  wf : MemWf v.mem
  ring : RingLaw v
  moved : evaluated → SlotsEvaluated stamp b v
  stands : ¬evaluated → SlotsKept b v
  sched : v.sched = (openSweeps opened b).sched
  same : opened = [] → v = b
  kept : KeptOutside (withRings slotStateWords) b v
  flags : ∀ i, b.flags.getLsbD i = true → v.flags.getLsbD i = true
  frame : v = { b with
    mem := v.mem, port := v.port, slots := { b.slots with armed := v.slots.armed }, sched := v.sched, writer := v.writer
    flags := v.flags }

theorem notedEvaluation_stands (hm : MemWf b.mem) (hring : RingLaw b) (hno : ¬evaluated) (stamp : Nat) :
    NotedEvaluation evaluated stamp [] b b :=
  ⟨hm, hring, fun h => absurd h hno, fun _ => ⟨rfl, fun _ _ => rfl⟩, rfl, fun _ => rfl, KeptOutside.refl b, fun _ h => h, rfl⟩

theorem notedEvaluation_evaluated (hm : MemWf b.mem) (hring : RingLaw b) (h : evaluated) (stamp : Nat) :
    NotedEvaluation evaluated stamp (openedSweeps b stamp) b (evaluateSlots stamp b) := by
  have hmoves := evaluateSlots_moves (can := fun _ => True) stamp b
  have he := evaluateSlots_evaluated stamp hm hring
  exact ⟨hmoves.mem hm, hmoves.ring hring, fun _ => he.slotsEvaluated, fun hno => absurd h hno, he.sched,
    evaluateSlots_of_no_sweep, he.kept, hmoves.flags, he.frame⟩

/-! The noted close alarm (R27, R160). -/

theorem alarmTested_quiet (hno : ¬isMatch) (b : State) : AlarmTested isMatch b b :=
  ⟨KeptOutside.refl b, rfl, id, rfl, fun _ => rfl, fun h => absurd h hno, fun h => absurd h hno⟩

/-- R27: the Close Engine takes a noted tick if the part now serves. -/
def notedAlarm (noted : Bool) (b v : State) : State :=
  if noted = true ∧ b.part.state = .serving then testAlarm (tickNow v) v else v

theorem alarmTested_noted (hm : MemWf v.mem) (hring : RingLaw v) {noted : Bool}
    (hmatch : isMatch ↔ noted = true ∧ b.part.state = .serving ∧ TickMatches (tickNow v) v) :
    AlarmTested isMatch v (notedAlarm noted b v) := by
  unfold notedAlarm
  split
  · next h =>
    rw [show isMatch = TickMatches (tickNow v) v from propext (hmatch.trans ⟨fun hh => hh.2.2, fun hh => ⟨h.1, h.2, hh⟩⟩)]
    exact alarmTested hm hring (tickNow v)
  · next h => exact alarmTested_quiet (fun hyes => h ⟨(hmatch.1 hyes).1, (hmatch.1 hyes).2.1⟩) v

theorem notedAlarm_moves {can : Touch → Prop} (noted : Bool) (b v : State) : Moves can v (notedAlarm noted b v) :=
  Moves.ite (fun _ => testAlarm_moves _ _) fun _ => Moves.refl _

/-- R27: what was noted is let go. -/
def notesTaken (w : State) : State :=
  { w with slots := { w.slots with noted := false }, close := { w.close with noted := false } }

theorem takeNoted_eq (b : State) : takeNoted b = notesTaken (notedAlarm b.close.noted b
    (if b.slots.noted = true ∧ b.clock.valid = true then evaluateSlots (currentStamp b) b else b)) := rfl

end Sys2Proof.Machine


/-! ## The settlement of O60 -/

namespace Sys2Proof.Machine

variable {s t u v w b : State} {k : CloseCopy} {evaluated isMatch : Prop} {stamp : Nat} {opened : List SweepKind}

/-! STARTUP_END (R26, R27). -/

/-- R24: the state of the part once it has left STARTING. -/
theorem LeftStarting.serving_iff (h : LeftStarting s b) : b.part.state = .serving ↔ s.plan.copy ≠ none := by
  rw [h.part]
  by_cases hcopy : s.plan.copy = none <;> simp [hcopy]

theorem LeftStarting.slots (h : LeftStarting s b) : b.slots = s.slots := by rw [h.frame]

theorem LeftStarting.close (h : LeftStarting s b) : b.close = s.close := by rw [h.frame]

theorem LeftStarting.clock (h : LeftStarting s b) : b.clock = s.clock := by rw [h.frame]

theorem LeftStarting.plan (h : LeftStarting s b) : b.plan = s.plan := by rw [h.frame]

theorem exec_startupEnd (h : atStartStep 10 s = true) :
    exec .startupEnd s = .next (concluded s (takeNoted (leaveStarting (latch (conditions s) s)))) :=
  congrArg (fun t => Host.Outcome.next (latchArisen s t)) (if_pos h)

/-- R27: the noted tick or release has the slots evaluated at the current stamp. -/
theorem LeftStarting.evaluation (h : LeftStarting s b) (hstamp : stamp = currentStamp s)
    (hev : evaluated ↔ s.slots.noted = true ∧ s.clock.valid = true) (hyes : evaluated → opened = openedSweeps s stamp)
    (hno : ¬evaluated → opened = []) : NotedEvaluation evaluated stamp opened b
      (if b.slots.noted = true ∧ b.clock.valid = true then evaluateSlots (currentStamp b) b else b) := by
  have hb : currentStamp b = stamp := by rw [hstamp, currentStamp, currentStamp, h.clock]
  rw [h.slots, h.clock, hb]
  by_cases he : evaluated
  · rw [if_pos (hev.1 he), hyes he, ← openedSweeps_congr h.slots]
    exact notedEvaluation_evaluated h.wf h.ring he stamp
  · rw [if_neg fun hh => he (hev.2 hh), hno he]
    exact notedEvaluation_stands h.wf h.ring he stamp

theorem LeftStarting.alarm (h : LeftStarting s b) (hv : NotedEvaluation evaluated stamp opened b v)
    (hmatch : isMatch ↔ s.close.noted = true ∧ s.clock.valid = true ∧
      ∃ p, s.plan.copy = some p ∧ AlarmMatches p s.clock.now) :
    AlarmTested isMatch v (notedAlarm b.close.noted b v) := by
  have hclock : v.clock = s.clock := by rw [hv.frame, h.clock]
  have hplan : v.plan = s.plan := by rw [hv.frame, h.plan]
  have htick : TickMatches (tickNow v) v ↔ s.clock.valid = true ∧ ∃ p, s.plan.copy = some p ∧ AlarmMatches p s.clock.now := by
    unfold TickMatches tickNow
    rw [hclock, hplan]
  refine alarmTested_noted hv.wf hv.ring ?_
  rw [htick, h.close, h.serving_iff, hmatch]
  refine ⟨fun ⟨h₁, h₂, p, hp, hm⟩ => ⟨h₁, ?_, h₂, p, hp, hm⟩, fun ⟨h₁, _, h₂⟩ => ⟨h₁, h₂⟩⟩
  rw [hp]
  exact Option.some_ne_none p

/-- The words of the slot states and of the close are apart. -/
theorem slotStateWord_kept (h : KeptOutside (withRings [0x126, 0x127, 0x128]) v w) {j : Nat} (hj : j < 8) :
    rd w (slotWord j 6) = rd v (slotWord j 6) := h _ (by
  rw [← Bool.not_eq_true, withRings_iff, ringPlace_slotWord hj (by decide)]
  simp [slotWord]
  omega)

theorem closeWord_kept (h : KeptOutside (withRings slotStateWords) b v) {a : Nat} (h₁ : 0x126 ≤ a) (h₂ : a ≤ 0x128) :
    rd v a = rd b a := h a (by
  rw [← Bool.not_eq_true, withRings_iff, closePlace_ring ⟨h₁, h₂⟩]
  simp [slotStateWords, slotWord]
  omega)

theorem startupEnd_ends (hm : MemWf s.mem) (hring : RingLaw s) (h10 : atStartStep 10 s = true) (hstamp : stamp = currentStamp s)
    (hev : evaluated ↔ s.slots.noted = true ∧ s.clock.valid = true)
    (hmatch : isMatch ↔ s.close.noted = true ∧ s.clock.valid = true ∧
      ∃ p, s.plan.copy = some p ∧ AlarmMatches p s.clock.now)
    (hyes : evaluated → opened = openedSweeps s stamp) (hno : ¬evaluated → opened = []) :
    ∃ u, exec .startupEnd s = .next (concluded s u) ∧
      u.part = { s.part with state := if s.plan.copy = none then .unplanned else .serving } ∧
      (s.plan.copy ≠ none → u.sched = sweepsOpened (.resync :: opened) (refreshAwake s)) ∧
      (s.plan.copy = none → u.sched = sweepsOpened opened s) ∧
      (evaluated → SlotsEvaluated stamp s u) ∧ (¬evaluated → SlotsKept s u) ∧ AlarmTaken isMatch s u ∧
      (isMatch → opened = [] → s.sched.sweeps.length < 4 → ∀ k, s.close.copy = some k →
        (k.status = .idle →
          Logged .closeBegin (if 65535 ≤ k.number then 1 else k.number + 1) 0 65535 0 s u) ∧
        (k.status = .closing → Logged .closeLate k.number k.cursor (if s.close.stalled then 1 else 0) 0 s u)) ∧
      (∀ f : Flag, (s.flags.getLsbD f.bit = true ∨ condition s f = true) → u.flags.getLsbD f.bit = true) ∧
      u.slots.noted = false ∧ u.close.noted = false ∧
      (s.slots.noted = false → s.close.noted = false → s.sched.sweeps.length < 4 →
        u.flags = s.flags ||| conditions s ∧ u.mem = s.mem ∧ u.slots = s.slots ∧ u.close = s.close) ∧
      KeptOutside (withRings ([0x126, 0x127, 0x128] ++ slotStateWords)) s u ∧
      u = { s with
        mem := u.mem, port := u.port, part := u.part, sched := u.sched, slots := u.slots, close := u.close
        writer := u.writer, flags := u.flags } := by
  obtain ⟨⟨-, hp, -⟩, -, -⟩ := (atStartStep_iff 10 s).1 h10
  have hb := leftStarting hm hring hp
  refine ⟨_, exec_startupEnd h10, ?_⟩
  generalize leaveStarting (latch (conditions s) s) = b at *
  have hv := hb.evaluation hstamp hev hyes hno
  rw [takeNoted_eq]
  generalize (if b.slots.noted = true ∧ b.clock.valid = true then evaluateSlots (currentStamp b) b else b) = v at *
  have hw := hb.alarm hv hmatch
  have hflags := (notedAlarm_moves (can := fun _ => True) b.close.noted b v).flags
  generalize notedAlarm b.close.noted b v = w at *
  have hwsched : w.sched = (openSweeps opened b).sched := by rw [hw.frame, hv.sched]
  have hwslots : w.slots = v.slots := by rw [hw.frame]
  have hvclose : v.close = s.close := by rw [hv.frame, hb.close]
  have hquiet (hnone : opened = []) (hmatch : ¬isMatch) : w = b := (hw.quiet hmatch).trans (hv.same hnone)
  refine ⟨?_, fun hcopy => ?_, fun hcopy => ?_, fun he j hj => ?_, fun he => ?_, ?_, fun hyes hnone hroom k hk => ?_, fun f hf => ?_,
    rfl, rfl, fun hslots hclose hroom => ?_, ?_, ?_⟩
  · show w.part = _
    rw [hw.frame, hv.frame, hb.part]
  · show w.sched = _
    rw [hwsched]
    exact openSweeps_sched_congr opened (hb.serves hcopy)
  · show w.sched = _
    rw [hwsched]
    exact openSweeps_sched_congr opened (hb.waits hcopy)
  · obtain ⟨hnone, hsome⟩ := (hv.moved he).of_kept hb.slots hb.kept j hj
    show (_ → tableGet w.slots.armed j = none ∧ rd w (slotWord j 6) = _) ∧
      ∀ a, _ → tableGet w.slots.armed j = _ ∧ rd w (slotWord j 6) = _
    rw [hwslots, slotStateWord_kept hw.kept hj]
    exact ⟨hnone, hsome⟩
  · obtain ⟨harmed, hword⟩ := hv.stands he
    refine ⟨?_, fun j hj => ?_⟩
    · show w.slots.armed = _
      rw [hwslots, harmed, hb.slots]
    · exact (slotStateWord_kept hw.kept hj).trans ((hword j hj).trans (hb.kept _ (ringPlace_slotWord hj (by decide))))
  · exact hw.taken hvclose (fun a h₁ h₂ => (closeWord_kept hv.kept h₁ h₂).trans (hb.kept a (closePlace_ring ⟨h₁, h₂⟩))) rfl rfl rfl
  · obtain rfl := hv.same hnone
    obtain ⟨-, hwriter, -⟩ := hb.room hroom
    have hvalid : v.clock.valid = s.clock.valid := by rw [hb.clock]
    have htime : currentStamp v = currentStamp s := by rw [currentStamp, currentStamp, hb.clock]
    refine ⟨fun hs => ?_, fun hs => ?_⟩
    · obtain ⟨-, -, -, -, hlog⟩ := hw.idle hyes k (hvclose ▸ hk) hs
      exact hlog.of_time hwriter hvalid htime
    · obtain ⟨-, -, -, hlog⟩ := hw.closing hyes k (hvclose ▸ hk) hs
      rw [hvclose] at hlog
      exact hlog.of_time hwriter hvalid htime
  · exact hflags _ (hv.flags _ (hb.flags f hf))
  · have hnoev : ¬evaluated := fun he => by
      have := (hev.1 he).1
      rw [hslots] at this
      cases this
    have hnomatch : ¬isMatch := fun hy => by
      have := (hmatch.1 hy).1
      rw [hclose] at this
      cases this
    obtain rfl := hquiet (hno hnoev) hnomatch
    obtain ⟨hmem, -, hfl⟩ := hb.room hroom
    refine ⟨hfl, hmem, ?_, ?_⟩
    · show { w.slots with noted := false } = s.slots
      rw [hb.slots, ← hslots]
    · show { w.close with noted := false } = s.close
      rw [hb.close, ← hclose]
  · exact (hb.kept.withRings.trans (hv.kept.withRings_mono (List.subset_append_right _ _))).trans
      (hw.kept.withRings_mono (List.subset_append_left _ _))
  · show notesTaken w = { s with
      mem := w.mem, port := w.port, part := w.part, sched := w.sched, slots := _, close := _, writer := w.writer, flags := w.flags }
    rw [hw.frame, hv.frame, hb.frame]
    rfl

/-- Settles O60: START appends its record; the scan takes the slots one by one; the end of start-up leaves STARTING, has the
slots evaluated and then the alarm tested. -/
theorem startupEndsInOrder : Obligations.StartupEndsInOrder := by
  unfold Obligations.StartupEndsInOrder
  refine ⟨⟨fun c s hm hring h8 hc => ?_, fun k s hm h9 hk hb => ?_⟩,
    fun evaluated isMatch stamp woken opened s hm hring h10 hstamp hev hmatch hwoken hyes hno => ?_⟩
  · obtain ⟨-, hst, -⟩ := (atStartStep_iff 8 s).1 h8
    rw [← startConditions_eq] at hc
    subst hc
    refine ⟨_, exec_start h8, ?_⟩
    have hlogged : Logged .start 0 (if s.part.cause = .reset then 1 else 0) (startConditions s) 0 s
        (logAppend .start 0 (if s.part.cause = .reset then 1 else 0) (startConditions s) 0 s) :=
      logged_logAppend hm hring rfl rfl (fun _ _ => rfl) rfl
    have hkept := logAppend_kept hring .start 0 (if s.part.cause = .reset then 1 else 0) (startConditions s) 0
    have hframe := logAppend_frame .start 0 (if s.part.cause = .reset then 1 else 0) (startConditions s) 0 s
    rw [logAppend_flags_of_starting hst] at hframe
    generalize logAppend .start _ _ _ _ s = v at *
    refine ⟨?_, hlogged, hkept, ?_⟩
    · rw [hframe]
      rfl
    · rw [hframe]
      rfl
  · obtain ⟨-, hst, -⟩ := (atStartStep_iff 9 s).1 h9
    have h := scannedTo (s := partRead s) hm hk hb 8
    refine ⟨toStartStep 10 (scanSlots s), congrArg Host.Outcome.next (startStep_at h9 scanSlots), ?_⟩
    unfold scanSlots
    generalize (List.range 8).foldl scanSlot (partRead s) = v at *
    have hstate : v.part.state = .starting := by
      rw [h.frame]
      exact hst
    refine ⟨rfl, hstate, h.queue, h.still, h.superseded, fun n hn hs hc => ⟨h.ended n hn ⟨hs, hc⟩, fun hcl => ⟨fun hj =>
      h.busy n hn ⟨hs, hc⟩ hcl hj, fun hj => ?_⟩⟩, h.kept, ?_⟩
    · obtain ⟨hbound, hin, hword⟩ := h.first n hn ⟨hs, hc⟩ hcl hj
      refine ⟨?_, hin, hword⟩
      show v.close = _
      rw [← hbound, h.frame]
      rfl
    · show toStartStep 10 v = { s with mem := v.mem, port := v.port, part := _, close := v.close }
      rw [h.frame]
      rfl
  · subst hwoken
    exact startupEnd_ends hm hring h10 hstamp hev hmatch hyes hno

end Sys2Proof.Machine


/-! ## The statement of a record (R165) -/

namespace Sys2Proof.Machine

variable {s t u v b : State} {i : Nat} {k : CloseCopy}

/-! The record's new period. -/

/-- R165 step 3: the writes of a record's new period. -/
def closeWords (i total : Nat) (s : State) : List (Nat × Word) :=
  [(subscriberWord i 10, 0), (subscriberWord i 11, 0), (subscriberWord i 12, 0), (subscriberWord i 13, 0)] ++
    staleEntries s i ++
    [(subscriberWord i 22, pairLowWord total), (subscriberWord i 23, pairHighWord total),
     (subscriberWord i 24, wordOf (closeNumber s))]

theorem closeRecord_eq (i total : Nat) (s : State) : closeRecord i total s = wrHeld s (closeWords i total s) := rfl

/-- The words a new period may write. -/
def periodWords : List Nat := [10, 11, 12, 13, 14, 16, 18, 20, 22, 23, 24]

theorem closeWords_sublist (i total : Nat) (s : State) :
    ((closeWords i total s).map Prod.fst).Sublist (periodWords.map (subscriberWord i)) := by
  have hstale : ((staleEntries s i).map Prod.fst).Sublist ([14, 16, 18, 20].map (subscriberWord i)) := by
    rw [staleEntries, unmarkedEntries_places]
    exact (List.filter_sublist (l := purchasePlaces)).map fun j => subscriberWord i (14 + 2 * j)
  rw [closeWords, List.map_append, List.map_append]
  exact ((List.Sublist.refl [subscriberWord i 10, subscriberWord i 11, subscriberWord i 12, subscriberWord i 13]).append
    hstale).append (List.Sublist.refl [subscriberWord i 22, subscriberWord i 23, subscriberWord i 24])

theorem periodWords_nodup (i : Nat) : (periodWords.map (subscriberWord i)).Nodup :=
  (show periodWords.Nodup by decide).map fun _ _ h => Nat.add_left_cancel h

theorem closeRecord_kept (i total : Nat) (s : State) :
    WordsKept (periodWords.map (subscriberWord i)) s (closeRecord i total s) :=
  fun a ha => wrHeld_wordsKept _ s a fun h => ha ((closeWords_sublist i total s).subset h)

theorem rd_closeRecord {a total : Nat} {x : Word} (hm : MemWf s.mem) (h : (a, x) ∈ closeWords i total s) :
    rd (closeRecord i total s) a = x :=
  (rd_wrHeld s _ a).trans (rd_wrAll_mem hm ((periodWords_nodup i).sublist (closeWords_sublist i total s)) h)

theorem closeRecord_amounts (hm : MemWf s.mem) (total : Nat) {w : Nat} (hw : w = 10 ∨ w = 11 ∨ w = 12 ∨ w = 13) :
    subRd (closeRecord i total s) i w = 0 := by
  refine rd_closeRecord hm ?_
  obtain rfl | rfl | rfl | rfl := hw <;> simp [closeWords]

theorem closeRecord_total (hm : MemWf s.mem) (total : Nat) :
    rdPair (closeRecord i total s) (subscriberWord i 22) = total % 4294967296 := by
  have hlow : rd (closeRecord i total s) (subscriberWord i 22) = pairLowWord total := rd_closeRecord hm (by simp [closeWords])
  have hhigh : rd (closeRecord i total s) (subscriberWord i 23) = pairHighWord total := rd_closeRecord hm (by simp [closeWords])
  exact (congrArg₂ pairValue hlow hhigh).trans (pairValue_words_mod total)

theorem closeRecord_number (hm : MemWf s.mem) (total : Nat) :
    subRd (closeRecord i total s) i 24 = wordOf (closeNumber s) := rd_closeRecord hm (by simp [closeWords])

/-- R165 step 3: an entry marked valid but not live loses its mark. -/
theorem closeRecord_purchase (hm : MemWf s.mem) (total : Nat) {j : Nat} (hj : j < 4) :
    purchaseAt (closeRecord i total s) i j = { purchaseAt s i j with valid := isLive s (purchaseAt s i j) } := by
  have hevent : subRd (closeRecord i total s) i (15 + 2 * j) = subRd s i (15 + 2 * j) :=
    closeRecord_kept i total s _ fun h => by
      obtain ⟨x, hx, he⟩ := List.mem_map.1 h
      have : x = 15 + 2 * j := Nat.add_left_cancel he
      simp only [periodWords, List.mem_cons, List.not_mem_nil, or_false] at hx
      omega
  by_cases hstale : ((purchaseAt s i j).valid && !isLive s (purchaseAt s i j)) = true
  · have hmem : unmarkedEntry s i j ∈ closeWords i total s := List.mem_append_left _ (List.mem_append_right _
      (mem_unmarkedEntries.2 ⟨j, hj, hstale, rfl⟩))
    have hword : subRd (closeRecord i total s) i (14 + 2 * j) = purchaseWord false (purchaseAt s i j).slot :=
      rd_closeRecord hm hmem
    obtain ⟨hvalid, hslot⟩ := purchaseWord_field (purchaseAt_slot_lt s i j) false
    obtain ⟨-, hlive⟩ := Bool.and_eq_true_iff.1 hstale
    rw [show isLive s (purchaseAt s i j) = false from by simpa using hlive]
    unfold purchaseAt at hvalid hslot ⊢
    unfold purchaseAt at hword
    rw [hword, hevent, hvalid, hslot]
  · have hword : subRd (closeRecord i total s) i (14 + 2 * j) = subRd s i (14 + 2 * j) :=
      wrHeld_wordsKept _ s _ fun h => by
        obtain ⟨x, hx, he⟩ := List.mem_map.1 h
        rw [List.mem_append, List.mem_append] at hx
        obtain (hx | hx) | hx := hx
        · simp only [List.mem_cons, List.not_mem_nil, or_false] at hx
          obtain rfl | rfl | rfl | rfl := hx <;> (have := Nat.add_left_cancel he; omega)
        · obtain ⟨l, hl, hp, rfl⟩ := mem_unmarkedEntries.1 hx
          have : 14 + 2 * l = 14 + 2 * j := Nat.add_left_cancel he
          obtain rfl : l = j := by omega
          exact hstale hp
        · simp only [List.mem_cons, List.not_mem_nil, or_false] at hx
          obtain rfl | rfl | rfl := hx <;> (have := Nat.add_left_cancel he; omega)
    have hsame : purchaseAt (closeRecord i total s) i j = purchaseAt s i j := by
      unfold purchaseAt
      rw [hword, hevent]
    have hvalid : (purchaseAt s i j).valid = isLive s (purchaseAt s i j) := by
      have himp : isLive s (purchaseAt s i j) = true → (purchaseAt s i j).valid = true := fun h => by
        simp only [isLive, Bool.and_eq_true] at h
        exact h.1.1
      revert hstale himp
      cases isLive s (purchaseAt s i j) <;> cases (purchaseAt s i j).valid <;> simp
    rw [hsame, ← hvalid]

/-! The statement visit. -/

/-- R165: the record's new period has begun and its statement is in the journal. -/
def stated (i : Nat) (s : State) : State :=
  journalAppend .statement (statementWords s i) (closeRecord i (statementOf s i).total (journalTaken s))

/-- R165: the notice has been set and the cursor has moved on. -/
def statementWritten (i : Nat) (k : CloseCopy) (s : State) : State :=
  wr { setNotice (subscriberWord i 7) 3 (stated i s) with
    close := { s.close with copy := some { k with cursor := k.cursor + 1 }, statements := s.close.statements + 1 } }
    closeCursorWord (wordOf (k.cursor + 1))

theorem advanceClose_eq (h : v.close.copy = some k) : advanceClose v =
    wr { v with close := { v.close with copy := some { k with cursor := k.cursor + 1 } } } closeCursorWord
      (wordOf (k.cursor + 1)) := by
  unfold advanceClose setCloseCursor
  rw [closeCursor_of_copy h, h]

theorem stated_frame (i : Nat) (s : State) : stated i s = { s with
    mem := (stated i s).mem, port := (stated i s).port, writer := (stated i s).writer } := by
  unfold stated
  rw [journalAppend_frame]
  rfl

theorem writeStatement_eq (h : s.close.copy = some k) (i : Nat) :
    writeStatement i (journalTaken s) = statementWritten i k s := by
  have hclose : (stated i s).close = s.close := by rw [stated_frame]
  have hwrite : writeStatement i (journalTaken s) = advanceClose { setNotice (subscriberWord i 7) 3 (stated i s) with
      close := { (stated i s).close with statements := (stated i s).close.statements + 1 } } := rfl
  rw [hwrite, hclose]
  exact advanceClose_eq (v := { setNotice (subscriberWord i 7) 3 (stated i s) with
    close := { s.close with statements := s.close.statements + 1 } }) h

theorem statement_length (s : State) (i : Nat) : (statementWords s i).length = 12 := rfl

theorem stated_kept (hring : RingLaw s) (i : Nat) :
    KeptOutside ringPlace (closeRecord i (statementOf s i).total (journalTaken s)) (stated i s) :=
  journalAppend_kept (ringLaw_of_writer (s := journalTaken s) (t := closeRecord i (statementOf s i).total (journalTaken s))
    hring rfl) .statement (Nat.le_of_eq (statement_length s i))

theorem stated_wf (hm : MemWf s.mem) (i : Nat) : MemWf (stated i s).mem :=
  journalAppend_wf _ _ _ (wrHeld_wf _ _ hm)

theorem stated_writer {r : RingCopy} (h : s.writer.journal = some r) (i : Nat) : (stated i s).writer = { s.writer with
    journal := some { head := (r.head + 1) % 1024, tail := r.tail, sequence := nextSequence r.sequence }, taken := false } :=
  journalAppend_writer (s := closeRecord i (statementOf s i).total (journalTaken s)) h .statement (statementWords s i)

theorem statement_at {r : RingCopy} (hm : MemWf s.mem) (h : s.writer.journal = some r) (i : Nat) :
    JournalAt r.head r.sequence 3 (statementWords s i) s (stated i s) :=
  (journalAt_journalAppend (s := closeRecord i (statementOf s i).total (journalTaken s)) (wrHeld_wf _ _ hm) h .statement
    (Nat.le_of_eq (statement_length s i))).of_clock rfl

/-- The words that the notice and the cursor leave. -/
theorem statementWritten_rd (i : Nat) (k : CloseCopy) (s : State) {a : Nat} (h7 : a ≠ subscriberWord i 7) (hc : a ≠ 0x127) :
    rd (statementWritten i k s) a = rd (stated i s) a :=
  (rd_wr_other _ _ _ _ hc).trans (rd_wr_other (stated i s) _ _ _ h7)

end Sys2Proof.Machine


/-! ## CLOSE_VISIT and the end of a close (R164, R165, R168, R169), and the settlement of O53 -/

namespace Sys2Proof.Machine

variable {s t u v b : State} {i n : Nat} {k : CloseCopy}

/-! The end of a close (R169). -/

/-- R169: the status goes to IDLE. -/
def closeIdled (k : CloseCopy) (s : State) : State :=
  wr { s with close := { s.close with copy := some { k with status := .idle } } } closeStatusWord 0

/-- R169: CLOSE_END has been logged. -/
def closeEndLogged (k : CloseCopy) (s : State) : State :=
  logAppend .closeEnd k.number s.close.statements (if s.close.resumed then 1 else 0) 0 (closeIdled k s)

/-- R169: the bound slot is let go. -/
def closeReleased (k : CloseCopy) (s : State) : State :=
  { closeEndLogged k s with close := { s.close with copy := some { k with status := .idle }, bound := none } }

theorem closeIdled_wf (hm : MemWf s.mem) (k : CloseCopy) : MemWf (closeIdled k s).mem := wr_wf _ _ _ hm

theorem closeIdled_kept (k : CloseCopy) (s : State) : WordsKept [0x126] s (closeIdled k s) :=
  wordsKept_wr { s with close := { s.close with copy := some { k with status := .idle } } } closeStatusWord 0

theorem closeEndLogged_frame (k : CloseCopy) (s : State) : closeEndLogged k s = { s with
    mem := (closeEndLogged k s).mem, port := (closeEndLogged k s).port, writer := (closeEndLogged k s).writer
    flags := (closeEndLogged k s).flags, close := { s.close with copy := some { k with status := .idle } } } := by
  have hframe := logAppend_frame .closeEnd k.number s.close.statements (if s.close.resumed then 1 else 0) 0 (closeIdled k s)
  unfold closeEndLogged
  generalize logAppend .closeEnd k.number s.close.statements (if s.close.resumed then 1 else 0) 0 (closeIdled k s) = v at *
  rw [hframe]
  rfl

theorem closeEndLogged_wf (hm : MemWf s.mem) (k : CloseCopy) : MemWf (closeEndLogged k s).mem :=
  logAppend_wf _ _ _ _ _ _ (closeIdled_wf hm k)

theorem closeEndLogged_log (hring : RingLaw s) (k : CloseCopy) : KeptOutside ringPlace (closeIdled k s) (closeEndLogged k s) :=
  logAppend_kept (ringLaw_of_writer (s := s) (t := closeIdled k s) hring rfl) .closeEnd k.number s.close.statements
    (if s.close.resumed then 1 else 0) 0

theorem closeEndLogged_kept (hring : RingLaw s) (k : CloseCopy) : KeptOutside (withRings [0x126]) s (closeEndLogged k s) :=
  ((closeIdled_kept k s).withRings (List.Subset.refl _)).trans (closeEndLogged_log hring k).withRings

theorem closeEndLogged_status (hm : MemWf s.mem) (hring : RingLaw s) (k : CloseCopy) : rd (closeEndLogged k s) 0x126 = 0 :=
  (closeEndLogged_log hring k _ (closePlace_ring (by decide))).trans
    (rd_wr_same { s with close := { s.close with copy := some { k with status := .idle } } } closeStatusWord 0 hm)

theorem closeEndLogged_logged (hm : MemWf s.mem) (hring : RingLaw s) (hk : RingsKept (closeEndLogged k s) t)
    (hw : t.writer = (closeEndLogged k s).writer) :
    Logged .closeEnd k.number s.close.statements (if s.close.resumed then 1 else 0) 0 s t :=
  logged_logAppend (v := closeIdled k s) (closeIdled_wf hm k) hring rfl rfl hk hw

theorem closeEndLogged_code (hring : RingLaw s) (hn : n < 8) (k : CloseCopy) :
    requestCode (closeReleased k s) n = requestCode s n := congrArg (field · 0 8) (closeEndLogged_kept hring k _ (by
  rw [← Bool.not_eq_true, withRings_iff, ringPlace_requestWord hn (by decide)]
  simp [requestWord]
  omega))

theorem setCloseStatus_idle (hk : s.close.copy = some k) : setCloseStatus .idle s = closeIdled k s := by
  unfold setCloseStatus
  rw [hk]
  rfl

theorem endClose_unbound (hk : s.close.copy = some k) (hb : s.close.bound = none) : endClose s = closeEndLogged k s := by
  unfold endClose
  dsimp only
  rw [closeNumber_of_copy hk, setCloseStatus_idle hk, hb]
  rfl

theorem endClose_bound (hk : s.close.copy = some k) (hb : s.close.bound = some n) :
    endClose s = endDone n k.number (closeReleased k s) := by
  have hclose : (closeEndLogged k s).close = { s.close with copy := some { k with status := .idle } } := by
    rw [closeEndLogged_frame]
  have hend : endClose s = endDone n k.number
      { closeEndLogged k s with close := { (closeEndLogged k s).close with bound := none } } := by
    unfold endClose
    dsimp only
    rw [closeNumber_of_copy hk, setCloseStatus_idle hk, hb]
    rfl
  rw [hend, hclose]
  rfl

/-! The visit at the cursor (R164). -/

theorem closeStep_at (h : closeRuns s = true) (hk : s.close.copy = some k) (hs : k.status = .closing)
    (hstall : s.close.stalled = false) : closeStep s = if subscriberCount ≤ k.cursor then endClose s
      else if servable s k.cursor then statementVisit k.cursor (partRead s) else advanceClose (partRead s) := by
  unfold closeStep
  rw [if_pos ⟨h, (closeStatus_of_copy hk).trans hs, hstall⟩, closeCursor_of_copy hk]

theorem exec_closeVisit (s : State) : exec .closeVisit s = .next (latchArisen s (closeStep s)) := rfl

theorem closeRuns_started (h : closeRuns s = true) : s.part.state ≠ .starting := fun hst => by
  unfold closeRuns at h
  rw [hst] at h
  simp at h

theorem statementVisit_room {r l : RingCopy} (hl : s.writer.log = some l) (hj : s.writer.journal = some r)
    (hroom : ringFull .journal r = false) (hserve : servable s i = true) (hk : s.close.copy = some k) :
    statementVisit i (partRead s) = statementWritten i k s := by
  unfold statementVisit
  rw [takeJournal_room hl hj hroom]
  exact (if_pos hserve).trans (writeStatement_eq hk i)

theorem statementVisit_full {r l : RingCopy} (hl : s.writer.log = some l) (hj : s.writer.journal = some r)
    (hfull : ringFull .journal r = true) (hst : s.part.state ≠ .starting) : statementVisit i (partRead s) =
      { s with close := { s.close with stalled := true }, flags := s.flags ||| 0x1000, port := (partRead s).port } := by
  unfold statementVisit
  rw [takeJournal_full hl hj hfull, reportCondition_started (s := partRead s) hst]
  rfl

theorem statementWritten_frame (i : Nat) (k : CloseCopy) (s : State) : statementWritten i k s = { s with
    mem := (statementWritten i k s).mem, port := (statementWritten i k s).port, writer := (stated i s).writer
    close := { s.close with
      copy := some { k with cursor := k.cursor + 1 }, statements := s.close.statements + 1 } } := by
  have hframe := stated_frame i s
  unfold statementWritten
  generalize stated i s = v at *
  rw [hframe]
  rfl

/-- The words of the record, its notice and the cursor word. -/
theorem statementWritten_kept (hring : RingLaw s) (i : Nat) (k : CloseCopy) : KeptOutside
    (withRings (0x127 :: ([7, 10, 11, 12, 13, 14, 16, 18, 20, 22, 23, 24].map (subscriberWord i)))) s
    (statementWritten i k s) := by
  intro a ha
  rw [← Bool.not_eq_true, withRings_iff, not_or] at ha
  obtain ⟨hmem, hno⟩ := ha
  have h7 : a ≠ subscriberWord i 7 := fun h => hmem (by rw [h]; simp)
  have hc : a ≠ 0x127 := fun h => hmem (by rw [h]; exact List.mem_cons_self)
  rw [statementWritten_rd i k s h7 hc, stated_kept hring i a (Bool.eq_false_iff.2 hno)]
  refine closeRecord_kept i _ _ a fun h => hmem (List.mem_cons_of_mem _ ?_)
  exact List.map_subset _ (by unfold periodWords; decide) h

theorem subscriberWord_ne_cursor (i w : Nat) : subscriberWord i w ≠ 0x127 := by
  unfold subscriberWord
  omega

theorem subRd_statementWritten (hring : RingLaw s) (k : CloseCopy) {w : Nat} (hw : w ≠ 7) :
    subRd (statementWritten i k s) i w = subRd (closeRecord i (statementOf s i).total (journalTaken s)) i w :=
  (statementWritten_rd i k s (fun h => hw (Nat.add_left_cancel h)) (subscriberWord_ne_cursor i w)).trans
    (stated_kept hring i _ (ringPlace_subscriberWord i w))

theorem statementWritten_notice (hm : MemWf s.mem) (hring : RingLaw s) (i : Nat) (k : CloseCopy) :
    subRd (statementWritten i k s) i 7 = subRd s i 7 ||| 8 := by
  have hcursor : rd (statementWritten i k s) (subscriberWord i 7) = rd (setNotice (subscriberWord i 7) 3 (stated i s))
      (subscriberWord i 7) := rd_wr_other _ _ _ _ (by unfold subscriberWord closeCursorWord; omega)
  have hnotice : rd (setNotice (subscriberWord i 7) 3 (stated i s)) (subscriberWord i 7) =
      rd (stated i s) (subscriberWord i 7) ||| wordOf (2 ^ 3) := rd_wr_same _ _ _ (stated_wf hm i)
  have hold : rd (stated i s) (subscriberWord i 7) = rd s (subscriberWord i 7) :=
    (stated_kept hring i _ (ringPlace_subscriberWord i 7)).trans (closeRecord_kept i _ _ _ fun h => by
      obtain ⟨x, hx, he⟩ := List.mem_map.1 h
      have : x = 7 := Nat.add_left_cancel he
      subst this
      exact absurd hx (by decide))
  rw [subRd, hcursor, hnotice, hold]
  rfl

theorem statementWritten_purchase (hm : MemWf s.mem) (hring : RingLaw s) (k : CloseCopy) {j : Nat} (hj : j < 4) :
    purchaseAt (statementWritten i k s) i j =
      { purchaseAt s i j with valid := isLive s (purchaseAt s i j) } := by
  have h := closeRecord_purchase (s := journalTaken s) (i := i) hm (statementOf s i).total hj
  have hword := subRd_statementWritten (i := i) hring k (w := 14 + 2 * j) (by omega)
  have hevent := subRd_statementWritten (i := i) hring k (w := 15 + 2 * j) (by omega)
  calc purchaseAt (statementWritten i k s) i j
      = purchaseAt (closeRecord i (statementOf s i).total (journalTaken s)) i j := by
        unfold purchaseAt
        rw [hword, hevent]
    _ = _ := h

theorem statementWritten_cursor (hm : MemWf s.mem) (i : Nat) (k : CloseCopy) :
    rd (statementWritten i k s) 0x127 = wordOf (k.cursor + 1) :=
  rd_wr_same _ closeCursorWord _ (wr_wf _ _ _ (stated_wf hm i))

theorem statementWritten_journal {r : RingCopy} (hm : MemWf s.mem) (hring : RingLaw s) (hj : s.writer.journal = some r)
    (i : Nat) (k : CloseCopy) : JournalAt r.head r.sequence 3 (statementWords s i) s (statementWritten i k s) := by
  have hhead : r.head < 1024 := (hring.1 .journal r hj).1
  refine (statement_at hm hj i).congr (fun w hw => statementWritten_rd i k s ?_ ?_) (Nat.le_of_eq (statement_length s i))
  · unfold journalWord subscriberWord
    omega
  · unfold journalWord
    omega

end Sys2Proof.Machine


/-! ## The settlement of O53 -/

namespace Sys2Proof.Machine

variable {s t u v b : State} {i n : Nat} {k : CloseCopy}

/-- What the end of a close leaves when no slot is bound. -/
theorem closeEnded_unbound (hm : MemWf s.mem) (hring : RingLaw s) (hb : s.close.bound = none) (hend : closeStep s = closeEndLogged k s) :
    ∃ t, exec .closeVisit s = .next t ∧
      t.close = { s.close with copy := some { k with status := .idle }, bound := none } ∧ rd t 0x126 = 0 ∧
      Logged .closeEnd k.number s.close.statements (if s.close.resumed then 1 else 0) 0 s t ∧
      KeptOutside (withRings [0x126]) s t ∧ t.part = s.part ∧
      t = { s with
        mem := t.mem, port := t.port, part := t.part, close := t.close, writer := t.writer, flags := t.flags } := by
  refine ⟨latchArisen s (closeEndLogged k s), by rw [exec_closeVisit, hend], ?_⟩
  rw [rd_latchArisen, logged_latchArisen, keptOutside_latchArisen, latchArisen_frame]
  have hframe := closeEndLogged_frame k s
  have hlogged := closeEndLogged_logged (k := k) (t := closeEndLogged k s) hm hring (fun _ _ => rfl) rfl
  have hstatus := closeEndLogged_status hm hring k
  have hkept := closeEndLogged_kept hring k
  generalize closeEndLogged k s = v at *
  refine ⟨?_, hstatus, hlogged, hkept, ?_, ?_⟩
  · show v.close = _
    rw [hframe, ← hb]
  · show v.part = _
    rw [hframe]
  · show { v with flags := (latchArisen s v).flags } = { s with
      mem := v.mem, port := v.port, part := v.part, close := v.close, writer := v.writer, flags := (latchArisen s v).flags }
    rw [hframe]

/-- What the end of a close leaves when slot `n` is bound. -/
theorem closeEnded_bound (hm : MemWf s.mem) (hring : RingLaw s) (hn : n < 8)
    (hend : closeStep s = endDone n k.number (closeReleased k s)) :
    ∃ t, exec .closeVisit s = .next t ∧
      t.close = { s.close with copy := some { k with status := .idle }, bound := none } ∧ rd t 0x126 = 0 ∧
      (SlotShows n 3 0 s t ∧ rd t (requestWord n 3) = wordOf k.number ∧ ∀ x, (n, x) ∉ t.part.inProgress) ∧
      Logged .closeEnd k.number s.close.statements (if s.close.resumed then 1 else 0) 0 s t ∧
      KeptOutside (withRings (0x126 :: slotWords n)) s t ∧
      t = { s with
        mem := t.mem, port := t.port, part := t.part, close := t.close, writer := t.writer, flags := t.flags } := by
  refine ⟨latchArisen s (endDone n k.number (closeReleased k s)), by rw [exec_closeVisit, hend], ?_⟩
  have hwf : MemWf (closeReleased k s).mem := closeEndLogged_wf hm k
  have hshows := (slotShows_endDone n k.number hwf).of_code (closeEndLogged_code hring hn k)
  have hresult := rd_endDone_result n k.number hwf
  have hstatus : rd (endDone n k.number (closeReleased k s)) 0x126 = 0 :=
    (rd_done (fun h => by have := slotWords_place hn h; omega) k.number).trans (closeEndLogged_status hm hring k)
  have hlogged : Logged .closeEnd k.number s.close.statements (if s.close.resumed then 1 else 0) 0 s
      (endDone n k.number (closeReleased k s)) :=
    closeEndLogged_logged hm hring (ringsKept_done (v := closeReleased k s) hn k.number) rfl
  have hkept : KeptOutside (withRings (0x126 :: slotWords n)) s (endDone n k.number (closeReleased k s)) :=
    KeptOutside.trans (t := closeReleased k s) ((closeEndLogged_kept hring k).withRings_mono (by simp))
      ((wordsKept_endDone n k.number (closeReleased k s)).withRings (by simp))
  have hdone : (endDone n k.number (closeReleased k s)).part =
      { s.part with inProgress := s.part.inProgress.filter fun p => p.1 != n } := by
    rw [endDone_frame, closeReleased, closeEndLogged_frame]
  have hclose : (endDone n k.number (closeReleased k s)).close =
      { s.close with copy := some { k with status := .idle }, bound := none } := rfl
  have hframe : endDone n k.number (closeReleased k s) = { s with
      mem := (endDone n k.number (closeReleased k s)).mem, port := (endDone n k.number (closeReleased k s)).port
      part := (endDone n k.number (closeReleased k s)).part, close := (endDone n k.number (closeReleased k s)).close
      writer := (closeEndLogged k s).writer, flags := (closeEndLogged k s).flags } := by
    rw [endDone_frame, closeReleased, closeEndLogged_frame]
  generalize endDone n k.number (closeReleased k s) = v at *
  rw [latchArisen_frame]
  refine ⟨hclose, hstatus, ⟨hshows, hresult, fun x hx => ?_⟩, hlogged, hkept, ?_⟩
  · have hx : (n, x) ∈ v.part.inProgress := hx
    rw [hdone] at hx
    exact absurd rfl (bne_iff_ne.1 (List.mem_filter.1 hx).2)
  · show { v with flags := (latchArisen s v).flags } = { s with
      mem := v.mem, port := v.port, part := v.part, close := v.close, writer := v.writer, flags := (latchArisen s v).flags }
    rw [hframe]

/-- R165, R168: a record to be stated, and a journal with room. -/
theorem closeVisit_states {r l : RingCopy} (hm : MemWf s.mem) (hring : RingLaw s) (hl : s.writer.log = some l)
    (hj : s.writer.journal = some r) (hroom : ringFull .journal r = false) (hserve : servable s i = true)
    (hk : s.close.copy = some k)
    (hstep : closeStep s = statementVisit i (partRead s)) :
    ∃ t, exec .closeVisit s = .next t ∧
      (∀ w, w = 10 ∨ w = 11 ∨ w = 12 ∨ w = 13 → subRd t i w = 0) ∧
      rdPair t (subscriberWord i 22) = (statementOf s i).total % 4294967296 ∧
      subRd t i 24 = wordOf k.number ∧ subRd t i 7 = subRd s i 7 ||| 8 ∧
      (∀ j, j < 4 → purchaseAt t i j = { purchaseAt s i j with valid := isLive s (purchaseAt s i j) }) ∧
      JournalAt r.head r.sequence 3 (statementWords s i) s t ∧
      t.writer.journal = some { head := (r.head + 1) % 1024, tail := r.tail, sequence := nextSequence r.sequence } ∧
      t.close = { s.close with
        copy := some { k with cursor := k.cursor + 1 }, statements := s.close.statements + 1 } ∧
      rd t 0x127 = wordOf (k.cursor + 1) ∧
      KeptOutside
        (withRings (0x127 :: ([7, 10, 11, 12, 13, 14, 16, 18, 20, 22, 23, 24].map (subscriberWord i)))) s t ∧
      FlagsFollow s t ∧
      t = { s with
        mem := t.mem, port := t.port, close := t.close, flags := t.flags
        writer := { s.writer with journal := t.writer.journal, taken := false } } := by
  rw [statementVisit_room hl hj hroom hserve hk] at hstep
  refine ⟨latchArisen s (statementWritten i k s), by rw [exec_closeVisit, hstep], ?_⟩
  have hframe := statementWritten_frame i k s
  have hamounts (w : Nat) (hw : w = 10 ∨ w = 11 ∨ w = 12 ∨ w = 13) : subRd (statementWritten i k s) i w = 0 :=
    (subRd_statementWritten hring k (by omega)).trans (closeRecord_amounts (s := journalTaken s) hm _ hw)
  have htotal : rdPair (statementWritten i k s) (subscriberWord i 22) = (statementOf s i).total % 4294967296 :=
    (rdPair_congr (subRd_statementWritten hring k (w := 22) (by decide)) (subRd_statementWritten hring k (w := 23) (by decide))).trans
      (closeRecord_total (s := journalTaken s) hm _)
  have hnumber : subRd (statementWritten i k s) i 24 = wordOf k.number :=
    (subRd_statementWritten hring k (by decide)).trans ((closeRecord_number (s := journalTaken s) hm _).trans
      (congrArg wordOf (closeNumber_of_copy (s := journalTaken s) hk)))
  have hnotice := statementWritten_notice hm hring i k
  have hpurchase (j : Nat) (hj : j < 4) := statementWritten_purchase (i := i) hm hring k hj
  have hjournal := statementWritten_journal hm hring hj i k
  have hcursor := statementWritten_cursor hm i k
  have hkept := statementWritten_kept hring i k
  have hwriter : (statementWritten i k s).writer = { s.writer with
      journal := some { head := (r.head + 1) % 1024, tail := r.tail, sequence := nextSequence r.sequence }
      taken := false } := by
    rw [hframe]
    exact stated_writer hj i
  have hflags : (statementWritten i k s).flags = s.flags := by rw [hframe]
  generalize statementWritten i k s = v at *
  have hfollow := flagsFollow_latchArisen hflags
  have hrd := rd_latchArisen s v
  refine ⟨fun w hw => (hrd _).trans (hamounts w hw), (rdPair_congr (hrd _) (hrd _)).trans htotal, (hrd _).trans hnumber,
    (hrd _).trans hnotice, fun j hj => ?_, hjournal.congr (fun w _ => hrd _) (Nat.le_of_eq (statement_length s i)), ?_, ?_,
    (hrd _).trans hcursor, fun a ha => (hrd a).trans (hkept a ha), hfollow, ?_⟩
  · rw [← hpurchase j hj]
    unfold purchaseAt subRd
    rw [hrd, hrd]
  · rw [latchArisen_writer, hwriter]
  · rw [latchArisen_close, hframe]
  · have hjr : v.writer.journal = some { head := (r.head + 1) % 1024, tail := r.tail, sequence := nextSequence r.sequence } := by
      rw [hwriter]
    rw [latchArisen_frame]
    show { v with flags := (latchArisen s v).flags } = { s with
      mem := v.mem, port := v.port, close := v.close, flags := (latchArisen s v).flags
      writer := { s.writer with journal := v.writer.journal, taken := false } }
    rw [hjr, ← hwriter, hframe]

/-- Settles O53: the cursor's test chooses the end of the close, a statement, a stall or a record passed. -/
theorem closeVisitWritesTheStatement : Obligations.CloseVisitWritesTheStatement := by
  unfold Obligations.CloseVisitWritesTheStatement
  intro k r l s hm hring hslot hruns hk hs hstall hl hj
  have hst := closeRuns_started hruns
  have hstep := closeStep_at hruns hk hs hstall
  refine ⟨fun hlt hserve hroom => ?_, fun hlt hserve hfull => ?_, fun hlt hserve => ?_, fun hle => ?_⟩
  · rw [if_neg (show ¬subscriberCount ≤ k.cursor from Nat.not_le.2 hlt), if_pos hserve] at hstep
    obtain ⟨t, hexec, hamounts, htotal, hnumber, hnotice, hpurchase, ⟨h0, h1, h2, hbody⟩, hrest⟩ :=
      closeVisit_states hm hring hl hj hroom hserve hk hstep
    have hcharge : rdPair t (journalWord r.head 10) = (statementOf s k.cursor).charge % 4294967296 :=
      (congrArg₂ pairValue (hbody 6 _ rfl) (hbody 7 _ rfl)).trans (pairValue_words_mod _)
    have hsum : rdPair t (journalWord r.head 13) = (statementOf s k.cursor).total % 4294967296 :=
      (congrArg₂ pairValue (hbody 9 _ rfl) (hbody 10 _ rfl)).trans (pairValue_words_mod _)
    exact ⟨t, hexec, hamounts, htotal, hnumber, hnotice, hpurchase, h0, h1, h2, hbody 11 _ rfl, hbody 0 _ rfl,
      (hbody 1 _ rfl).trans (congrArg wordOf (closeNumber_of_copy hk)), (hbody 2 _ rfl).trans (wordOf_rd _ _),
      (hbody 3 _ rfl).trans (wordOf_rd _ _), (hbody 4 _ rfl).trans (wordOf_rd _ _), hbody 5 _ rfl, hcharge,
      (hbody 8 _ rfl).trans (wordOf_rd _ _), hsum, hrest⟩
  · rw [if_neg (show ¬subscriberCount ≤ k.cursor from Nat.not_le.2 hlt), if_pos hserve, statementVisit_full hl hj hfull hst] at hstep
    refine ⟨{ s with close := { s.close with stalled := true }, flags := s.flags ||| 0x1000, port := (partRead s).port },
      ?_, fun hp => partRead_port hp, rfl⟩
    rw [exec_closeVisit]
    exact next_latchArisen hstep rfl
  · rw [if_neg (show ¬subscriberCount ≤ k.cursor from Nat.not_le.2 hlt), if_neg (by simp [hserve]), advanceClose_eq (v := partRead s) hk] at hstep
    refine ⟨wr { partRead s with close := { s.close with copy := some { k with cursor := k.cursor + 1 } } } closeCursorWord
      (wordOf (k.cursor + 1)), ?_, rfl, rd_wr_same _ closeCursorWord _ hm, ?_, rfl⟩
    · rw [exec_closeVisit]
      exact next_latchArisen hstep rfl
    · exact wordsKept_wr { partRead s with close := { s.close with copy := some { k with cursor := k.cursor + 1 } } }
        closeCursorWord (wordOf (k.cursor + 1))
  · obtain ⟨-, -, -, hbound, -⟩ := hslot
    rw [if_pos (show subscriberCount ≤ k.cursor from hle)] at hstep
    cases hb : s.close.bound with
    | none =>
      obtain ⟨t, hexec, hclose, hstatus, hlogged, hkept, hpart, hframe⟩ :=
        closeEnded_unbound hm hring hb (hstep.trans (endClose_unbound hk hb))
      exact ⟨t, hexec, by rw [hclose], hstatus, fun n hn => (by cases hn), hlogged, fun _ => ⟨hkept, hpart⟩,
        fun n hn => (by cases hn), hframe⟩
    | some m =>
      obtain ⟨t, hexec, hclose, hstatus, hshows, hlogged, hkept, hframe⟩ :=
        closeEnded_bound hm hring (hbound m hb) (hstep.trans (endClose_bound hk hb))
      exact ⟨t, hexec, by rw [hclose], hstatus, fun n hn => Option.some.inj hn ▸ hshows, hlogged, fun hn => (by cases hn),
        fun n hn => Option.some.inj hn ▸ hkept, hframe⟩

end Sys2Proof.Machine


/-! ## The element census over its parents alone (R128) -/

namespace Sys2Proof.Machine

variable {s t u v : State} {i j : Nat} {f g : Nat → Nat}

/-! The tree that the census builds. -/

/-- The indices in use, in ascending order, the head end left out. -/
def usedIndices (s : State) : List Nat := (List.range 256).filter fun i => decide (i ≠ 0) && usedInTable s i

theorem usedInTable_iff (s : State) (i : Nat) :
    usedInTable s i = true ↔ i = 0 ∨ (i ≤ 255 ∧ rd s (elementWord i 0) ≠ 0) := by
  simp [usedInTable]

theorem usedInTable_zero (s : State) : usedInTable s 0 = true := rfl

theorem usedInTable_le (h : usedInTable s i = true) : i ≤ 255 := by
  obtain rfl | ⟨hi, -⟩ := (usedInTable_iff s i).1 h
  · exact Nat.zero_le _
  · exact hi

theorem mem_usedIndices : i ∈ usedIndices s ↔ i ≠ 0 ∧ usedInTable s i = true := by
  simp only [usedIndices, List.mem_filter, List.mem_range, Bool.and_eq_true, decide_eq_true_eq]
  exact ⟨fun h => h.2, fun h => ⟨Nat.lt_succ_of_le (usedInTable_le h.2), h⟩⟩

theorem usedIndices_sorted (s : State) : (usedIndices s).Pairwise (· < ·) := List.pairwise_lt_range.filter _

theorem usedIndices_nodup (s : State) : (usedIndices s).Nodup := List.nodup_range.filter _

/-- The tree copy of an element with its parent given. -/
def censusElement (s : State) (f : Nat → Nat) (i : Nat) : Element :=
  { address := (rd s (elementWord i 0)).toNat, parent := f i, state := censusState (rd s (elementWord i 4)).toNat }

/-- The tree of the table's elements with their parents given. -/
def treeWith (s : State) (f : Nat → Nat) : Tree := (usedIndices s).map fun i => (i, censusElement s f i)

theorem tableGet_map {α : Type} (h : Nat → α) (l : List Nat) (i : Nat) :
    tableGet (l.map fun j => (j, h j)) i = if i ∈ l then some (h i) else none := by
  induction l with
  | nil => rfl
  | cons j l ih =>
    show (if i = j then some (h j) else tableGet (l.map fun j => (j, h j)) i) = _
    by_cases hij : i = j
    · subst hij
      rw [if_pos rfl, if_pos List.mem_cons_self]
    · rw [if_neg hij, ih]
      simp [hij]

theorem tableGet_treeWith (s : State) (f : Nat → Nat) (i : Nat) :
    tableGet (treeWith s f) i = if i ∈ usedIndices s then some (censusElement s f i) else none :=
  tableGet_map (censusElement s f) (usedIndices s) i

theorem treeWith_congr (h : ∀ i ∈ usedIndices s, f i = g i) : treeWith s f = treeWith s g :=
  List.map_congr_left fun i hi => by simp only [censusElement, h i hi]

theorem treeWith_indices (s : State) (f : Nat → Nat) : (treeWith s f).map (fun p => p.1) = usedIndices s := by
  rw [treeWith, List.map_map]
  exact List.map_id _

theorem tableSet_map {α : Type} {h k : Nat → α} {i : Nat} (hk : ∀ j, j ≠ i → k j = h j) {l : List Nat}
    (hs : l.Pairwise (· < ·)) (hi : i ∈ l) :
    tableSet (l.map fun j => (j, h j)) i (k i) = l.map fun j => (j, k j) := by
  induction l with
  | nil => exact absurd hi List.not_mem_nil
  | cons j l ih =>
    obtain ⟨hj, hl⟩ := List.pairwise_cons.1 hs
    have hrest (hne : ∀ x ∈ l, x ≠ i) : l.map (fun j => (j, h j)) = l.map fun j => (j, k j) :=
      List.map_congr_left fun x hx => by rw [hk x (hne x hx)]
    show (if i < j then _ else if i = j then _ else _) = (j, k j) :: _
    obtain rfl | hil := List.mem_cons.1 hi
    · rw [if_neg (Nat.lt_irrefl _), if_pos rfl, hrest fun x hx => (Nat.ne_of_gt (hj x hx))]
    · have hlt := hj i hil
      rw [if_neg (Nat.not_lt.2 (Nat.le_of_lt hlt)), if_neg (Nat.ne_of_gt hlt), ih hl hil, hk j (Nat.ne_of_lt hlt)]

theorem treeSetParent_treeWith (hi : i ∈ usedIndices s) (f : Nat → Nat) :
    treeSetParent (treeWith s f) i 0 = treeWith s (Function.update f i 0) := by
  rw [treeSetParent_eq ((tableGet_treeWith s f i).trans (if_pos hi))]
  have hnew : ({ censusElement s f i with parent := 0 } : Element) = censusElement s (Function.update f i 0) i := by
    simp [censusElement]
  rw [hnew]
  exact tableSet_map (fun j hj => by simp [censusElement, Function.update_of_ne hj]) (usedIndices_sorted s) hi

/-- A state of the tree that is set as it stands. -/
theorem treeSetState_treeWith (hi : i ∈ usedIndices s) (h : censusState (rd s (elementWord i 4)).toNat = .unpolled) (f : Nat → Nat) :
    treeSetState (treeWith s f) i .unpolled = treeWith s f := by
  rw [treeSetState_eq ((tableGet_treeWith s f i).trans (if_pos hi))]
  have hsame : ({ censusElement s f i with state := .unpolled } : Element) = censusElement s f i := by
    simp [censusElement, h]
  rw [hsame]
  exact tableSet_map (h := censusElement s f) (fun _ _ => rfl) (usedIndices_sorted s) hi

/-! The resets of a pass. -/

/-- The elements whose parents a pass resets, each test made in the tree as the resets before have left it. -/
def passResets (bad : (Nat → Nat) → Nat → Bool) : (Nat → Nat) → List Nat → List Nat
  | _, [] => []
  | f, i :: l => if bad f i then i :: passResets bad (Function.update f i 0) l else passResets bad f l

theorem passResets_cons (bad : (Nat → Nat) → Nat → Bool) (f : Nat → Nat) (i : Nat) (l : List Nat) : passResets bad f (i :: l) =
    if bad f i then i :: passResets bad (Function.update f i 0) l else passResets bad f l := rfl

/-- The parents after resets. -/
def zeroed (rs : List Nat) (f : Nat → Nat) (i : Nat) : Nat := if i ∈ rs then 0 else f i

variable {bad : (Nat → Nat) → Nat → Bool} {l : List Nat}

theorem zeroed_nil (f : Nat → Nat) : zeroed [] f = f := rfl

theorem zeroed_update (rs : List Nat) (f : Nat → Nat) (i : Nat) : zeroed rs (Function.update f i 0) = zeroed (i :: rs) f := by
  funext j
  unfold zeroed
  by_cases hji : j = i <;> simp [hji]

theorem zeroed_append (rs qs : List Nat) (f : Nat → Nat) : zeroed qs (zeroed rs f) = zeroed (rs ++ qs) f := by
  funext j
  unfold zeroed
  by_cases hq : j ∈ qs <;> by_cases hr : j ∈ rs <;> simp [hq, hr]

theorem passResets_sublist (bad : (Nat → Nat) → Nat → Bool) (l : List Nat) : ∀ f, (passResets bad f l).Sublist l := by
  induction l with
  | nil => exact fun _ => List.Sublist.refl _
  | cons i l ih =>
    intro f
    unfold passResets
    split
    · exact (ih _).cons_cons i
    · exact (ih _).cons i

theorem passResets_append (bad : (Nat → Nat) → Nat → Bool) (l k : List Nat) : ∀ f, passResets bad f (l ++ k) =
    passResets bad f l ++ passResets bad (zeroed (passResets bad f l) f) k := by
  induction l with
  | nil => exact fun _ => rfl
  | cons i l ih =>
    intro f
    simp only [List.cons_append, passResets]
    split
    · rw [ih, List.cons_append, zeroed_update]
    · rw [ih]

/-- An element is reset when it fails the test in the tree as the resets before it have left it. -/
theorem mem_passResets {l k : List Nat} (hnodup : (l ++ i :: k).Nodup) (f : Nat → Nat) :
    i ∈ passResets bad f (l ++ i :: k) ↔ bad (zeroed (passResets bad f l) f) i = true := by
  have hl : i ∉ passResets bad f l := fun h => by
    have := (passResets_sublist bad l f).subset h
    simp only [List.nodup_append, List.mem_cons] at hnodup
    exact hnodup.2.2 i this i (.inl rfl) rfl
  have hk (g : Nat → Nat) : i ∉ passResets bad g k := fun h => by
    have := (passResets_sublist bad k g).subset h
    exact (List.nodup_cons.1 (List.nodup_append.1 hnodup).2.1).1 this
  rw [passResets_append, List.mem_append, or_iff_right hl, passResets_cons]
  split
  · next hb => exact ⟨fun _ => hb, fun _ => List.mem_cons_self⟩
  · next hb => exact ⟨fun h => absurd h (hk _), fun h => absurd h hb⟩

/-- The resets of a pass whose tests are known in advance. -/
theorem passResets_filter {q : Nat → Bool} (l : List Nat) : ∀ f : Nat → Nat,
    (∀ l₁ i l₂, l = l₁ ++ i :: l₂ → bad (zeroed (l₁.filter q) f) i = q i) → passResets bad f l = l.filter q := by
  induction l with
  | nil => exact fun _ _ => rfl
  | cons i l ih =>
    intro f h
    have hi : bad f i = q i := h [] i l rfl
    unfold passResets
    rw [hi]
    by_cases hq : q i = true
    · rw [if_pos hq, List.filter_cons_of_pos hq, ih _ fun l₁ j l₂ hl => ?_]
      rw [zeroed_update, ← List.filter_cons_of_pos hq]
      exact h (i :: l₁) j l₂ (by rw [hl]; rfl)
    · rw [if_neg hq, List.filter_cons_of_neg hq, ih _ fun l₁ j l₂ hl => ?_]
      rw [← List.filter_cons_of_neg hq]
      exact h (i :: l₁) j l₂ (by rw [hl]; rfl)

/-- Membership in what stands before an element of a sorted list. -/
theorem mem_before {l l₁ l₂ : List Nat} (hs : l.Pairwise (· < ·)) (hl : l = l₁ ++ i :: l₂) : j ∈ l₁ ↔ j ∈ l ∧ j < i := by
  subst hl
  obtain ⟨-, hright, hcross⟩ := List.pairwise_append.1 hs
  refine ⟨fun h => ⟨List.mem_append_left _ h, hcross j h i List.mem_cons_self⟩, fun ⟨h, hlt⟩ => ?_⟩
  obtain h | h := List.mem_append.1 h
  · exact h
  · obtain rfl | h := List.mem_cons.1 h
    · exact absurd hlt (Nat.lt_irrefl _)
    · exact absurd ((List.pairwise_cons.1 hright).1 j h) (Nat.not_lt.2 (Nat.le_of_lt hlt))

end Sys2Proof.Machine


/-! ## Chains, cycles and depths of the census (R110, R128) -/

namespace Sys2Proof.Machine

variable {s t u v : State} {i j : Nat} {f g : Nat → Nat}

/-! Parents that lead to elements in use. -/

/-- Every element in use has a parent in use, and the head end is taken as its own. -/
structure ParentMap (s : State) (g : Nat → Nat) : Prop where
  root : g 0 = 0
  used : ∀ i, usedInTable s i = true → usedInTable s (g i) = true

theorem ParentMap.iterate (h : ParentMap s g) (hi : usedInTable s i = true) (k : Nat) : usedInTable s (g^[k] i) = true := by
  induction k with
  | zero => exact hi
  | succ k ih =>
    rw [Function.iterate_succ_apply']
    exact h.used _ ih

theorem iterate_root (h : g 0 = 0) (k : Nat) : g^[k] 0 = 0 := Function.iterate_fixed h k

theorem iterate_stays (h : g 0 = 0) {a b : Nat} (ha : g^[a] i = 0) (hab : a ≤ b) : g^[b] i = 0 := by
  obtain ⟨c, rfl⟩ := Nat.exists_eq_add_of_le hab
  rw [Nat.add_comm, Function.iterate_add_apply, ha, iterate_root h]

theorem iterate_le_iff (h : g 0 = 0) (n : Nat) : (∃ d, d ≤ n ∧ g^[d] i = 0) ↔ g^[n] i = 0 :=
  ⟨fun ⟨_, hd, h0⟩ => iterate_stays h h0 hd, fun h0 => ⟨n, Nat.le_refl n, h0⟩⟩

/-- Two parent maps that agree along a chain of one. -/
theorem iterate_congr_along {k : Nat} (h : ∀ m, m < k → f (g^[m] i) = g (g^[m] i)) : f^[k] i = g^[k] i := by
  induction k with
  | zero => rfl
  | succ k ih =>
    rw [Function.iterate_succ_apply', Function.iterate_succ_apply', ih fun m hm => h m (Nat.lt_succ_of_lt hm)]
    exact h k (Nat.lt_succ_self k)

theorem ParentMap.iterate_congr (h : ParentMap s g) (hfg : ∀ j, usedInTable s j = true → f j = g j)
    (hi : usedInTable s i = true) (k : Nat) : f^[k] i = g^[k] i := iterate_congr_along fun m _ => hfg _ (h.iterate hi m)

/-- Resets shorten every chain that reaches the head end. -/
theorem iterate_of_reset (hf : f 0 = 0) (h : ∀ j, f j = g j ∨ f j = 0) (n : Nat) : ∀ i, g^[n] i = 0 → f^[n] i = 0 := by
  induction n with
  | zero => exact fun _ h0 => h0
  | succ n ih =>
    intro i h0
    rw [Function.iterate_succ_apply] at h0 ⊢
    obtain he | he := h i
    · rw [he]
      exact ih _ h0
    · rw [he]
      exact iterate_root hf n

theorem parentMap_foundParent (s : State) : ParentMap s (foundParent s) where
  root := by simp [foundParent, storedParent]
  used i _ := by
    unfold foundParent
    split
    · assumption
    · exact usedInTable_zero s

theorem ParentMap.zeroed (h : ParentMap s g) (rs : List Nat) : ParentMap s (zeroed rs g) where
  root := by
    unfold Machine.zeroed
    split
    · rfl
    · exact h.root
  used i hi := by
    unfold Machine.zeroed
    split
    · exact usedInTable_zero s
    · exact h.used i hi

theorem lowestOfCycle_zero (s : State) : lowestOfCycle s 0 = false := by simp [lowestOfCycle]

theorem parentMap_openedParent (s : State) : ParentMap s (openedParent s) where
  root := by
    unfold openedParent
    rw [lowestOfCycle_zero]
    exact (parentMap_foundParent s).root
  used i hi := by
    unfold openedParent
    split
    · exact usedInTable_zero s
    · exact (parentMap_foundParent s).used i hi

/-! The tests of the passes, over the parents alone. -/

theorem tableGet_treeWith_used (hi : usedInTable s i = true) : tableGet (treeWith s g) i ≠ none ↔ i ≠ 0 := by
  rw [tableGet_treeWith]
  by_cases h0 : i = 0
  · rw [if_neg fun h => (mem_usedIndices.1 h).1 h0]
    simp [h0]
  · rw [if_pos (mem_usedIndices.2 ⟨h0, hi⟩)]
    simp [h0]

theorem parentIn_treeWith (hg : g 0 = 0) (hi : usedInTable s i = true) : parentIn (treeWith s g) i = g i := by
  unfold parentIn
  rw [tableGet_treeWith]
  by_cases h0 : i = 0
  · rw [if_neg fun h => (mem_usedIndices.1 h).1 h0, h0, hg]
  · rw [if_pos (mem_usedIndices.2 ⟨h0, hi⟩)]
    rfl

theorem elementInUse_treeWith (s : State) (g : Nat → Nat) (i : Nat) : elementInUse (treeWith s g) i = usedInTable s i := by
  rw [Bool.eq_iff_iff, elementInUse_iff]
  by_cases hi : usedInTable s i = true
  · rw [tableGet_treeWith_used hi]
    simp only [hi, iff_true]
    exact em _
  · have h0 : i ≠ 0 := fun h => hi (h ▸ usedInTable_zero s)
    rw [tableGet_treeWith, if_neg fun h => hi (mem_usedIndices.1 h).2]
    simp [h0, hi]

/-- R110: the k-th element of a chain is the k-th parent, unless that is the head end. -/
theorem chain_treeWith (h : ParentMap s g) (hi : usedInTable s i = true) (k j : Nat) :
    (chain (treeWith s g) chainFuel i)[k]? = some j ↔ k < 256 ∧ j ≠ 0 ∧ g^[k] i = j := by
  have hiter (m : Nat) : (parentIn (treeWith s g))^[m] i = g^[m] i :=
    h.iterate_congr (fun x hx => parentIn_treeWith h.root hx) hi m
  rw [chain_getElem?]
  simp only [hiter, tableGet_treeWith_used (h.iterate hi _)]
  refine and_congr_right fun _ => ⟨fun ⟨hne, hj⟩ => ⟨hj ▸ hne k (Nat.le_refl k), hj⟩, fun ⟨hj0, hj⟩ => ⟨fun m hm h0 => ?_, hj⟩⟩
  exact hj0 (hj ▸ iterate_stays h.root h0 hm)

theorem depthOf_treeWith_le (h : ParentMap s g) (hi : usedInTable s i = true) :
    depthOf (treeWith s g) i ≤ 8 ↔ g^[8] i = 0 := by
  unfold depthOf
  rw [← List.getElem?_eq_none_iff, Option.eq_none_iff_forall_ne_some]
  simp only [ne_eq, chain_treeWith h hi]
  refine ⟨fun hno => ?_, fun h0 x ⟨_, hx, he⟩ => hx (he.symm.trans h0)⟩
  by_contra hne
  exact hno _ ⟨by decide, hne, rfl⟩

theorem tooDeep_treeWith (h : ParentMap s g) (hi : usedInTable s i = true) :
    tooDeep (treeWith s g) i = true ↔ g^[8] i ≠ 0 := by
  rw [tooDeep, decide_eq_true_eq, ← Nat.not_le, depthOf_treeWith_le h hi]

theorem inCycle_treeWith (h : ParentMap s g) (hi : i ∈ usedIndices s) :
    inCycle (treeWith s g) i = true ↔ ∃ k, k + 1 < 256 ∧ g^[k + 1] i = i := by
  obtain ⟨h0, hused⟩ := mem_usedIndices.1 hi
  rw [inCycle, decide_eq_true_eq, List.mem_iff_getElem?]
  simp only [List.getElem?_drop, chain_treeWith h hused]
  refine exists_congr fun k => ?_
  rw [Nat.add_comm 1 k]
  exact and_congr_right fun _ => and_iff_right h0

theorem parentMissing_treeWith (hi : i ∈ usedIndices s) : parentMissing (treeWith s g) i = !usedInTable s (g i) := by
  unfold parentMissing
  rw [tableGet_treeWith, if_pos hi]
  exact congrArg (!·) (elementInUse_treeWith s g (g i))

/-! Cycles (R128 step 3). -/

theorem not_zero_of_cycle (h : g 0 = 0) (h0 : i ≠ 0) {n : Nat} (hn : g^[n] i = i) (hpos : 0 < n) (m : Nat) : g^[m] i ≠ 0 :=
  fun hm => by
    have hper : g^[m * n] i = i := (Function.IsPeriodicPt.const_mul (f := g) (x := i) hn m)
    exact h0 (hper.symm.trans (iterate_stays h hm (Nat.le_mul_of_pos_right m hpos)))

/-- A cycle of elements in use closes within 255 parents. -/
theorem cycle_closes (h : ParentMap s g) (hused : usedInTable s i = true) (h0 : i ≠ 0) {n : Nat} (hn : g^[n] i = i)
    (hpos : 0 < n) : ∃ k, k + 1 < 256 ∧ g^[k + 1] i = i := by
  have hper : 0 < Function.minimalPeriod g i := Function.IsPeriodicPt.minimalPeriod_pos hpos hn
  have hclose : g^[Function.minimalPeriod g i] i = i := Function.iterate_minimalPeriod
  have hmaps : ∀ m ∈ Finset.range (Function.minimalPeriod g i), g^[m] i ∈ Finset.Icc 1 255 := fun m _ => by
    have hne := not_zero_of_cycle h.root h0 hn hpos m
    have hle := usedInTable_le (h.iterate hused m)
    exact Finset.mem_Icc.2 ⟨Nat.one_le_iff_ne_zero.2 hne, hle⟩
  have hinj : Set.InjOn (fun m => g^[m] i) (Finset.range (Function.minimalPeriod g i)) := by
    rw [Finset.coe_range]
    exact Function.iterate_injOn_Iio_minimalPeriod
  have hcard := Finset.card_le_card_of_injOn (fun m => g^[m] i) hmaps hinj
  rw [Finset.card_range, Nat.card_Icc] at hcard
  refine ⟨Function.minimalPeriod g i - 1, by omega, ?_⟩
  rw [Nat.sub_add_cancel hper]
  exact hclose

theorem lowestOfCycle_iff : lowestOfCycle s i = true ↔ i ≠ 0 ∧ (∃ k, k < 256 ∧ (foundParent s)^[k + 1] i = i) ∧
    ∀ k, k < 256 → i ≤ (foundParent s)^[k] i := by
  rw [lowestOfCycle, Bool.and_eq_true, Bool.and_eq_true, decide_eq_true_eq, List.any_eq_true, List.all_eq_true, and_assoc]
  simp only [List.mem_range, decide_eq_true_eq]

/-- An element of a cycle is its lowest when no element of the cycle lies below it. -/
theorem lowestOfCycle_of_cycle (hused : usedInTable s i = true) (h0 : i ≠ 0) {n : Nat} (hn : (foundParent s)^[n] i = i)
    (hpos : 0 < n) (hle : ∀ k, i ≤ (foundParent s)^[k] i) : lowestOfCycle s i = true := by
  obtain ⟨k, hk, hclose⟩ := cycle_closes (parentMap_foundParent s) hused h0 hn hpos
  exact lowestOfCycle_iff.2 ⟨h0, ⟨k, by omega, hclose⟩, fun m _ => hle m⟩

theorem lowestOfCycle_le (h : lowestOfCycle s i = true) (m : Nat) : i ≤ (foundParent s)^[m] i := by
  obtain ⟨-, ⟨k, hk, hclose⟩, hle⟩ := lowestOfCycle_iff.1 h
  have hper : Function.IsPeriodicPt (foundParent s) (k + 1) i := hclose
  rw [← hper.iterate_mod_apply m]
  exact hle _ (Nat.lt_of_lt_of_le (Nat.mod_lt m (Nat.succ_pos k)) (by omega))

/-- R128 step 3: with the cycles of the elements below `i` opened at their lowest, `i` lies on a cycle exactly when it is the
lowest of one. -/
theorem cycle_below_opened (hi : i ∈ usedIndices s) {rs : List Nat}
    (hrs : ∀ j, j ∈ rs ↔ (j ∈ usedIndices s ∧ j < i) ∧ lowestOfCycle s j = true) :
    (∃ k, k + 1 < 256 ∧ (zeroed rs (foundParent s))^[k + 1] i = i) ↔ lowestOfCycle s i = true := by
  obtain ⟨h0, hused⟩ := mem_usedIndices.1 hi
  have hfound := parentMap_foundParent s
  constructor
  · rintro ⟨k, -, hk⟩
    have hzero (m : Nat) := not_zero_of_cycle (hfound.zeroed rs).root h0 hk (Nat.succ_pos k) m
    have hsame (m : Nat) : (foundParent s)^[m] i = (zeroed rs (foundParent s))^[m] i := iterate_congr_along fun x _ => by
      have hnext := hzero (x + 1)
      rw [Function.iterate_succ_apply'] at hnext
      by_cases hin : (zeroed rs (foundParent s))^[x] i ∈ rs
      · exact absurd (if_pos hin) hnext
      · exact (if_neg hin).symm
    have hclose : (foundParent s)^[k + 1] i = i := (hsame _).trans hk
    refine lowestOfCycle_of_cycle hused h0 hclose (Nat.succ_pos k) fun a => ?_
    classical
    by_contra hlt
    have hex : ∃ y a, (foundParent s)^[a] i = y := ⟨i, 0, rfl⟩
    obtain ⟨b, hb⟩ := Nat.find_spec hex
    have hmin (m : Nat) : Nat.find hex ≤ (foundParent s)^[m] i := Nat.find_min' hex ⟨m, rfl⟩
    have hb0 : Nat.find hex ≠ 0 := hb ▸ hsame b ▸ hzero b
    have hbused : usedInTable s (Nat.find hex) = true := hb ▸ hfound.iterate hused b
    have hbcycle : (foundParent s)^[k + 1] (Nat.find hex) = Nat.find hex := by
      rw [← hb, ← Function.iterate_add_apply, Nat.add_comm, Function.iterate_add_apply, hclose]
    have hlow : lowestOfCycle s (Nat.find hex) = true :=
      lowestOfCycle_of_cycle hbused hb0 hbcycle (Nat.succ_pos k) fun m => by
        rw [← hb, ← Function.iterate_add_apply]
        exact hb ▸ hmin (m + b)
    have hin : Nat.find hex ∈ rs := (hrs _).2 ⟨⟨mem_usedIndices.2 ⟨hb0, hbused⟩,
      Nat.lt_of_le_of_lt (hmin a) (Nat.not_le.1 hlt)⟩, hlow⟩
    refine hzero (b + 1) ?_
    rw [Function.iterate_succ_apply', ← hsame b, hb]
    exact if_pos hin
  · intro hlow
    obtain ⟨-, ⟨k, -, hclose⟩, -⟩ := lowestOfCycle_iff.1 hlow
    have hsame : (zeroed rs (foundParent s))^[k + 1] i = (foundParent s)^[k + 1] i := iterate_congr_along fun m _ =>
      if_neg fun hin => absurd (lowestOfCycle_le hlow m) (Nat.not_le.2 ((hrs _).1 hin).1.2)
    exact cycle_closes (hfound.zeroed rs) hused h0 (hsame.trans hclose) (Nat.succ_pos k)

end Sys2Proof.Machine


/-! ## What the passes of the census reset (R128 steps 2 to 4) -/

namespace Sys2Proof.Machine

variable {s t u v : State} {i j : Nat} {f g : Nat → Nat}

/-! Step 2: parents that are missing. -/

/-- A test of the tree as a test of its parents. -/
def ofParents (s : State) (bad : Tree → Nat → Bool) (f : Nat → Nat) (i : Nat) : Bool := bad (treeWith s f) i

theorem not_mem_before {l₁ l₂ : List Nat} (hl : usedIndices s = l₁ ++ i :: l₂) : i ∉ l₁ := fun h =>
  absurd ((mem_before (usedIndices_sorted s) hl).1 h).2 (Nat.lt_irrefl i)

theorem mem_of_split {l l₁ l₂ : List Nat} (hl : l = l₁ ++ i :: l₂) : i ∈ l := by
  rw [hl]
  exact List.mem_append_right _ List.mem_cons_self

theorem resets_missing (s : State) : passResets (ofParents s parentMissing) (storedParent s) (usedIndices s) =
    (usedIndices s).filter fun i => !usedInTable s (storedParent s i) :=
  passResets_filter _ _ fun l₁ i l₂ hl => by
    have hno : i ∉ l₁.filter fun i => !usedInTable s (storedParent s i) := fun h => not_mem_before hl (List.mem_filter.1 h).1
    rw [ofParents, parentMissing_treeWith (mem_of_split hl), zeroed, if_neg hno]

theorem zeroed_missing (hi : i ∈ usedIndices s) :
    zeroed (passResets (ofParents s parentMissing) (storedParent s) (usedIndices s)) (storedParent s) i = foundParent s i := by
  rw [resets_missing, zeroed, foundParent]
  by_cases h : usedInTable s (storedParent s i) = true <;> simp [h, hi]

/-! Step 3: cycles. -/

theorem resets_cycles (s : State) :
    passResets (ofParents s inCycle) (foundParent s) (usedIndices s) = (usedIndices s).filter (lowestOfCycle s) :=
  passResets_filter _ _ fun l₁ i l₂ hl => by
    have hi := mem_of_split hl
    have hrs (j : Nat) : j ∈ l₁.filter (lowestOfCycle s) ↔ (j ∈ usedIndices s ∧ j < i) ∧ lowestOfCycle s j = true := by
      rw [List.mem_filter, mem_before (usedIndices_sorted s) hl]
    rw [ofParents, Bool.eq_iff_iff, inCycle_treeWith ((parentMap_foundParent s).zeroed _) hi, cycle_below_opened hi hrs]

theorem zeroed_cycles (hi : i ∈ usedIndices s) :
    zeroed (passResets (ofParents s inCycle) (foundParent s) (usedIndices s)) (foundParent s) i = openedParent s i := by
  rw [resets_cycles, zeroed, openedParent]
  by_cases h : lowestOfCycle s i = true <;> simp [h, hi]

/-! Step 4: elements too deep. -/

/-- The elements that lie too deep. -/
def deepResets (s : State) : List Nat := passResets (ofParents s tooDeep) (openedParent s) (usedIndices s)

/-- The parents that the census leaves. -/
def censusParent (s : State) : Nat → Nat := zeroed (deepResets s) (openedParent s)

theorem parentMap_censusParent (s : State) : ParentMap s (censusParent s) := (parentMap_openedParent s).zeroed _

theorem mem_deepResets_lt {l₁ l₂ : List Nat} (hl : usedIndices s = l₁ ++ i :: l₂) : j ∈ deepResets s ∧ j < i ↔
    j ∈ passResets (ofParents s tooDeep) (openedParent s) l₁ := by
  have hbefore (h : j ∈ passResets (ofParents s tooDeep) (openedParent s) l₁) : j < i :=
    ((mem_before (usedIndices_sorted s) hl).1 ((passResets_sublist _ _ _).subset h)).2
  unfold deepResets
  rw [hl, passResets_append, List.mem_append]
  refine ⟨fun ⟨h, hlt⟩ => h.resolve_right fun h => ?_, fun h => ⟨.inl h, hbefore h⟩⟩
  have hmem := (passResets_sublist _ _ _).subset h
  have hj : j ∈ l₁ := (mem_before (usedIndices_sorted s) hl).2 ⟨by rw [hl]; exact List.mem_append_right _ hmem, hlt⟩
  have hnodup := usedIndices_nodup s
  rw [hl] at hnodup
  exact (List.nodup_append.1 hnodup).2.2 j hj j hmem rfl

/-- The parents that the test of `i` finds, as the statement writes them. -/
theorem parents_below (s : State) {l₁ l₂ : List Nat} (hl : usedIndices s = l₁ ++ i :: l₂) (hj : usedInTable s j = true) :
    (if j < i then parentIn (treeWith s (censusParent s)) j else openedParent s j) =
      zeroed (passResets (ofParents s tooDeep) (openedParent s) l₁) (openedParent s) j := by
  rw [parentIn_treeWith (parentMap_censusParent s).root hj, censusParent, zeroed, zeroed]
  have hiff := mem_deepResets_lt (j := j) hl
  by_cases hlt : j < i
  · simp only [hlt, and_true] at hiff
    simp only [hlt, if_true, hiff]
  · have hno := mt hiff.2 fun h => hlt h.2
    rw [if_neg hlt, if_neg hno]

/-- R128 step 4: an element is reset exactly when it lies deeper than 8 in the tree as its test finds it. -/
theorem mem_deepResets (hi : i ∈ usedIndices s) : i ∈ deepResets s ↔ ¬shallow s (treeWith s (censusParent s)) i := by
  obtain ⟨h0, hused⟩ := mem_usedIndices.1 hi
  obtain ⟨l₁, l₂, hl⟩ := List.append_of_mem hi
  have hmap := (parentMap_openedParent s).zeroed (passResets (ofParents s tooDeep) (openedParent s) l₁)
  have hshallow : shallow s (treeWith s (censusParent s)) i ↔
      (zeroed (passResets (ofParents s tooDeep) (openedParent s) l₁) (openedParent s))^[8] i = 0 := by
    unfold shallow
    simp only [hmap.iterate_congr (fun j hj => parents_below s hl hj) hused]
    exact iterate_le_iff hmap.root 8
  have hnodup := usedIndices_nodup s
  rw [hl] at hnodup
  rw [hshallow, deepResets, hl, mem_passResets hnodup, ofParents, tooDeep_treeWith hmap hused]

theorem censusParent_of_shallow (hi : i ∈ usedIndices s) (h : shallow s (treeWith s (censusParent s)) i) :
    censusParent s i = openedParent s i := if_neg fun hmem => (mem_deepResets hi).1 hmem h

theorem censusParent_of_deep (hi : i ∈ usedIndices s) (h : ¬shallow s (treeWith s (censusParent s)) i) :
    censusParent s i = 0 := if_pos ((mem_deepResets hi).2 h)

theorem censusParent_cases (s : State) (i : Nat) : censusParent s i = openedParent s i ∨ censusParent s i = 0 := by
  unfold censusParent zeroed
  split
  · exact .inr rfl
  · exact .inl rfl

theorem openedParent_cases (s : State) (i : Nat) : openedParent s i = storedParent s i ∨ openedParent s i = 0 := by
  unfold openedParent foundParent
  split
  · exact .inr rfl
  · split
    · exact .inl rfl
    · exact .inr rfl

/-- No element lies deeper than 8 when the passes have ended. -/
theorem censusParent_shallow (hi : usedInTable s i = true) : (censusParent s)^[8] i = 0 := by
  by_cases h0 : i = 0
  · rw [h0]
    exact iterate_root (parentMap_censusParent s).root 8
  · have hmem := mem_usedIndices.2 ⟨h0, hi⟩
    by_cases hdeep : shallow s (treeWith s (censusParent s)) i
    · obtain ⟨l₁, l₂, hl⟩ := List.append_of_mem hmem
      have hmap := (parentMap_openedParent s).zeroed (passResets (ofParents s tooDeep) (openedParent s) l₁)
      obtain ⟨d, hd, h⟩ := hdeep
      rw [hmap.iterate_congr (fun j hj => parents_below s hl hj) hi] at h
      refine iterate_of_reset (parentMap_censusParent s).root (fun j => ?_) 8 i (iterate_stays hmap.root h hd)
      unfold censusParent zeroed
      by_cases hj : j ∈ deepResets s
      · exact .inr (if_pos hj)
      · rw [if_neg hj, if_neg fun hin => hj ((mem_deepResets_lt hl).2 hin).1]
        exact .inl rfl
    · exact iterate_stays (a := 1) (parentMap_censusParent s).root (censusParent_of_deep hmem hdeep) (by decide)

/-- R128: a parent on a stored chain of elements in use that reaches the head end in 8 or less is kept. -/
theorem censusParent_of_good_chain (hi : i ∈ usedIndices s) {d : Nat} (hd : d ≤ 8) (h0 : (storedParent s)^[d] i = 0)
    (hused : ∀ k, k < d → usedInTable s ((storedParent s)^[k] i) = true) : censusParent s i = storedParent s i := by
  obtain ⟨hne, hiu⟩ := mem_usedIndices.1 hi
  have hchain (k : Nat) (hk : k ≤ d) : usedInTable s ((storedParent s)^[k] i) = true :=
    (Nat.lt_or_eq_of_le hk).elim (hused k) fun he => by rw [he, h0]; rfl
  have hfound (k : Nat) (hk : k < d) : foundParent s ((storedParent s)^[k] i) = storedParent s ((storedParent s)^[k] i) := by
    have := hchain (k + 1) hk
    rw [Function.iterate_succ_apply'] at this
    exact if_pos this
  have hsame (k : Nat) (hk : k ≤ d) : (foundParent s)^[k] i = (storedParent s)^[k] i :=
    iterate_congr_along fun m hm => hfound m (Nat.lt_of_lt_of_le hm hk)
  have hroot := (parentMap_foundParent s).root
  have hopened (k : Nat) (hk : k < d) : openedParent s ((foundParent s)^[k] i) = foundParent s ((foundParent s)^[k] i) := by
    refine if_neg fun hlow => ?_
    obtain ⟨hne, ⟨m, -, hm⟩, -⟩ := lowestOfCycle_iff.1 hlow
    refine not_zero_of_cycle hroot hne hm (Nat.succ_pos m) d ?_
    rw [← Function.iterate_add_apply]
    exact iterate_stays hroot ((hsame d (Nat.le_refl d)).trans h0) (Nat.le_add_right d k)
  have hreach : (openedParent s)^[d] i = 0 := (iterate_congr_along fun m hm => hopened m hm).trans ((hsame d (Nat.le_refl d)).trans h0)
  have hdpos : 0 < d := Nat.pos_of_ne_zero fun hz => hne (by rw [hz] at h0; exact h0)
  have hkept : openedParent s i = storedParent s i := (hopened 0 hdpos).trans (hfound 0 hdpos)
  refine (if_neg fun hmem => (mem_deepResets hi).1 hmem ?_ : censusParent s i = openedParent s i).trans hkept
  obtain ⟨l₁, l₂, hl⟩ := List.append_of_mem hi
  have hmap := (parentMap_openedParent s).zeroed (passResets (ofParents s tooDeep) (openedParent s) l₁)
  refine ⟨d, hd, ?_⟩
  rw [hmap.iterate_congr (fun j hj => parents_below s hl hj) hiu]
  refine iterate_of_reset hmap.root (fun j => ?_) d i hreach
  unfold zeroed
  split
  · exact .inr rfl
  · exact .inl rfl

/-! The resets in the order of the passes. -/

theorem mem_deepResets_iff (hi : i ∈ usedIndices s) :
    i ∈ deepResets s ↔ openedParent s i ≠ 0 ∧ parentIn (treeWith s (censusParent s)) i = 0 := by
  obtain ⟨hne, hused⟩ := mem_usedIndices.1 hi
  rw [parentIn_treeWith (parentMap_censusParent s).root hused]
  constructor
  · intro hmem
    refine ⟨fun h0 => ?_, if_pos hmem⟩
    have hnot := (mem_deepResets hi).1 hmem
    refine hnot ⟨1, by decide, ?_⟩
    show (if i < i then _ else openedParent s i) = 0
    rw [if_neg (Nat.lt_irrefl i), h0]
  · rintro ⟨hopen, h0⟩
    by_contra hno
    exact hopen ((if_neg hno : censusParent s i = openedParent s i).symm.trans h0)

theorem filter_mem_of_sublist {l' l : List Nat} (h : l'.Sublist l) (hn : l.Nodup) :
    l.filter (fun x => decide (x ∈ l')) = l' := by
  induction h with
  | slnil => rfl
  | @cons l₁ l₂ a hs ih =>
    obtain ⟨ha, hl⟩ := List.nodup_cons.1 hn
    rw [List.filter_cons_of_neg (by simpa using fun h => ha (hs.subset h)), ih hl]
  | @cons_cons l₁ l₂ a hs ih =>
    obtain ⟨ha, hl⟩ := List.nodup_cons.1 hn
    rw [List.filter_cons_of_pos (by simp)]
    refine congrArg (a :: ·) ?_
    rw [← ih hl]
    refine List.filter_congr fun x hx => ?_
    have hxa : x ≠ a := fun he => ha (he ▸ hx)
    simp [hxa, ih hl]

theorem deepResets_eq (s : State) : deepResets s = (usedIndices s).filter fun i =>
    decide (openedParent s i ≠ 0) && decide (parentIn (treeWith s (censusParent s)) i = 0) := by
  have hsub : (deepResets s).Sublist (usedIndices s) := passResets_sublist _ _ _
  calc deepResets s
      = (usedIndices s).filter fun i => decide (i ∈ deepResets s) := (filter_mem_of_sublist hsub (usedIndices_nodup s)).symm
    _ = _ := List.filter_congr fun i hi => by
        rw [Bool.eq_iff_iff, decide_eq_true_eq, mem_deepResets_iff hi, Bool.and_eq_true, decide_eq_true_eq, decide_eq_true_eq]

theorem censusResets_eq (s : State) : censusResets s (treeWith s (censusParent s)) =
    passResets (ofParents s parentMissing) (storedParent s) (usedIndices s) ++
      passResets (ofParents s inCycle) (foundParent s) (usedIndices s) ++ deepResets s := by
  rw [resets_missing, resets_cycles, deepResets_eq]
  rfl

/-- The old parent of a reset is the stored one. -/
theorem storedParent_of_cycle (h : i ∈ passResets (ofParents s inCycle) (foundParent s) (usedIndices s)) :
    foundParent s i = storedParent s i := by
  rw [resets_cycles] at h
  obtain ⟨-, hlow⟩ := List.mem_filter.1 h
  obtain ⟨hne, ⟨k, -, hk⟩, -⟩ := lowestOfCycle_iff.1 hlow
  have hnz := not_zero_of_cycle (parentMap_foundParent s).root hne hk (Nat.succ_pos k) 1
  unfold foundParent at hnz ⊢
  split
  · rfl
  · next hno => exact absurd (if_neg hno) hnz

theorem storedParent_of_deep (h : i ∈ deepResets s) : openedParent s i = storedParent s i := by
  have hi : i ∈ usedIndices s := (passResets_sublist _ _ _).subset h
  obtain ⟨hne, -⟩ := (mem_deepResets_iff hi).1 h
  exact (openedParent_cases s i).resolve_right hne

end Sys2Proof.Machine


/-! ## The passes of the element census on the part (R128) -/

namespace Sys2Proof.Machine

variable {s t u v w x : State} {i j : Nat} {f g : Nat → Nat}

/-! Records appended one after another (R173). -/

/-- R128: the resets of a list, each with its old parent, have been logged in turn. -/
def LogsResets (rs : List (Nat × Nat)) (v w : State) : Prop :=
  ∀ r j, v.writer.log = some r → v.writer.journal = some j → r.head < 512 → r.tail < 512 →
    ringHeld .log r + rs.length ≤ 511 →
    (∀ k i p, rs[k]? = some (i, p) →
      RecordAt ((r.head + k) % 512) (nextSequence^[k] r.sequence) .topology i 3 p 0 v w) ∧
    w.writer.log = some
      { head := (r.head + rs.length) % 512, tail := r.tail, sequence := nextSequence^[rs.length] r.sequence } ∧
    w.writer.journal = some j

theorem LogsResets.nil (h : w.writer = v.writer) : LogsResets [] v w := fun r j hl hj hh _ _ => by
  refine ⟨fun k i p hk => by simp at hk, ?_, by rw [h]; exact hj⟩
  rw [h, hl, List.length_nil, Nat.add_zero, Nat.mod_eq_of_lt hh]
  rfl

theorem RecordAt.of_clock {h sequence a b c d : Nat} {k : LogKind} (hr : RecordAt h sequence k a b c d v w)
    (hc : v.clock = s.clock) : RecordAt h sequence k a b c d s w := by
  unfold RecordAt at hr ⊢
  have ht : currentStamp v = currentStamp s := by rw [currentStamp, currentStamp, hc]
  rwa [hc, ht] at hr

theorem holdsPosition_after {r : RingCopy} {n k q : Nat} (hh : r.head < 512) (ht : r.tail < 512) (hk : k < n)
    (h : ringHeld .log r + n ≤ 511) :
    holdsPosition { head := (r.head + n) % 512, tail := r.tail, sequence := q } ((r.head + k) % 512) := by
  have hsize : ringSize .log = 512 := rfl
  simp only [ringHeld, hsize] at h
  unfold holdsPosition
  dsimp only
  omega

/-- Resets logged after others stand behind them. -/
theorem LogsResets.append {rs qs : List (Nat × Nat)} (h : LogsResets rs v w) (h' : LogsResets qs w x) (hc : w.clock = v.clock)
    (hk : RecordsKept w x) : LogsResets (rs ++ qs) v x := by
  intro r j hl hj hh ht hroom
  rw [List.length_append] at hroom
  obtain ⟨hrec, hlog, hjournal⟩ := h r j hl hj hh ht (by omega)
  have hhead : (r.head + rs.length) % 512 < 512 := Nat.mod_lt _ (by decide)
  have hheld : ringHeld .log ⟨(r.head + rs.length) % 512, r.tail, nextSequence^[rs.length] r.sequence⟩ + qs.length ≤ 511 := by
    have hsize : ringSize .log = 512 := rfl
    simp only [ringHeld, hsize] at hroom ⊢
    omega
  obtain ⟨hrec', hlog', hjournal'⟩ := h' _ j hlog hjournal hhead ht hheld
  obtain ⟨r', j', -, -, -, -, -, hwords⟩ := hk _ j hlog hjournal hhead ht
  refine ⟨fun k i p hget => ?_, ?_, hjournal'⟩
  · by_cases hlt : k < rs.length
    · rw [List.getElem?_append_left hlt] at hget
      exact (hrec k i p hget).congr_words fun y hy =>
        hwords _ y (Nat.mod_lt _ (by decide)) hy (holdsPosition_after hh ht hlt (by omega))
    · rw [List.getElem?_append_right (Nat.le_of_not_lt hlt)] at hget
      have hrecord := (hrec' _ i p hget).of_clock hc
      have hplace : ((r.head + rs.length) % 512 + (k - rs.length)) % 512 = (r.head + k) % 512 := by omega
      have hseq : nextSequence^[k - rs.length] (nextSequence^[rs.length] r.sequence) = nextSequence^[k] r.sequence := by
        rw [← Function.iterate_add_apply, Nat.sub_add_cancel (Nat.le_of_not_lt hlt)]
      rw [← hplace, ← hseq]
      exact hrecord
  · rw [hlog', List.length_append]
    dsimp only
    rw [← Function.iterate_add_apply, Nat.add_comm qs.length, ← Nat.add_assoc]
    congr 2
    omega

end Sys2Proof.Machine


/-! ## The passes of the element census on the part, one after another (R128) -/

namespace Sys2Proof.Machine

variable {s t u v w x : State} {i j : Nat} {f g : Nat → Nat} {rs : List Nat}

/-- R128: what a pass leaves that has reset the parents of `rs`, each once, in the tree of parents `f`. -/
structure Passed (s : State) (f : Nat → Nat) (rs : List Nat) (v w : State) : Prop where
  tree : w.plant.tree = treeWith s (zeroed rs f)
  wf : MemWf w.mem
  ring : RingLaw w
  words : ∀ i ∈ rs, rd w (elementWord i 1) = 0
  kept : KeptOutside (withRings (rs.map fun i => elementWord i 1)) v w
  logs : LogsResets (rs.map fun i => (i, f i)) v w
  records : RecordsKept v w
  frame : w = { v with
    mem := w.mem, port := w.port, plant := { v.plant with tree := w.plant.tree }, writer := w.writer }

theorem passed_nil (hm : MemWf v.mem) (hring : RingLaw v) (ht : v.plant.tree = treeWith s f) : Passed s f [] v v :=
  ⟨ht, hm, hring, fun _ h => absurd h List.not_mem_nil, KeptOutside.refl v, LogsResets.nil rfl, RecordsKept.refl v, rfl⟩

theorem ringPlace_usedElement (hi : i ∈ usedIndices s) {w : Nat} (hw : w < 16) : ringPlace (elementWord i w) = false :=
  ringPlace_elementWord (Nat.lt_succ_of_le (usedInTable_le (mem_usedIndices.1 hi).2)) hw

/-- R128: the parent of an element is 0 in its record and in the tree. -/
def parentZeroed (s : State) (f : Nat → Nat) (i : Nat) (v : State) : State :=
  wr { v with plant := { v.plant with tree := treeWith s (Function.update f i 0) } } (elementWord i 1) 0

theorem resetParent_eq (hi : i ∈ usedIndices s) (ht : v.plant.tree = treeWith s f) :
    resetParent i v = logAppend .topology i 3 (f i) 0 (parentZeroed s f i v) := by
  unfold resetParent
  rw [ht, tableGet_treeWith, if_pos hi]
  dsimp only
  rw [treeSetParent_treeWith hi]
  rfl

theorem parentZeroed_kept (s : State) (f : Nat → Nat) (i : Nat) (v : State) :
    WordsKept [elementWord i 1] v (parentZeroed s f i v) :=
  wordsKept_wr { v with plant := { v.plant with tree := treeWith s (Function.update f i 0) } } (elementWord i 1) 0

theorem single_ringsKept (hi : i ∈ usedIndices s) (h : WordsKept [elementWord i 1] v w) : RingsKept v w :=
  h.ringsKept fun a ha => by rw [List.mem_singleton.1 ha, ringPlace_usedElement hi (by decide)]

/-- An append to the log leaves the copy of the journal. -/
theorem logAppend_journal {r j : RingCopy} (hl : s.writer.log = some r) (hj : s.writer.journal = some j)
    (hroom : ringFull .log r = false) (k : LogKind) (a b c d : Nat) : (logAppend k a b c d s).writer.journal = some j := by
  have hload : validateRings s = s := validateRings_loaded hl hj
  rw [logAppend_room (s := s) (by rw [hload, hl]) hroom k a b c d, hload]
  unfold advanceRing setRingCopy
  dsimp only
  rw [wr_writer, wr_writer, writeRecord_frame]
  exact hj

/-- R128: one reset, in the record and the tree, and logged. -/
theorem passed_reset (hm : MemWf v.mem) (hring : RingLaw v) (hst : v.part.state = .starting) (hi : i ∈ usedIndices s)
    (ht : v.plant.tree = treeWith s f) : Passed s f [i] v (resetParent i v) := by
  have hkept := parentZeroed_kept s f i v
  have hwf : MemWf (parentZeroed s f i v).mem := wr_wf _ _ _ hm
  have hlaw : RingLaw (parentZeroed s f i v) := hring
  have hframe : parentZeroed s f i v = { v with
      mem := (parentZeroed s f i v).mem, port := (parentZeroed s f i v).port
      plant := { v.plant with tree := treeWith s (Function.update f i 0) } } := rfl
  have hword : rd (parentZeroed s f i v) (elementWord i 1) = 0 := rd_wr_same _ _ _ hm
  have hrings := single_ringsKept hi hkept
  rw [resetParent_eq hi ht]
  generalize parentZeroed s f i v = y at *
  have hystart : y.part.state = .starting := by rw [hframe]; exact hst
  have hywriter : y.writer = v.writer := by rw [hframe]
  have hyclock : y.clock = v.clock := by rw [hframe]
  have hlog := logAppend_kept hlaw .topology i 3 (f i) 0
  have hflags := logAppend_flags_of_starting hystart .topology i 3 (f i) 0
  have hlframe := logAppend_frame .topology i 3 (f i) 0 y
  have hmoves := logAppend_moves (can := fun _ => True) .topology i 3 (f i) 0 y
  have hlogged : Logged .topology i 3 (f i) 0 v (logAppend .topology i 3 (f i) 0 y) :=
    logged_logAppend hwf hring hywriter hyclock (fun _ _ => rfl) rfl
  have hrec := logAppend_recordsKept .topology i 3 (f i) 0 y
  have hwf' := hmoves.mem hwf
  have hlaw' := hmoves.ring hlaw
  have hjournal (r j) (hr : v.writer.log = some r) (hj : v.writer.journal = some j) (hroom : ringFull .log r = false) :=
    logAppend_journal (s := y) (hywriter ▸ hr) (hywriter ▸ hj) hroom .topology i 3 (f i) 0
  generalize logAppend .topology i 3 (f i) 0 y = w at *
  refine ⟨?_, hwf', hlaw', fun k hk => ?_, ?_, ?_, (hrings.recordsKept hywriter).trans hrec, ?_⟩
  · rw [hlframe, hframe, ← zeroed_update, zeroed_nil]
  · rw [List.mem_singleton.1 hk]
    exact (hlog _ (ringPlace_usedElement hi (by decide))).trans hword
  · exact (hkept.withRings (by simp)).trans hlog.withRings
  · intro r j hr hj hh htl hroom
    have hnotfull : ringFull .log r = false := by
      have hsize : ringSize .log = 512 := rfl
      simp only [ringHeld, hsize, List.length_map, List.length_singleton] at hroom
      simp only [ringFull, hsize, decide_eq_false_iff_not]
      omega
    obtain ⟨hrecord, hring', -, -⟩ := hlogged r j hr hj hnotfull
    refine ⟨fun k a p hk => ?_, hring', hjournal r j hr hj hnotfull⟩
    obtain _ | k := k
    · obtain ⟨rfl, rfl⟩ : i = a ∧ f i = p := by simpa using hk
      rw [Nat.add_zero, Nat.mod_eq_of_lt hh]
      exact hrecord
    · simp at hk
  · rw [hlframe, hflags, hframe]

/-- R128: a reset and the rest of its pass. -/
theorem Passed.cons (h : Passed s f [i] v w) (h' : Passed s (Function.update f i 0) rs w x) (hiu : i ∈ usedIndices s) (hi : i ∉ rs) :
    Passed s f (i :: rs) v x := by
  refine ⟨?_, h'.wf, h'.ring, fun k hk => ?_, ?_, ?_, h.records.trans h'.records, ?_⟩
  · rw [h'.tree, zeroed_update]
  · by_cases hkr : k ∈ rs
    · exact h'.words k hkr
    · obtain rfl := (List.mem_cons.1 hk).resolve_right hkr
      refine (h'.kept _ ?_).trans (h.words k List.mem_cons_self)
      rw [← Bool.not_eq_true, withRings_iff]
      rintro (hmem | hring)
      · obtain ⟨y, hy, he⟩ := List.mem_map.1 hmem
        obtain rfl := elementWord_inj he
        exact hi hy
      · rw [ringPlace_usedElement hiu (by decide)] at hring
        cases hring
  · exact (h.kept.withRings_mono (by simp)).trans (h'.kept.withRings_mono (by simp))
  · have hmap : rs.map (fun j => (j, Function.update f i 0 j)) = rs.map fun j => (j, f j) :=
      List.map_congr_left fun j hj => by
        rw [Function.update_of_ne]
        rintro rfl
        exact hi hj
    have := h.logs.append (hmap ▸ h'.logs) (by rw [h.frame]) h'.records
    exact this
  · rw [h'.frame, h.frame]

end Sys2Proof.Machine


/-! ## The three passes of the element census together (R128) -/

namespace Sys2Proof.Machine

variable {s t u v w x : State} {i j : Nat} {f g : Nat → Nat} {rs : List Nat}

/-- R128: one pass over elements in use, in ascending index. -/
theorem passed_foldl (bad : Tree → Nat → Bool) (l : List Nat) : ∀ {f : Nat → Nat} {v : State}, MemWf v.mem → RingLaw v →
    v.part.state = .starting → l.Nodup → l ⊆ usedIndices s → v.plant.tree = treeWith s f →
    Passed s f (passResets (ofParents s bad) f l) v
      (l.foldl (fun t i => if bad t.plant.tree i then resetParent i t else t) v) := by
  induction l with
  | nil => exact fun hm hring _ _ _ ht => passed_nil hm hring ht
  | cons i l ih =>
    intro f v hm hring hst hnodup hl ht
    obtain ⟨hi, hnodup⟩ := List.nodup_cons.1 hnodup
    obtain ⟨hiu, hl⟩ := List.cons_subset.1 hl
    rw [List.foldl_cons, passResets_cons, ofParents, ht]
    by_cases hbad : bad (treeWith s f) i = true
    · rw [if_pos hbad, if_pos hbad]
      have hreset := passed_reset hm hring hst hiu ht
      have htree : (resetParent i v).plant.tree = treeWith s (Function.update f i 0) := by
        rw [hreset.tree, ← zeroed_update, zeroed_nil]
      have hrest := ih hreset.wf hreset.ring (by rw [hreset.frame]; exact hst) hnodup hl htree
      exact hreset.cons hrest hiu fun h => hi ((passResets_sublist _ _ _).subset h)
    · rw [if_neg hbad, if_neg hbad]
      exact ih hm hring hst hnodup hl ht

theorem passed_censusPass (bad : Tree → Nat → Bool) (hm : MemWf v.mem) (hring : RingLaw v) (hst : v.part.state = .starting)
    (ht : v.plant.tree = treeWith s f) :
    Passed s f (passResets (ofParents s bad) f (usedIndices s)) v (censusPass bad v) := by
  have h := passed_foldl bad (usedIndices s) hm hring hst (usedIndices_nodup s) (List.Subset.refl _) ht
  unfold censusPass
  rwa [ht, treeWith_indices]

/-- The parents in the records follow those of the tree. -/
theorem Passed.parentWords (h : Passed s f rs v w) (hv : ∀ i ∈ usedIndices s, rd v (elementWord i 1) = wordOf (f i)) :
    ∀ i ∈ usedIndices s, rd w (elementWord i 1) = wordOf (zeroed rs f i) := fun i hi => by
  unfold zeroed
  by_cases hmem : i ∈ rs
  · rw [if_pos hmem, h.words i hmem]
    rfl
  · rw [if_neg hmem, ← hv i hi]
    refine h.kept _ ?_
    rw [← Bool.not_eq_true, withRings_iff, ringPlace_usedElement hi (by decide)]
    rintro (h | h)
    · obtain ⟨y, hy, he⟩ := List.mem_map.1 h
      obtain rfl := elementWord_inj he
      exact hmem hy
    · cases h

/-- R128 steps 2 to 4, from the state in which the table has been read. -/
structure CensusPassed (s c w : State) : Prop where
  tree : w.plant.tree = treeWith s (censusParent s)
  wf : MemWf w.mem
  ring : RingLaw w
  words : ∀ i ∈ usedIndices s, rd w (elementWord i 1) = wordOf (censusParent s i)
  kept : KeptOutside (withRings ((usedIndices s).map fun i => elementWord i 1)) c w
  logs : LogsResets ((censusResets s (treeWith s (censusParent s))).map fun i => (i, storedParent s i)) c w
  frame : w = { c with
    mem := w.mem, port := w.port, plant := { c.plant with tree := w.plant.tree }, writer := w.writer }

theorem passResets_places (bad : Tree → Nat → Bool) (f : Nat → Nat) :
    (passResets (ofParents s bad) f (usedIndices s)).map (fun i => elementWord i 1) ⊆
      (usedIndices s).map fun i => elementWord i 1 := List.map_subset _ (passResets_sublist _ _ _).subset

theorem censusPassed {c : State} (hm : MemWf c.mem) (hring : RingLaw c) (hst : c.part.state = .starting)
    (ht : c.plant.tree = treeWith s (storedParent s))
    (hw : ∀ i ∈ usedIndices s, rd c (elementWord i 1) = wordOf (storedParent s i)) :
    CensusPassed s c (censusPass tooDeep (censusPass inCycle (censusPass parentMissing c))) := by
  have h₁ := passed_censusPass (s := s) parentMissing hm hring hst ht
  generalize censusPass parentMissing c = v₁ at *
  have ht₁ : v₁.plant.tree = treeWith s (foundParent s) := h₁.tree.trans (treeWith_congr fun i hi => zeroed_missing hi)
  have h₂ := passed_censusPass (s := s) inCycle h₁.wf h₁.ring (by rw [h₁.frame]; exact hst) ht₁
  generalize censusPass inCycle v₁ = v₂ at *
  have ht₂ : v₂.plant.tree = treeWith s (openedParent s) := h₂.tree.trans (treeWith_congr fun i hi => zeroed_cycles hi)
  have h₃ := passed_censusPass (s := s) tooDeep h₂.wf h₂.ring (by rw [h₂.frame, h₁.frame]; exact hst) ht₂
  generalize censusPass tooDeep v₂ = v₃ at *
  have hw₁ (i : Nat) (hi : i ∈ usedIndices s) : rd v₁ (elementWord i 1) = wordOf (foundParent s i) := by
    rw [h₁.parentWords hw i hi, zeroed_missing hi]
  have hw₂ (i : Nat) (hi : i ∈ usedIndices s) : rd v₂ (elementWord i 1) = wordOf (openedParent s i) := by
    rw [h₂.parentWords hw₁ i hi, zeroed_cycles hi]
  refine ⟨h₃.tree, h₃.wf, h₃.ring, h₃.parentWords hw₂, ?_, ?_, by rw [h₃.frame, h₂.frame, h₁.frame]⟩
  · exact ((h₁.kept.withRings_mono (passResets_places _ _)).trans (h₂.kept.withRings_mono (passResets_places _ _))).trans
      (h₃.kept.withRings_mono (passResets_places _ _))
  · have hcycles : (passResets (ofParents s inCycle) (foundParent s) (usedIndices s)).map (fun i => (i, foundParent s i)) =
        (passResets (ofParents s inCycle) (foundParent s) (usedIndices s)).map fun i => (i, storedParent s i) :=
      List.map_congr_left fun i hi => by rw [storedParent_of_cycle hi]
    have hdeep : (deepResets s).map (fun i => (i, openedParent s i)) = (deepResets s).map fun i => (i, storedParent s i) :=
      List.map_congr_left fun i hi => by rw [storedParent_of_deep hi]
    rw [censusResets_eq, List.map_append, List.map_append, ← hcycles, ← hdeep]
    exact (h₁.logs.append h₂.logs (by rw [h₁.frame]) h₂.records).append h₃.logs (by rw [h₂.frame, h₁.frame]) h₃.records

end Sys2Proof.Machine


/-! ## The element table as the census reads it (R128 step 1) -/

namespace Sys2Proof.Machine

variable {s t u v w x : State} {i j : Nat}

/-! Records of the element table. -/

/-- A word of element record `i`. -/
def inElement (i a : Nat) : Bool := decide (0x1000 + 16 * i ≤ a) && decide (a < 0x1000 + 16 * i + 16)

theorem inElement_iff (i a : Nat) : inElement i a = true ↔ 0x1000 + 16 * i ≤ a ∧ a < 0x1000 + 16 * i + 16 := by
  simp [inElement]

theorem inElement_elementWord {w : Nat} (hw : w < 16) : inElement i (elementWord i w) = true := by
  rw [inElement_iff, elementWord]
  omega

theorem inElement_disjoint (i j a : Nat) (hi : inElement i a = true) (hj : inElement j a = true) : i = j := by
  rw [inElement_iff] at hi hj
  omega

theorem elementWord_word_inj {i w y : Nat} : elementWord i w = elementWord i y ↔ w = y := by
  unfold elementWord
  omega

/-! An index that is not in use. -/

/-- R128 step 1: an index not in use is UNUSED with C 0. -/
def clearUnused (t : State) (i : Nat) : State :=
  if (rd t (elementWord i 0)).toNat = 0 then wrIfChanged (wrIfChanged t (elementWord i 4) 0) (elementWord i 5) 0 else t

theorem wrIfChanged_frame (s : State) (a : Nat) (w : Word) :
    wrIfChanged s a w = { s with mem := (wrIfChanged s a w).mem, port := (wrIfChanged s a w).port } := by
  unfold wrIfChanged
  split <;> rfl

theorem wrIfChanged_wf (hm : MemWf s.mem) (a : Nat) (w : Word) : MemWf (wrIfChanged s a w).mem := by
  unfold wrIfChanged
  split
  · exact hm
  · exact wr_wf _ _ _ hm

theorem rd_wrIfChanged_same (hm : MemWf s.mem) (a : Nat) (w : Word) : rd (wrIfChanged s a w) a = w := by
  unfold wrIfChanged
  split
  · assumption
  · exact rd_wr_same _ _ _ hm

theorem wrIfChanged_kept (s : State) (a : Nat) (w : Word) : WordsKept [a] s (wrIfChanged s a w) := by
  unfold wrIfChanged
  split
  · exact WordsKept.refl s
  · exact wordsKept_wr s a w

theorem clearUnused_frame (t : State) (i : Nat) :
    clearUnused t i = { t with mem := (clearUnused t i).mem, port := (clearUnused t i).port } := by
  unfold clearUnused
  split
  · rw [wrIfChanged_frame, wrIfChanged_frame t]
  · rfl

theorem clearUnused_wf (hm : MemWf t.mem) (i : Nat) : MemWf (clearUnused t i).mem := by
  unfold clearUnused
  split
  · exact wrIfChanged_wf (wrIfChanged_wf hm _ _) _ _
  · exact hm

theorem clearUnused_kept (t : State) (i : Nat) : WordsKept [elementWord i 4, elementWord i 5] t (clearUnused t i) := by
  unfold clearUnused
  split
  · exact ((wrIfChanged_kept t _ _).mono (by simp)).trans ((wrIfChanged_kept _ _ _).mono (by simp))
  · exact WordsKept.refl t

theorem clearUnused_touch (t : State) (i : Nat) : KeptOutside (inElement i) t (clearUnused t i) :=
  (clearUnused_kept t i).keptOutside fun a ha => by
    obtain rfl | rfl : a = elementWord i 4 ∨ a = elementWord i 5 := by simpa using ha
    · exact inElement_elementWord (by decide)
    · exact inElement_elementWord (by decide)

/-- R128 step 1: a word of a record once the table has been read. -/
def readWord (s : State) (i w : Nat) : Word :=
  if rd s (elementWord i 0) = 0 ∧ (w = 4 ∨ w = 5) then 0 else rd s (elementWord i w)

theorem rd_clearUnused (hm : MemWf t.mem) (i w : Nat) : rd (clearUnused t i) (elementWord i w) = readWord t i w := by
  by_cases h : rd t (elementWord i 0) = 0
  · have hclear : clearUnused t i = wrIfChanged (wrIfChanged t (elementWord i 4) 0) (elementWord i 5) 0 :=
      if_pos (by rw [h]; rfl)
    rw [hclear, readWord]
    by_cases h5 : w = 5
    · rw [h5, if_pos ⟨h, .inr rfl⟩, rd_wrIfChanged_same (wrIfChanged_wf hm _ _)]
    · rw [wrIfChanged_kept _ _ _ _ (by simpa [elementWord_word_inj] using h5)]
      by_cases h4 : w = 4
      · rw [h4, if_pos ⟨h, .inl rfl⟩, rd_wrIfChanged_same hm]
      · rw [if_neg fun hh => hh.2.elim h4 h5, wrIfChanged_kept _ _ _ _ (by simpa [elementWord_word_inj] using h4)]
  · have hclear : clearUnused t i = t := if_neg fun h0 => h (BitVec.eq_of_toNat_eq (by rw [h0]; rfl))
    rw [hclear, readWord, if_neg fun hh => h hh.1]

/-! The whole table. -/

/-- R128 step 1: the root's record has been written. -/
def rootWritten (s : State) : State := wrAll s [(elementWord 0 1, 0), (elementWord 0 4, 2), (elementWord 0 5, 0)]

/-- The indices 1 to 255. -/
def tableIndices : List Nat := (List.range 255).map (· + 1)

theorem mem_tableIndices : i ∈ tableIndices ↔ 1 ≤ i ∧ i ≤ 255 := by
  simp only [tableIndices, List.mem_map, List.mem_range]
  exact ⟨fun ⟨k, hk, he⟩ => by omega, fun h => ⟨i - 1, by omega, by omega⟩⟩

theorem tableIndices_nodup : tableIndices.Nodup := List.nodup_range.map fun _ _ h => Nat.succ.inj h

/-- R128 step 1: the indices not in use have been cleared. -/
def tableRead (s : State) : State := tableIndices.foldl clearUnused (rootWritten s)

theorem censusRead_eq (s : State) :
    censusRead s = { tableRead s with plant := { (tableRead s).plant with tree := readTree (tableRead s) } } := by
  have htable : (List.range 255).foldl (fun t k =>
      let i := k + 1
      if (rd t (elementWord i 0)).toNat = 0 then
        wrIfChanged (wrIfChanged t (elementWord i 4) 0) (elementWord i 5) 0
      else t) (rootWritten s) = tableRead s := (List.foldl_map (f := (· + 1)) (g := clearUnused)).symm
  unfold censusRead
  rw [← htable]
  rfl

theorem rootWritten_wf (hm : MemWf s.mem) : MemWf (rootWritten s).mem := wr_wf _ _ _ (wr_wf _ _ _ (wr_wf _ _ _ hm))

theorem rootWritten_kept (s : State) : WordsKept [elementWord 0 1, elementWord 0 4, elementWord 0 5] s (rootWritten s) :=
  wrAll_wordsKept [(elementWord 0 1, 0), (elementWord 0 4, 2), (elementWord 0 5, 0)] s

theorem tableRead_wf (hm : MemWf s.mem) : MemWf (tableRead s).mem :=
  foldl_wf (fun _ i hv => clearUnused_wf hv i) _ _ (rootWritten_wf hm)

theorem tableRead_frame (s : State) : tableRead s = { s with mem := (tableRead s).mem, port := (tableRead s).port } := by
  unfold tableRead
  rw [foldl_mem_frame clearUnused_frame]
  rfl

/-- A word outside the records of 1 to 255 stays as the root's writes leave it. -/
theorem rd_tableRead_outside (s : State) {a : Nat} (h : ∀ i, 1 ≤ i → i ≤ 255 → inElement i a = false) :
    rd (tableRead s) a = rd (rootWritten s) a :=
  foldl_kept_of_not_mem clearUnused_touch (fun i hi => h i (mem_tableIndices.1 hi).1 (mem_tableIndices.1 hi).2) _

theorem rd_tableRead (hm : MemWf s.mem) (h1 : 1 ≤ i) (h255 : i ≤ 255) {w : Nat} (hw : w < 16) :
    rd (tableRead s) (elementWord i w) = readWord s i w := by
  have hroot (a : Nat) (ha : inElement i a = true) : rd (rootWritten s) a = rd s a := rootWritten_kept s a fun hmem => by
    rw [inElement_iff] at ha
    simp only [List.mem_cons, List.not_mem_nil, or_false, elementWord] at hmem
    omega
  refine rd_foldl_at (place := inElement) (fun v i hv => clearUnused_wf hv i) clearUnused_touch inElement_disjoint
    (inElement_elementWord hw) (rootWritten_wf hm) tableIndices_nodup (mem_tableIndices.2 ⟨h1, h255⟩) fun v hv hsame => ?_
  have hrd (y : Nat) (hy : y < 16) : rd v (elementWord i y) = rd s (elementWord i y) :=
    (hsame _ (inElement_elementWord hy)).trans (hroot _ (inElement_elementWord hy))
  rw [rd_clearUnused hv, readWord, readWord, hrd 0 (by decide), hrd w hw]

theorem rd_tableRead_headEndWritten (hm : MemWf s.mem) : rd (tableRead s) (elementWord 0 1) = 0 ∧
    rd (tableRead s) (elementWord 0 4) = 2 ∧ rd (tableRead s) (elementWord 0 5) = 0 := by
  have hout (w : Nat) (hw : w < 16) : rd (tableRead s) (elementWord 0 w) = rd (rootWritten s) (elementWord 0 w) :=
    rd_tableRead_outside s fun i h1 _ => by
      rw [← Bool.not_eq_true, inElement_iff, elementWord]
      omega
  have hroot {a : Nat} {y : Word} (h : (a, y) ∈ [(elementWord 0 1, (0 : Word)), (elementWord 0 4, 2), (elementWord 0 5, 0)]) :
      rd (rootWritten s) a = y := rd_wrAll_mem hm (by decide) h
  exact ⟨(hout 1 (by decide)).trans (hroot (by simp)), (hout 4 (by decide)).trans (hroot (by simp)),
    (hout 5 (by decide)).trans (hroot (by simp))⟩

theorem rd_tableRead_headEnd (s : State) {w : Nat} (hw : w < 16) (h : w ∉ [1, 4, 5]) :
    rd (tableRead s) (elementWord 0 w) = rd s (elementWord 0 w) := by
  refine (rd_tableRead_outside s fun i h1 _ => ?_).trans (rootWritten_kept s _ fun hmem => h ?_)
  · rw [← Bool.not_eq_true, inElement_iff, elementWord]
    omega
  · simpa [elementWord_word_inj] using hmem

theorem tableRead_kept (s : State) : KeptOutside (fun a => decide (0x1000 ≤ a) && decide (a < 0x2000)) s (tableRead s) := by
  intro a ha
  have ha : ¬(0x1000 ≤ a ∧ a < 0x2000) := by simpa using ha
  refine (rd_tableRead_outside s fun i h1 h255 => ?_).trans (rootWritten_kept s a fun hmem => ?_)
  · rw [← Bool.not_eq_true, inElement_iff]
    omega
  · simp only [List.mem_cons, List.not_mem_nil, or_false, elementWord] at hmem
    omega

/-! The tree (R128 step 1). -/

theorem filterMap_eq_map_filter {α β : Type} (p : α → Bool) (h : α → β) (l : List α) :
    l.filterMap (fun x => if p x then some (h x) else none) = (l.filter p).map h := by
  induction l with
  | nil => rfl
  | cons x l ih =>
    by_cases hp : p x = true
    · rw [List.filterMap_cons_some (by rw [if_pos hp]), List.filter_cons_of_pos hp, List.map_cons, ih]
    · rw [List.filterMap_cons_none (by rw [if_neg hp]), List.filter_cons_of_neg hp, ih]

theorem usedIndices_eq (s : State) : usedIndices s = tableIndices.filter fun i => decide (rd s (elementWord i 0) ≠ 0) := by
  unfold usedIndices tableIndices
  rw [show (256 : Nat) = 255 + 1 from rfl, List.range_succ_eq_map, List.filter_cons_of_neg (by simp)]
  refine List.filter_congr fun i hi => ?_
  have hi := mem_tableIndices.1 hi
  rw [Bool.eq_iff_iff]
  simp only [Bool.and_eq_true, decide_eq_true_eq, usedInTable_iff]
  exact ⟨fun h => (h.2.resolve_left h.1).2, fun h => ⟨by omega, .inr ⟨hi.2, h⟩⟩⟩

theorem readTree_eq (s : State) : readTree s = tableIndices.filterMap fun i =>
    if decide (rd s (elementWord i 0) ≠ 0) then
      some (i, { address := (rd s (elementWord i 0)).toNat, parent := (rd s (elementWord i 1)).toNat
                 state := censusState (rd s (elementWord i 4)).toNat }) else none := by
  unfold readTree tableIndices
  rw [List.filterMap_map]
  refine List.filterMap_congr fun k _ => ?_
  by_cases h : rd s (elementWord (k + 1) 0) = 0
  · simp [h]
  · have hne : (rd s (elementWord (k + 1) 0)).toNat ≠ 0 := fun h0 => h (BitVec.eq_of_toNat_eq (by rw [h0]; rfl))
    simp only [Function.comp_apply, if_neg hne, decide_eq_true h, if_true]

theorem readTree_tableRead (hm : MemWf s.mem) : readTree (tableRead s) = treeWith s (storedParent s) := by
  have hword {i w : Nat} (hi : i ∈ tableIndices) (hw : w < 16) : rd (tableRead s) (elementWord i w) = readWord s i w :=
    rd_tableRead hm (mem_tableIndices.1 hi).1 (mem_tableIndices.1 hi).2 hw
  have haddress {i : Nat} (hi : i ∈ tableIndices) : rd (tableRead s) (elementWord i 0) = rd s (elementWord i 0) := by
    rw [hword hi (by decide), readWord, if_neg (by omega)]
  rw [readTree_eq, filterMap_eq_map_filter, treeWith, usedIndices_eq]
  have hfilter : tableIndices.filter (fun i => decide (rd (tableRead s) (elementWord i 0) ≠ 0)) =
      tableIndices.filter fun i => decide (rd s (elementWord i 0) ≠ 0) := List.filter_congr fun i hi => by rw [haddress hi]
  rw [hfilter]
  refine List.map_congr_left fun i hi => ?_
  obtain ⟨hi, hused⟩ := List.mem_filter.1 hi
  have hused : rd s (elementWord i 0) ≠ 0 := of_decide_eq_true hused
  have h0 : i ≠ 0 := by have := (mem_tableIndices.1 hi).1; omega
  rw [haddress hi, hword hi (by decide), hword hi (by decide), readWord, if_neg fun h => hused h.1, readWord,
    if_neg fun h => hused h.1, censusElement, storedParent, if_neg h0]

end Sys2Proof.Machine


/-! ## The states that the census gives (R128 step 5) -/

namespace Sys2Proof.Machine

variable {s t u v w x : State} {i j : Nat} {f : Nat → Nat}

/-- R128 step 5: the words of an element that holds LATCHED_OUT. -/
def latchedJudged (i : Nat) (v : State) : State := setCounter i (counterMax v i) (wr v (elementWord i 7) 0)

/-- R128 step 5: the words of any other element, its duration left. -/
def unpolledJudged (i : Nat) (v : State) : State :=
  wr (setCounter i 0 (setElementState i .unpolled (wr v (elementWord i 7) 0))) (elementWord i 6) 0

theorem censusElementState_latched (h : rd v (elementWord i 4) = 4) : censusElementState v i = latchedJudged i v :=
  if_pos (by rw [h]; rfl)

theorem toNat_ne_of_ne {a : Word} {n : Nat} (hn : n < 65536) (h : a ≠ wordOf n) : a.toNat ≠ n := fun he =>
  h (BitVec.eq_of_toNat_eq (by rw [he, wordOf, BitVec.toNat_ofNat, Nat.mod_eq_of_lt hn]))

theorem censusElementState_out (h : rd v (elementWord i 4) = 3) :
    censusElementState v i = wr (unpolledJudged i v) (elementWord i 11) 0xFFFF := by
  unfold censusElementState
  dsimp only
  rw [h]
  rfl

theorem censusElementState_other (h₄ : rd v (elementWord i 4) ≠ 4) (h₃ : rd v (elementWord i 4) ≠ 3) :
    censusElementState v i = unpolledJudged i v :=
  (if_neg (toNat_ne_of_ne (n := 4) (by decide) h₄)).trans (if_neg (toNat_ne_of_ne (n := 3) (by decide) h₃))

theorem rd_wr_element (hm : MemWf v.mem) (i w y : Nat) (x : Word) :
    rd (wr v (elementWord i y) x) (elementWord i w) = if w = y then x else rd v (elementWord i w) := by
  by_cases h : w = y
  · rw [if_pos h, h]
    exact rd_wr_same _ _ _ hm
  · rw [if_neg h]
    exact rd_wr_other _ _ _ _ fun he => h (elementWord_word_inj.1 he)

theorem rd_latchedJudged (hm : MemWf v.mem) (i w : Nat) : rd (latchedJudged i v) (elementWord i w) =
    if w = 5 then wordOf (counterMax v i) else if w = 7 then 0 else rd v (elementWord i w) := by
  unfold latchedJudged setCounter
  rw [rd_wr_element (wr_wf _ _ _ hm), rd_wr_element hm]

theorem rd_unpolledJudged (hm : MemWf v.mem) (i w : Nat) : rd (unpolledJudged i v) (elementWord i w) =
    if w = 6 then 0 else if w = 5 then 0 else if w = 4 then 1 else if w = 7 then 0 else rd v (elementWord i w) := by
  have h₇ : MemWf (wr v (elementWord i 7) 0).mem := wr_wf _ _ _ hm
  have h₄ : MemWf (setElementState i .unpolled (wr v (elementWord i 7) 0)).mem := wr_wf _ _ _ h₇
  have hstate : rd (setElementState i .unpolled (wr v (elementWord i 7) 0)) (elementWord i w) =
      if w = 4 then 1 else rd (wr v (elementWord i 7) 0) (elementWord i w) := rd_wr_element
    (v := { wr v (elementWord i 7) 0 with plant := { v.plant with tree := treeSetState v.plant.tree i .unpolled } }) h₇ i w 4 1
  unfold unpolledJudged setCounter
  rw [rd_wr_element (wr_wf _ _ _ h₄), rd_wr_element h₄, hstate, rd_wr_element hm]
  rfl

theorem unpolledJudged_wf (hm : MemWf v.mem) (i : Nat) : MemWf (unpolledJudged i v).mem :=
  wr_wf _ _ _ (wr_wf _ _ _ (wr_wf _ _ _ (wr_wf _ _ _ hm)))

/-- R128 step 5: a word of an element in use, from the words its record holds. -/
def judgedWord (v : State) (i w : Nat) : Word :=
  if rd v (elementWord i 4) = 4 then
    (if w = 5 then wordOf (counterMax v i) else if w = 7 then 0 else rd v (elementWord i w))
  else if w = 11 ∧ rd v (elementWord i 4) = 3 then 0xFFFF
  else if w = 6 then 0 else if w = 5 then 0 else if w = 4 then 1 else if w = 7 then 0 else rd v (elementWord i w)

theorem rd_censusElementState (hm : MemWf v.mem) (i w : Nat) :
    rd (censusElementState v i) (elementWord i w) = judgedWord v i w := by
  by_cases hl : rd v (elementWord i 4) = 4
  · rw [censusElementState_latched hl, rd_latchedJudged hm, judgedWord, if_pos hl]
  · rw [judgedWord, if_neg hl]
    by_cases ho : rd v (elementWord i 4) = 3
    · rw [censusElementState_out ho, rd_wr_element (unpolledJudged_wf hm i), rd_unpolledJudged hm]
      simp only [ho, and_true]
    · rw [censusElementState_other hl ho, rd_unpolledJudged hm,
        if_neg (c := w = 11 ∧ rd v (elementWord i 4) = 3) fun h => ho h.2]

theorem latchedJudged_touch (i : Nat) (v : State) : WordsKept [elementWord i 5, elementWord i 7] v (latchedJudged i v) := by
  unfold latchedJudged setCounter
  exact ((wordsKept_wr v (elementWord i 7) 0).mono (by simp)).trans ((wordsKept_wr _ (elementWord i 5) _).mono (by simp))

theorem unpolledJudged_touch (i : Nat) (v : State) :
    WordsKept [elementWord i 4, elementWord i 5, elementWord i 6, elementWord i 7] v (unpolledJudged i v) := by
  have hstate : WordsKept [elementWord i 4] (wr v (elementWord i 7) 0) (setElementState i .unpolled (wr v (elementWord i 7) 0)) :=
    wordsKept_wr { wr v (elementWord i 7) 0 with plant := { v.plant with tree := treeSetState v.plant.tree i .unpolled } }
      (elementWord i 4) (wordOf ElementState.unpolled.code)
  unfold unpolledJudged setCounter
  exact ((((wordsKept_wr v (elementWord i 7) 0).mono (by simp)).trans (hstate.mono (by simp))).trans
    ((wordsKept_wr _ (elementWord i 5) _).mono (by simp))).trans ((wordsKept_wr _ (elementWord i 6) 0).mono (by simp))

theorem censusElementState_touch (v : State) (i : Nat) : KeptOutside (inElement i) v (censusElementState v i) := by
  have helement {ws : List Nat} (hws : ∀ a ∈ ws, inElement i a = true) {u : State} (h : WordsKept ws v u) :
      KeptOutside (inElement i) v u := h.keptOutside hws
  by_cases hl : rd v (elementWord i 4) = 4
  · rw [censusElementState_latched hl]
    exact helement (by simp [inElement_elementWord]) (latchedJudged_touch i v)
  · have hunpolled : KeptOutside (inElement i) v (unpolledJudged i v) :=
      helement (by simp [inElement_elementWord]) (unpolledJudged_touch i v)
    by_cases ho : rd v (elementWord i 4) = 3
    · rw [censusElementState_out ho]
      exact hunpolled.trans ((wordsKept_wr _ (elementWord i 11) 0xFFFF).keptOutside (by simp [inElement_elementWord]))
    · rw [censusElementState_other hl ho]
      exact hunpolled

theorem censusElementState_wf (hm : MemWf v.mem) (i : Nat) : MemWf (censusElementState v i).mem := by
  by_cases hl : rd v (elementWord i 4) = 4
  · rw [censusElementState_latched hl]
    exact wr_wf _ _ _ (wr_wf _ _ _ hm)
  · by_cases ho : rd v (elementWord i 4) = 3
    · rw [censusElementState_out ho]
      exact wr_wf _ _ _ (unpolledJudged_wf hm i)
    · rw [censusElementState_other hl ho]
      exact unpolledJudged_wf hm i

/-- The tree shows the state that the judgement gives already. -/
theorem censusElementState_frame (hi : i ∈ usedIndices s) (ht : v.plant.tree = treeWith s f)
    (hw : rd v (elementWord i 4) = rd s (elementWord i 4)) : censusElementState v i = { v with
      mem := (censusElementState v i).mem, port := (censusElementState v i).port } := by
  by_cases hl : rd v (elementWord i 4) = 4
  · rw [censusElementState_latched hl]
    rfl
  · have hunpolled : censusState (rd s (elementWord i 4)).toNat = .unpolled :=
      if_neg (toNat_ne_of_ne (n := 4) (by decide) (hw ▸ hl))
    have hjudged : unpolledJudged i v = { v with
        mem := (unpolledJudged i v).mem, port := (unpolledJudged i v).port
        plant := { v.plant with tree := treeSetState v.plant.tree i .unpolled } } := rfl
    rw [ht, treeSetState_treeWith hi hunpolled, ← ht] at hjudged
    by_cases ho : rd v (elementWord i 4) = 3
    · rw [censusElementState_out ho]
      generalize unpolledJudged i v = y at *
      rw [hjudged]
      rfl
    · rw [censusElementState_other hl ho]
      exact hjudged

theorem censusStates_frame (l : List Nat) : ∀ {v : State}, l.Nodup → l ⊆ usedIndices s → v.plant.tree = treeWith s f →
    (∀ i ∈ l, rd v (elementWord i 4) = rd s (elementWord i 4)) → l.foldl censusElementState v = { v with
      mem := (l.foldl censusElementState v).mem, port := (l.foldl censusElementState v).port } := by
  induction l with
  | nil => exact fun _ _ _ _ => rfl
  | cons i l ih =>
    intro v hnodup hl ht hw
    obtain ⟨hi, hnodup⟩ := List.nodup_cons.1 hnodup
    obtain ⟨hiu, hl⟩ := List.cons_subset.1 hl
    obtain ⟨hwi, hw⟩ := List.forall_mem_cons.1 hw
    have hframe := censusElementState_frame hiu ht hwi
    have hword (j : Nat) (hj : j ∈ l) : rd (censusElementState v i) (elementWord j 4) = rd s (elementWord j 4) := by
      refine (censusElementState_touch v i _ ?_).trans (hw j hj)
      rw [← Bool.not_eq_true]
      refine fun h => hi ?_
      rwa [inElement_disjoint i j _ h (inElement_elementWord (by decide))]
    rw [List.foldl_cons, ih hnodup hl (by rw [hframe]; exact ht) hword]
    rw [hframe]

/-! The whole step. -/

/-- R128 step 5: every element in use has its state. -/
def statesJudged (s v : State) : State := (usedIndices s).foldl censusElementState v

theorem judgedWord_congr (h : ∀ w, w < 16 → rd u (elementWord i w) = rd v (elementWord i w)) {w : Nat} (hw : w < 16) :
    judgedWord u i w = judgedWord v i w := by
  have hmax : counterMax u i = counterMax v i := by
    unfold counterMax elementLimit elementHold
    rw [h 2 (by decide), h 3 (by decide)]
  rw [judgedWord, judgedWord, h 4 (by decide), h w hw, hmax]

theorem rd_statesJudged (hm : MemWf v.mem) (hi : i ∈ usedIndices s) {w : Nat} (hw : w < 16) :
    rd (statesJudged s v) (elementWord i w) = judgedWord v i w :=
  rd_foldl_at (place := inElement) (fun _ j hv => censusElementState_wf hv j) censusElementState_touch inElement_disjoint
    (inElement_elementWord hw) hm (usedIndices_nodup s) hi fun _ hu hsame =>
      (rd_censusElementState hu i w).trans (judgedWord_congr (fun _ hy => hsame _ (inElement_elementWord hy)) hw)

theorem rd_statesJudged_outside (s v : State) {a : Nat} (h : ∀ i ∈ usedIndices s, inElement i a = false) :
    rd (statesJudged s v) a = rd v a := foldl_kept_of_not_mem censusElementState_touch h v

theorem statesJudged_wf (hm : MemWf v.mem) (s : State) : MemWf (statesJudged s v).mem :=
  foldl_wf (fun _ j hv => censusElementState_wf hv j) _ _ hm

end Sys2Proof.Machine


/-! ## ELEMENT_CENSUS, and the settlement of O57 (R128) -/

namespace Sys2Proof.Machine

variable {s t u v w c : State} {i j : Nat} {f : Nat → Nat}

/-! What the census leaves. -/

/-- R128: the state after the passes and the states. -/
structure Censused (s t : State) : Prop where
  tree : t.plant.tree = treeWith s (censusParent s)
  parent : ∀ i ∈ usedIndices s, rd t (elementWord i 1) = wordOf (censusParent s i)
  used : ∀ i ∈ usedIndices s, ∀ w, w < 16 → w ≠ 1 → rd t (elementWord i w) = judgedWord s i w
  unused : ∀ i, 1 ≤ i → i ≤ 255 → rd s (elementWord i 0) = 0 → ∀ w, w < 16 → rd t (elementWord i w) = readWord s i w
  root : rd t (elementWord 0 1) = 0 ∧ rd t (elementWord 0 4) = 2 ∧ rd t (elementWord 0 5) = 0
  rootOther : ∀ w, w < 16 → w ∉ [1, 4, 5] → rd t (elementWord 0 w) = rd s (elementWord 0 w)
  kept : KeptOutside (fun a => ringPlace a || (decide (0x1000 ≤ a) && decide (a < 0x2000))) s t
  logs : LogsResets ((censusResets s (treeWith s (censusParent s))).map fun i => (i, storedParent s i)) s t
  frame : t = { s with
    mem := t.mem, port := t.port, plant := { s.plant with tree := t.plant.tree }, writer := t.writer }

theorem LogsResets.of_start {rs : List (Nat × Nat)} (h : LogsResets rs v w) (hw : v.writer = s.writer)
    (hc : v.clock = s.clock) : LogsResets rs s w := fun r j hl hj hh ht hroom => by
  obtain ⟨hrec, hrest⟩ := h r j (hw ▸ hl) (hw ▸ hj) hh ht hroom
  exact ⟨fun k i p hk => (hrec k i p hk).of_clock hc, hrest⟩

theorem LogsResets.of_rings {rs : List (Nat × Nat)} (h : LogsResets rs s v) (hk : RingsKept v w) (hw : w.writer = v.writer) :
    LogsResets rs s w := fun r j hl hj hh ht hroom => by
  obtain ⟨hrec, hlog, hjournal⟩ := h r j hl hj hh ht hroom
  exact ⟨fun k i p hget => hk.recordAt (Nat.mod_lt _ (by decide)) (hrec k i p hget), hw ▸ hlog, hw ▸ hjournal⟩

theorem usedIndices_range (hi : i ∈ usedIndices s) : 1 ≤ i ∧ i ≤ 255 ∧ rd s (elementWord i 0) ≠ 0 := by
  obtain ⟨h0, hused⟩ := mem_usedIndices.1 hi
  obtain ⟨hle, hne⟩ := ((usedInTable_iff s i).1 hused).resolve_left h0
  exact ⟨Nat.one_le_iff_ne_zero.2 h0, hle, hne⟩

theorem mem_usedIndices_of (h1 : 1 ≤ i) (h255 : i ≤ 255) (h : rd s (elementWord i 0) ≠ 0) : i ∈ usedIndices s :=
  mem_usedIndices.2 ⟨by omega, (usedInTable_iff s i).2 (.inr ⟨h255, h⟩)⟩

/-- The words outside the parents of the elements in use, through the passes. -/
theorem CensusPassed.kept_word (h : CensusPassed s c w) {a : Nat} (hr : ringPlace a = false)
    (ha : ∀ i ∈ usedIndices s, a ≠ elementWord i 1) : rd w a = rd c a := h.kept a (by
  rw [← Bool.not_eq_true, withRings_iff, hr]
  rintro (hmem | hring)
  · obtain ⟨i, hi, rfl⟩ := List.mem_map.1 hmem
    exact ha i hi rfl
  · cases hring)

theorem elementWord_ne {w y : Nat} (h : i ≠ j ∨ w ≠ y) (hw : w < 16) (hy : y < 16) : elementWord i w ≠ elementWord j y := by
  unfold elementWord
  omega

theorem censused_states (hm : MemWf s.mem) (hring : RingLaw s) (hst : s.part.state = .starting) :
    (censusPass tooDeep (censusPass inCycle (censusPass parentMissing (censusRead s)))).plant.tree =
      treeWith s (censusParent s) ∧
    Censused s (statesJudged s (censusPass tooDeep (censusPass inCycle (censusPass parentMissing (censusRead s))))) := by
  have hframe := tableRead_frame s
  have hread : (censusRead s).mem = (tableRead s).mem := by rw [censusRead_eq]
  have hcrd (a : Nat) : rd (censusRead s) a = rd (tableRead s) a := rd_congr hread a
  have hctree : (censusRead s).plant.tree = treeWith s (storedParent s) := by
    rw [censusRead_eq]
    exact readTree_tableRead hm
  have hcframe : censusRead s = { s with
      mem := (censusRead s).mem, port := (censusRead s).port
      plant := { s.plant with tree := (censusRead s).plant.tree } } := by
    rw [censusRead_eq, tableRead_frame]
  have hused {i w : Nat} (hi : i ∈ usedIndices s) (hw : w < 16) : rd (censusRead s) (elementWord i w) = rd s (elementWord i w) := by
    obtain ⟨h1, h255, hne⟩ := usedIndices_range hi
    rw [hcrd, rd_tableRead hm h1 h255 hw, readWord, if_neg fun h => hne h.1]
  have hstored (i : Nat) (hi : i ∈ usedIndices s) : rd (censusRead s) (elementWord i 1) = wordOf (storedParent s i) := by
    have h0 : i ≠ 0 := (mem_usedIndices.1 hi).1
    rw [hused hi (by decide), storedParent, if_neg h0, wordOf_rd]
  have hcwf : MemWf (censusRead s).mem := by
    rw [hread]
    exact tableRead_wf hm
  have hclaw : RingLaw (censusRead s) := ringLaw_of_writer hring (by rw [hcframe])
  have hp := censusPassed hcwf hclaw (by rw [hcframe]; exact hst) hctree hstored
  generalize censusRead s = c at *
  generalize censusPass tooDeep (censusPass inCycle (censusPass parentMissing c)) = v at *
  have hvused {i w : Nat} (hi : i ∈ usedIndices s) (hw : w < 16) (h1 : w ≠ 1) :
      rd v (elementWord i w) = rd s (elementWord i w) :=
    (hp.kept_word (ringPlace_usedElement hi hw) fun j _ => elementWord_ne (.inr h1) hw (by decide)).trans (hused hi hw)
  have hvother {i w : Nat} (hi : i ∉ usedIndices s) (h255 : i ≤ 255) (hw : w < 16) :
      rd (statesJudged s v) (elementWord i w) = rd c (elementWord i w) := by
    refine (rd_statesJudged_outside s v fun j hj => ?_).trans
      (hp.kept_word (ringPlace_elementWord (by omega) hw) fun j hj => elementWord_ne (.inl ?_) hw (by decide))
    · rw [← Bool.not_eq_true]
      intro h
      exact hi (inElement_disjoint j i _ h (inElement_elementWord hw) ▸ hj)
    · rintro rfl
      exact hi hj
  have hroot : (0 : Nat) ∉ usedIndices s := fun h => (mem_usedIndices.1 h).1 rfl
  have htframe := censusStates_frame (usedIndices s) (usedIndices_nodup s) (List.Subset.refl _) hp.tree
    fun i hi => hvused hi (by decide) (by decide)
  have htframe : statesJudged s v = { v with mem := (statesJudged s v).mem, port := (statesJudged s v).port } := htframe
  have hrings : RingsKept v (statesJudged s v) := fun a ha => rd_statesJudged_outside s v fun i hi => by
    obtain ⟨h1, h255, -⟩ := usedIndices_range hi
    rw [ringPlace_iff] at ha
    rw [← Bool.not_eq_true, inElement_iff]
    omega
  refine ⟨hp.tree, ?_, fun i hi => ?_, fun i hi w hw h1 => ?_, fun i h1 h255 h w hw => ?_, ?_, fun w hw h => ?_, fun a ha => ?_, ?_, ?_⟩
  · rw [htframe]
    exact hp.tree
  · rw [rd_statesJudged hp.wf hi (by decide), ← hp.words i hi]
    simp [judgedWord]
  · rw [rd_statesJudged hp.wf hi hw]
    have h2 := hvused hi (w := 2) (by decide) (by decide)
    have h3 := hvused hi (w := 3) (by decide) (by decide)
    have hmax : counterMax v i = counterMax s i := by rw [counterMax, elementLimit, elementHold, h2, h3]; rfl
    rw [judgedWord, judgedWord, hvused hi (w := 4) (by decide) (by decide), hvused hi hw h1, hmax]
  · have hi : i ∉ usedIndices s := fun hmem => (usedIndices_range hmem).2.2 h
    rw [hvother hi h255 hw, hcrd, rd_tableRead hm h1 h255 hw]
  · obtain ⟨hr1, hr4, hr5⟩ := rd_tableRead_headEndWritten hm
    exact ⟨(hvother hroot (by decide) (by decide)).trans ((hcrd _).trans hr1),
      (hvother hroot (by decide) (by decide)).trans ((hcrd _).trans hr4),
      (hvother hroot (by decide) (by decide)).trans ((hcrd _).trans hr5)⟩
  · exact (hvother hroot (by decide) hw).trans ((hcrd _).trans (rd_tableRead_headEnd s hw h))
  · obtain ⟨hr, hout⟩ := Bool.or_eq_false_iff.1 ha
    have hout' : ¬(0x1000 ≤ a ∧ a < 0x2000) := by simpa using hout
    refine (rd_statesJudged_outside s v fun i hi => ?_).trans ((hp.kept_word hr fun i hi => ?_).trans
      ((hcrd a).trans (tableRead_kept s a hout)))
    · obtain ⟨h1, h255, -⟩ := usedIndices_range hi
      rw [← Bool.not_eq_true, inElement_iff]
      omega
    · obtain ⟨h1, h255, -⟩ := usedIndices_range hi
      rw [elementWord]
      omega
  · exact (hp.logs.of_start (by rw [hcframe]) (by rw [hcframe])).of_rings hrings (by rw [htframe])
  · rw [htframe, hp.frame, hcframe]

/-- R128 step 6. -/
theorem elementCensus_eq (hm : MemWf s.mem) (hring : RingLaw s) (hst : s.part.state = .starting) :
    ∃ w, Censused s w ∧ elementCensus s = censusCounts w := by
  obtain ⟨htree, h⟩ := censused_states hm hring hst
  refine ⟨_, h, ?_⟩
  unfold elementCensus
  dsimp only
  rw [htree, treeWith_indices]
  rfl

end Sys2Proof.Machine


/-! ## The settlement of O57 -/

namespace Sys2Proof.Machine

variable {s t u v w c : State} {i j : Nat} {f : Nat → Nat}

theorem censusState_eq (x : Word) : censusState x.toNat = if x = 4 then .latchedOut else .unpolled := by
  unfold censusState
  by_cases h : x = 4
  · rw [if_pos h, h]
    rfl
  · rw [if_neg h, if_neg (toNat_ne_of_ne (n := 4) (by decide) h)]

theorem Censused.element (h : Censused s t) (hi : i ∈ usedIndices s) :
    tableGet t.plant.tree i = some (censusElement s (censusParent s) i) := by
  rw [h.tree, tableGet_treeWith, if_pos hi]

/-- R128 step 5: the words of an element in use. -/
theorem Censused.words (h : Censused s t) (hi : i ∈ usedIndices s) {e : Element}
    (he : e = censusElement s (censusParent s) i) :
    rd t (elementWord i 1) = wordOf e.parent ∧ rd t (elementWord i 4) = wordOf e.state.code ∧
    rd t (elementWord i 7) = 0 ∧
    (e.state = .unpolled → rd t (elementWord i 5) = 0 ∧ rd t (elementWord i 6) = 0) ∧
    (e.state = .latchedOut → counterOf t i = counterMax s i) ∧
    (rd s (elementWord i 4) = 3 → rd t (elementWord i 11) = 0xFFFF) := by
  have hstate : e.state = if rd s (elementWord i 4) = 4 then .latchedOut else .unpolled := by
    rw [he]
    exact censusState_eq _
  have hparent : e.parent = censusParent s i := by rw [he]; rfl
  have hw {w : Nat} (hw : w < 16) (h1 : w ≠ 1) : rd t (elementWord i w) = judgedWord s i w := h.used i hi w hw h1
  rw [hstate, hparent, counterOf, hw (w := 4) (by decide) (by decide), hw (w := 5) (by decide) (by decide),
    hw (w := 6) (by decide) (by decide), hw (w := 7) (by decide) (by decide), hw (w := 11) (by decide) (by decide)]
  refine ⟨h.parent i hi, ?_⟩
  by_cases hl : rd s (elementWord i 4) = 4
  · have hj (w : Nat) : judgedWord s i w = if w = 5 then wordOf (counterMax s i) else if w = 7 then 0 else
        rd s (elementWord i w) := if_pos hl
    rw [if_pos hl]
    exact ⟨(hj 4).trans hl, hj 7, fun hno => (by cases hno),
      fun _ => (congrArg BitVec.toNat (hj 5)).trans (wordOf_toNat (counterMax_lt s i)),
      fun ho => absurd (hl.symm.trans ho) (by decide)⟩
  · have hj (w : Nat) : judgedWord s i w = if w = 11 ∧ rd s (elementWord i 4) = 3 then 0xFFFF else if w = 6 then 0 else
        if w = 5 then 0 else if w = 4 then 1 else if w = 7 then 0 else rd s (elementWord i w) := if_neg hl
    have hne {w : Nat} (hw : w ≠ 11) : ¬(w = 11 ∧ rd s (elementWord i 4) = 3) := fun hh => hw hh.1
    rw [if_neg hl]
    exact ⟨(hj 4).trans (if_neg (hne (by decide))), (hj 7).trans (if_neg (hne (by decide))),
      fun _ => ⟨(hj 5).trans (if_neg (hne (by decide))), (hj 6).trans (if_neg (hne (by decide)))⟩,
      fun hno => (by cases hno), fun ho => (hj 11).trans (if_pos ⟨rfl, ho⟩)⟩

/-- R128: the parents of the tree that the census leaves. -/
theorem Censused.parents (h : Censused s t) (hi : i ∈ usedIndices s) :
    (censusParent s i = (rd s (elementWord i 1)).toNat ∨ censusParent s i = 0) ∧
    (shallow s t.plant.tree i → censusParent s i = openedParent s i) ∧
    (¬shallow s t.plant.tree i → censusParent s i = 0) ∧
    (∀ d, d ≤ 8 → (storedParent s)^[d] i = 0 →
      (∀ k, k < d → usedInTable s ((storedParent s)^[k] i) = true) → censusParent s i = storedParent s i) ∧
    elementInUse t.plant.tree (censusParent s i) = true ∧ depthOf t.plant.tree i ≤ 8 := by
  obtain ⟨h0, hused⟩ := mem_usedIndices.1 hi
  have hstored : storedParent s i = (rd s (elementWord i 1)).toNat := if_neg h0
  rw [h.tree]
  refine ⟨?_, censusParent_of_shallow hi, censusParent_of_deep hi, fun d hd hz hk => censusParent_of_good_chain hi hd hz hk, ?_,
    (depthOf_treeWith_le (parentMap_censusParent s) hused).2 (censusParent_shallow hused)⟩
  · obtain hc | hc := censusParent_cases s i
    · rw [hc, ← hstored]
      exact openedParent_cases s i
    · exact .inr hc
  · rw [elementInUse_treeWith]
    exact (parentMap_censusParent s).used i hused

/-- R128: the words for which the rule gives no value. -/
theorem Censused.other_words (h : Censused s t) {w : Nat} (hi : i < 256) (hw : w < 16)
    (hcase : w ∉ [1, 4, 5, 6, 7, 11] ∨ (w ∉ [4, 5] ∧ 1 ≤ i ∧ rd s (elementWord i 0) = 0) ∨
      (w ∉ [1, 4, 5] ∧ i = 0) ∨ (w = 6 ∧ rd s (elementWord i 4) = 4) ∨ (w = 11 ∧ rd s (elementWord i 4) ≠ 3)) :
    rd t (elementWord i w) = rd s (elementWord i w) := by
  have h45 : w ≠ 4 ∧ w ≠ 5 := by
    obtain hc | ⟨hc, -⟩ | ⟨hc, -⟩ | ⟨rfl, -⟩ | ⟨rfl, -⟩ := hcase
    · simp at hc
      omega
    · simpa using hc
    · simp at hc
      omega
    · decide
    · decide
  by_cases h0 : i = 0
  · subst h0
    refine h.rootOther w hw ?_
    simp only [List.mem_cons, List.not_mem_nil, or_false] at hcase ⊢
    omega
  · by_cases hz : rd s (elementWord i 0) = 0
    · rw [h.unused i (Nat.one_le_iff_ne_zero.2 h0) (by omega) hz w hw, readWord, if_neg fun hh => hh.2.elim h45.1 h45.2]
    · have hmem := mem_usedIndices_of (Nat.one_le_iff_ne_zero.2 h0) (by omega) hz
      have h1 : w ≠ 1 := by
        obtain hc | ⟨-, -, hc⟩ | ⟨-, hc⟩ | ⟨rfl, -⟩ | ⟨rfl, -⟩ := hcase
        · simp at hc
          omega
        · exact absurd hc hz
        · exact absurd hc h0
        · decide
        · decide
      rw [h.used i hmem w hw h1]
      obtain hc | ⟨-, -, hc⟩ | ⟨-, hc⟩ | ⟨rfl, hl⟩ | ⟨rfl, ho⟩ := hcase
      · simp only [List.mem_cons, List.not_mem_nil, or_false, not_or] at hc
        obtain ⟨-, h4, h5, h6, h7, h11⟩ := hc
        simp [judgedWord, h4, h5, h6, h7, h11]
      · exact absurd hc hz
      · exact absurd hc h0
      · simp [judgedWord, hl]
      · by_cases hl : rd s (elementWord i 4) = 4
        · simp [judgedWord, hl]
        · simp only [judgedWord, if_neg hl]
          rw [if_neg fun hh => ho hh.2]
          rfl

/-- Settles O57: the table is read, the three passes reset parents, and the states follow. -/
theorem elementCensusRebuildsTheTree : Obligations.ElementCensusRebuildsTheTree := by
  unfold Obligations.ElementCensusRebuildsTheTree
  intro s hm hring h3
  obtain ⟨-, hst, -⟩ := (atStartStep_iff 3 s).1 h3
  obtain ⟨w, hw, hcensus⟩ := elementCensus_eq hm hring hst
  have hexec : exec .elementCensus s = .next (toStartStep 4 (censusCounts w)) := by
    rw [← hcensus]
    exact congrArg Host.Outcome.next (startStep_at h3 elementCensus)
  refine ⟨toStartStep 4 (censusCounts w), hexec, ?_, fun i hi => ?_, fun i h1 h255 hne => ?_, fun r l resets hlog hjournal hresets hroom => ?_,
    rfl, rfl, rfl, rfl, hw.root.1, hw.root.2.1, hw.root.2.2, fun i x hi hx hcase => hw.other_words hi hx hcase, fun i h1 h255 hz => ?_,
    hw.kept, ?_⟩
  · show { w.part with startStep := 4 } = _
    rw [hw.frame]
  · show tableGet w.plant.tree i = none
    rw [hw.tree, tableGet_treeWith, if_neg]
    intro hmem
    obtain ⟨h1, h255, hne⟩ := usedIndices_range hmem
    obtain h | h | h := hi
    · omega
    · omega
    · exact hne h
  · have hmem := mem_usedIndices_of h1 h255 hne
    obtain ⟨hcases, hshallow, hdeep, hchain, huse, hdepth⟩ := hw.parents hmem
    exact ⟨censusElement s (censusParent s) i, hw.element hmem, rfl, censusState_eq _, hcases, hshallow, hdeep, hchain, huse,
      hdepth, hw.words hmem rfl⟩
  · obtain ⟨hhead, htail⟩ := hring.1 .log r hlog
    have hlen : ((censusResets s (treeWith s (censusParent s))).map fun i => (i, storedParent s i)).length = resets.length := by
      rw [List.length_map, hresets, ← hw.tree]
      rfl
    obtain ⟨hrec, hend, -⟩ := hw.logs r l hlog hjournal hhead htail (by rw [hlen]; exact hroom)
    rw [hlen] at hend
    refine ⟨fun k i hk => hrec k i (storedParent s i) ?_, hend⟩
    have hk : (censusResets s (treeWith s (censusParent s)))[k]? = some i := by
      rw [← hw.tree]
      rw [hresets] at hk
      exact hk
    rw [List.getElem?_map, hk]
    rfl
  · have hu := hw.unused i h1 h255 hz
    exact ⟨(hu 4 (by decide)).trans (if_pos ⟨hz, .inl rfl⟩), (hu 5 (by decide)).trans (if_pos ⟨hz, .inr rfl⟩)⟩
  · show toStartStep 4 (censusCounts w) = { s with
      mem := w.mem, port := w.port, part := { w.part with startStep := 4 }, plant := (censusCounts w).plant, writer := w.writer }
    unfold toStartStep censusCounts
    rw [hw.frame]

end Sys2Proof.Machine
